-- ==== Sys2Proof/Word.lean ====
section
/-! DEFINITION. The word types of the Decavo J12 and the index types its parts are numbered with. -/

namespace Sys2Proof

/-- A byte of memory. -/
abbrev W8 := BitVec 8
/-- A 16-bit value. -/
abbrev W16 := BitVec 16
/-- An FP32 pattern or a 32-bit field. -/
abbrev W32 := BitVec 32
/-- A 64-bit register, word or virtual address. -/
abbrev W64 := BitVec 64
/-- A local address, bits [43:0] of a physical address (R374). -/
abbrev LAddr := BitVec 44
/-- A 56-bit physical address: vertex ID in [55:44], local address in [43:0] (R374). -/
abbrev PAddr := BitVec 56

/-- A logical core, LC0 to LC191 (R3). -/
abbrev LC := Fin 192
/-- A hardware context of a core (R128). -/
abbrev CtxIx := Fin 4
/-- A die: 0 to 11 compute dies, 12 to 15 base dies, 16 the host die (R715). -/
abbrev Die := Fin 17
/-- A compute die CD0 to CD11. -/
abbrev CDie := Fin 12
/-- A base die BD0 to BD3. -/
abbrev BDie := Fin 4
/-- A physical core MC0 to MC17 of a compute die (R599). -/
abbrev MC := Fin 18
/-- A Jahel stack JS0 to JS15. -/
abbrev Stack := Fin 16
/-- A home slice HS0 to HS63 (R323). -/
abbrev Slice := Fin 64
/-- A Facet link F0 to F47. -/
abbrev Link := Fin 48
/-- A lane of a Facet link (R500). -/
abbrev Lane := Fin 2
/-- A copy engine CE0 to CE47 (R477). -/
abbrev CopyEng := Fin 48
/-- A monitor MON0 to MON255 (R689). -/
abbrev Mon := Fin 256
/-- A unit under latency tolerance, u = 0 to 311 (R603). -/
abbrev PUnit := Fin 312
/-- A staging slot of a context (R90). -/
abbrev SlotIx := Fin 16
/-- A hart ID (R458). -/
abbrev HartIx := Fin 64
/-- A PCIe or CXL port, 4 × quad + index (R466). -/
abbrev Port := Fin 16
/-- A context group of the quotas, G0 to G15 (R409). -/
abbrev Group := Fin 16
/-- A vertex ID (R374). -/
abbrev Vertex := BitVec 12

/-- A context of a logical core. -/
structure Cx where
  lc : LC
  ix : CtxIx
  deriving DecidableEq, Repr

/-- The number of a context among the 768 of the package, in LC order (R536). -/
def Cx.num (c : Cx) : Nat := 4 * c.lc.val + c.ix.val

end Sys2Proof
end

