-- ==== Sys2Proof/Config.lean ====
section
/-! DEFINITION. What the manual leaves to an implementation, to a published algorithm it only names, or to a file that
ships with the part. Every constant here is opaque: no proof can see a value of it. -/

namespace Sys2Proof.Config

/-- A value the manual does not state, drawn by the counter of the state (log entry 1). -/
opaque freeValue : Nat → W64

/-- The fixed function of R237 with the number `fn` (0 to 9 the minors of R236, 10 `vrcp`, 11 `vrsqrt`) at an input that
R238 does not list. The bits are those of the reference model file, which is not in the manual (log entry 2). -/
opaque vfunc : Nat → W32 → W32

/-- Whether the value of `vfunc` equals the exact mathematical value (R753; log entry 2). -/
opaque vfuncExact : Nat → W32 → Bool

/-- Whether the exact mathematical value exceeds the largest finite FP32 magnitude, with its sign (R753; log entry 2). -/
opaque vfuncOver : Nat → W32 → Option Bool

/-- SHA3-512 (FIPS 202) of a byte string (log entry 3). -/
opaque sha3 : List W8 → BitVec 512

/-- Whether an ML-DSA-87 (FIPS 204) signature verifies: key digest, message, signature (log entry 3). -/
opaque mldsaVerify : BitVec 512 → List W8 → List W8 → Bool

/-- The ML-DSA-87 signature of a message under the private key with this number (log entry 3). -/
opaque mldsaSign : W64 → List W8 → List W8

/-- The ML-KEM-1024 (FIPS 203) encapsulation key of the transport key with this number (log entry 3). -/
opaque mlkemPublic : W64 → List W8

/-- ML-KEM-1024 decapsulation under the transport key with this number: the shared secret, or none (log entry 3). -/
opaque mlkemDecap : W64 → List W8 → Option (List W8)

/-- AES-256-GCM decryption: key, nonce, additional data, ciphertext, tag; none when the tag does not match (log entry 3). -/
opaque gcmOpen : BitVec 256 → BitVec 96 → List W8 → List W8 → List W8 → Option (List W8)

/-- The CRC-64 check digest of R586 of a byte string (log entry 3). -/
opaque crc64 : List W8 → W64

/-- The SHA3-512 digest of Talwen's firmware key in the boot ROM (R643; log entry 3). -/
opaque firmwareKeyDigest : BitVec 512

/-- The SHA3-512 digest of the public identity key (R558, R638; log entry 3). -/
opaque identityKeyDigest : BitVec 512

/-- The SHA3-512 digest of Talwen's ledger key in the boot ROM (R558; log entry 3). -/
opaque ledgerKeyDigest : BitVec 512

/-- The digest of the boot ROM itself (R644; log entry 3). -/
opaque bootRomDigest : BitVec 512

/-- What a verifier finds in the words of a firmware image under R643: whether it verifies, whether its management image initialises,
its header digest and its security version (R643, R645; the layout of the header is not in the manual; log entry 3). -/
opaque firmwareImage : List W32 → Bool × Bool × BitVec 512 × W32

/-- What verification of a screening program under R589 gives: its digest and its expected result, or none (log entry 3). -/
opaque screeningProgram : List W32 → Option (BitVec 512 × W64)

/-- The DER bytes of the attestation key certificate: generation of the key, cold-start count (R642; log entry 3). -/
opaque attestationCert : W64 → W32 → List W8

/-- The device serial number (R556; log entry 4). -/
opaque deviceSerial : BitVec 128

/-- The natural cadence of a compute die in steps per nanosecond, unsigned 8.24, by supply in mV and Tj in quarter
degrees. R143 only bounds it from below (log entry 5). -/
opaque naturalRate : CDie → Nat → Int → W32

/-- Which of the core TLB's 64 or the shared TLB's 8,192 entries a new translation replaces (log entry 6). -/
opaque tlbVictim : Nat → Nat

end Sys2Proof.Config
end

