-- ==== Sys2Proof/Machine/RegMap.lean ====
section
/-! DEFINITION. The registers of the part: their fields with types and reset values (the register tables of every chapter),
where each lies in register space (R715 to R718, R135, R165, R170, R417, R456, R499, R548, R598, R636, R659, R688, R699,
R712), and which register an address names. -/

namespace Sys2Proof.Machine

/-- The type of a register field (R14). -/
inductive FType where
  | rw | ro | wo | w1c | w1s | rc | rwl
  deriving DecidableEq, Repr

/-- One row of a register table: bits [hi:lo], type, value after a package cold reset. -/
structure Field where
  name : String
  hi : Nat
  lo : Nat
  ty : FType
  reset : Nat
  deriving DecidableEq, Repr

/-- The registers, by name. The index of a register (its core, stack, engine, link, unit, monitor) is in `Reg`. -/
inductive RegKind where
  | coreCtl | coreStatus | coreCtxStatus | coreSlice | coreCksCtl | coreCksCount | coreOcCtl | coreSpdEcc | coreSpdScrub
  | sqCmd | sqStatus
  | lcCnt | lcSnap
  | pmuTime | cadStatus | therm | paceCtl | droopCtl | gap
  | toff | capCtl | capStatus | shiftCtl | shiftStatus | trip
  | unitCtl | unitStatus
  | xltEqBase | xltEqHead | xltEqTail | xltEqMsi | xltResolve | xltInvVa | xltInvCmd | xltStatus
  | tierCntBase | tierCntCmd | tierHotThresh | tierLate | tierStallT2 | tierStallT3 | tierQuota | tierUsed | tierCharge
  | jsCtl | jsStatus | jsSpareMap | jsRebuild | jsErr
  | mscCtl | mscStatus | mscEcc | mscWays | mscCount
  | ceRingBase | ceRingRoot | ceCqBase | ceMsiAddr | ceCtl | ceDb | ceStatus
  | linkCtl | linkStatus | linkErr | fctShape | fctDetour | fctClassCtl | fctArrive
  | chdCtl | chdStatus | chdErr
  | errLogBase | errLogHead | errLogTail | errLogMsi | errStatus | errCheckCtl | errCheckStats | errSpares | errLedger
  | errScreen
  | secStatus | secCmd | secAddr | secArg | secResult | secSlots | secNonce
  | bootStatus | bootStraps | bootReset | bootCtl | bootFwCtl | bootFwStatus
  | monCtl | monStart | monRes | monRMinMax | monRStart | monREnd | monRSum | monEdge | monBin
  | mbCmd | mbStatus | mbData | mbTelem
  deriving DecidableEq, Repr

/-- A register of the package: its name, the number `i` of the unit it belongs to (logical core, die, stack, engine,
link, unit, monitor, group, base die, connection of a die) and its number `j` within that unit. -/
structure Reg where
  kind : RegKind
  i : Nat := 0
  j : Nat := 0
  deriving DecidableEq, Repr

section FieldTables

/-- A field of type RW. -/
def rw (n : String) (hi lo : Nat) (r : Nat := 0) : Field := ⟨n, hi, lo, .rw, r⟩
/-- A field of type RO. -/
def ro (n : String) (hi lo : Nat) (r : Nat := 0) : Field := ⟨n, hi, lo, .ro, r⟩
/-- A field of type WO. -/
def wo (n : String) (hi lo : Nat) : Field := ⟨n, hi, lo, .wo, 0⟩
/-- A field of type W1C. -/
def w1c (n : String) (hi lo : Nat) : Field := ⟨n, hi, lo, .w1c, 0⟩
/-- A field of type RC. -/
def rc (n : String) (hi lo : Nat) : Field := ⟨n, hi, lo, .rc, 0⟩
/-- A field of type RWL. -/
def rwl (n : String) (hi lo : Nat) (r : Nat := 0) : Field := ⟨n, hi, lo, .rwl, r⟩

/-- The fields of a register, as its register table lists them. `i` is the register's own number where a reset value
depends on it. Bits that no row names are reserved (R16). -/
def RegKind.fields : RegKind → List Field
  | .coreCtl => [rw "ctx_en" 3 0 0xF, wo "front_reload" 8 8]
  | .coreStatus => [ro "phys_core" 4 0, ro "on_spare" 5 5, ro "sliced" 6 6, ro "front_busy" 7 7, ro "streams" 15 8,
      ro "ctx_active" 19 16]
  | .coreCtxStatus => [ro "state_0" 1 0, ro "wait_0" 7 4, ro "state_1" 17 16, ro "wait_1" 23 20, ro "state_2" 33 32,
      ro "wait_2" 39 36, ro "state_3" 49 48, ro "wait_3" 55 52]
  | .coreSlice => [rw "quantum_us" 15 0 200, rc "switches" 63 32]
  | .coreCksCtl => [wo "inject_cell" 0 0, wo "inject_opchk" 1 1, rwl "inject_off" 8 8]
  | .coreCksCount => [rc "mismatches" 15 0, rc "opchk_fails" 31 16, rc "skipped" 47 32, rc "replays" 63 48]
  | .coreOcCtl => [rw "way_disable" 7 0, wo "invalidate" 16 16, rw "bypass" 24 24]
  | .coreSpdEcc => [rc "corrected" 15 0, rc "uncorrected" 31 16, ro "last_word" 51 32]
  | .coreSpdScrub => [rw "period_s" 15 0 600, ro "passes" 63 32]
  | .sqCmd => [wo "action" 2 0, wo "desc_addr" 55 6]
  | .sqStatus => [ro "last_action" 2 0, ro "result" 15 8, ro "busy" 16 16, ro "stream_id" 63 32]
  | .lcCnt => [ro "count" 63 0]
  | .lcSnap => [wo "snap" 0 0]
  | .pmuTime => [ro "now" 63 0]
  | .cadStatus => [w1c "short" 0 0, ro "cap_limited" 1 1, ro "time_unlocked" 2 2, rc "missed" 63 32]
  | .therm => [ro "tj" 15 0, rc "tj_max" 31 16, ro "throttle" 32 32, w1c "hot_seen" 33 33]
  | .paceCtl => [rw "fixed_rate" 0 0, rw "rate" 63 32 0x01800000]
  | .droopCtl => [rw "threshold_mv" 7 0 25, rw "gate_ns" 15 8 25, rc "triggers" 47 32, rc "ignored" 63 48]
  | .gap => [ro "gap_rate" 31 0 0x01800000, ro "gap_en" 32 32]
  | .toff => [ro "offset" 47 0, w1c "stale" 62 62, ro "valid" 63 63]
  | .capCtl => [rwl "cap_w" 12 0 4800, rw "laser_w" 23 16 40, rw "vmax_mv" 41 32 720, rwl "lock" 63 63]
  | .capStatus => [ro "power_w" 12 0, ro "eff_cap_w" 28 16 4800, ro "cap_unmet" 32 32, w1c "unmet_seen" 33 33,
      ro "at_floor" 34 34, ro "gapping" 35 35, ro "throttling" 36 36, ro "stack_hold" 37 37, rc "unmet_ms" 63 48]
  | .shiftCtl => [rw "en" 0 0, rw "mon" 15 8, rw "group" 27 16, rw "step_w" 35 28 20, rw "min_w" 48 36 1400,
      rw "max_w" 61 49 5600]
  | .shiftStatus => [rc "given" 15 0, rc "taken" 31 16, rc "reconciled_w" 47 32, ro "active" 48 48]
  | .trip => [ro "coolant" 0 0, ro "thermal" 1 1, ro "die" 6 2]
  | .unitCtl => [rw "tol" 31 0, rw "en" 32 32 1]
  | .unitStatus => [ro "state" 2 0, ro "ready" 3 3, ro "entering" 4 4, ro "switching" 5 5, ro "waking" 6 6,
      ro "en_pending" 7 7, ro "dis_pending" 8 8, rc "entries" 47 16]
  | .xltEqBase => [rw "size_log2" 3 0, rw "base" 55 12, rw "en" 63 63]
  | .xltEqHead => [ro "written" 31 0]
  | .xltEqTail => [rw "consumed" 31 0, rw "msi_data" 63 32]
  | .xltEqMsi => [rw "msi_addr" 63 0]
  | .xltResolve => [wo "id" 31 0, wo "action" 33 32]
  | .xltInvVa => [rw "va" 56 12, rw "size_log2" 62 57 12]
  | .xltInvCmd => [rw "asid" 15 0, rw "all_asid" 16 16, rw "all_va" 17 17, rw "oc_flush" 18 18, wo "go" 31 31,
      ro "busy" 32 32]
  | .xltStatus => [ro "pending_0" 6 0, ro "pending_1" 14 8, ro "pending_2" 22 16, ro "pending_3" 30 24,
      rc "waits" 47 32, rc "hot_dropped" 55 48, w1c "resolve_err" 56 56]
  | .tierCntBase => [rw "en" 0 0, rw "base" 43 23]
  | .tierCntCmd => [wo "op" 1 0, ro "busy" 2 2]
  | .tierHotThresh => [rw "t1" 15 0, rw "t2" 31 16, rw "t3" 47 32]
  | .tierLate => [rw "t2_us" 15 0 20, rw "t3_us" 31 16 100]
  | .tierStallT2 => [rc "stalls" 31 0, rc "stall_us" 63 32]
  | .tierStallT3 => [rc "stalls" 31 0, rc "stall_us" 63 32]
  | .tierQuota => [rw "t1" 20 0 0x1FFFFF, rw "t2" 41 21 0x1FFFFF, rw "t3" 62 42 0x1FFFFF]
  | .tierUsed => [ro "t1" 20 0, ro "t2" 41 21, ro "t3" 62 42]
  | .tierCharge => [rw "regions" 20 0, rw "tier" 22 21, rw "release" 23 23, wo "go" 24 24, ro "result" 26 25]
  | .jsCtl => [rw "rebuild_share" 5 0 4, rw "scrub_s" 23 8 3600, wo "fail_chan" 39 32, wo "fail_go" 40 40,
      rwl "map_lock" 41 41]
  | .jsStatus => [ro "temp_c" 7 0, ro "band" 9 8, ro "tripped" 10 10, ro "degraded" 11 11, ro "rebuilding" 12 12,
      ro "spares_used" 19 16, ro "scrub_passes" 63 32]
  | .jsSpareMap => [rwl "spare" 63 0 0xFFFFFFFFFFFFFFFF]
  | .jsRebuild => [ro "cursor" 20 0, ro "chan" 31 24 0xFF, ro "spare" 35 32 0xF]
  | .jsErr => [rc "crc_retries" 15 0, rc "reconstructed" 31 16, rc "poisoned" 47 32, rc "failed" 55 48]
  | .mscCtl => [rw "keep_max" 4 0 16, wo "flush" 8 8, wo "invalidate" 9 9, rw "bypass" 12 12]
  | .mscStatus => [ro "busy" 0 0, ro "bank_off" 4 1, ro "spare_ways_used" 21 16]
  | .mscEcc => [rc "corrected" 31 0, rc "uncorr_clean" 47 32, rc "uncorr_dirty" 63 48]
  | .mscWays => [rwl "way_en" 25 0 0x0FFFFFF, rwl "lock" 63 63]
  | .mscCount => [rc "hits" 31 0, rc "misses" 63 32]
  | .ceRingBase => [rw "size_log2" 3 0, rw "space" 5 4, rw "base" 63 12]
  | .ceRingRoot => [rw "root" 63 0]
  | .ceCqBase => [rw "space" 5 4, rw "base" 63 12]
  | .ceMsiAddr => [rw "msi_addr" 63 0]
  | .ceCtl => [rw "en" 0 0, wo "ring_reset" 1 1, rw "port" 7 4, rw "start" 31 16, rw "msi_data" 63 32]
  | .ceDb => [wo "count" 15 0]
  | .ceStatus => [ro "next" 15 0, ro "completed" 31 16, ro "faulted" 32 32, w1c "db_err" 33 33, ro "busy" 34 34,
      ro "in_flight" 37 35]
  | .linkCtl => [rw "en" 0 0, rw "reach" 1 1, wo "lane_fail" 3 2, wo "retrain" 4 4]
  | .linkStatus => [ro "lane_up" 1 0, ro "failed" 2 2, ro "reach_rx" 3 3, ro "miscabled" 4 4, ro "dark" 5 5 1,
      ro "dim" 7 6 3, ro "peer" 19 8]
  | .linkErr => [rc "retries" 15 0, rc "uncorr_cw" 31 16, rc "tc0_held" 47 32, rc "lane_fails" 55 48]
  | .fctShape => [rwl "log2_nx" 2 0, rwl "log2_ny" 5 3, rwl "log2_nz" 8 6, rwl "vertex" 23 12, ro "shape_err" 24 24,
      rwl "lock" 63 63]
  | .fctDetour => [rw "via" 63 0 0xFEDCBA9876543210]
  | .fctClassCtl => [rw "q1" 7 0 8, rw "q2" 15 8 8, rw "q3" 23 16 8, rw "match_ms" 47 32, rw "police_off" 48 48]
  | .fctArrive => [wo "line" 43 0]
  | .chdCtl => [wo "fail_wire" 10 0, wo "fail_go" 11 11, rwl "map_lock" 12 12]
  | .chdStatus => [ro "groups" 5 0, ro "active" 11 6, ro "spares_used" 17 12, ro "remapping" 18 18, ro "degraded" 19 19]
  | .chdErr => [rc "crc_retries" 23 0, rc "wires_failed" 31 24, rc "groups_disabled" 39 32]
  | .errLogBase => [rw "size_log2" 3 0, rw "base" 55 12, rw "en" 63 63]
  | .errLogHead => [ro "written" 31 0]
  | .errLogTail => [rw "consumed" 31 0, rw "msi_data" 63 32]
  | .errLogMsi => [rw "msi_addr" 63 0]
  | .errStatus => [ro "degraded" 0 0, ro "cores_sliced" 1 1, ro "jahel_short" 2 2, ro "chord_short" 3 3,
      ro "facet_short" 4 4, ro "host_short" 5 5, ro "msc_short" 6 6, ro "check_skip" 7 7, ro "held" 24 16,
      rc "dropped" 47 32, w1c "ledger_err" 48 48]
  | .errCheckCtl => [rwl "level" 1 0, rwl "k_m1" 5 2, rwl "seed" 15 8, rwl "lock" 63 63]
  | .errCheckStats => [rc "checked" 23 0, rc "skipped" 39 24, rc "mismatches" 51 40, rc "arbitrations" 59 52,
      rc "unresolved" 63 60]
  | .errSpares => [ro "core" 23 0, ro "host" 27 24, ro "facet" 30 28, ro "free_spd" 37 32]
  | .errLedger => [ro "blocks" 6 0, ro "half" 7 7, ro "pending" 14 8, ro "busy" 15 15, ro "out_of_service" 31 16,
      ro "ignored" 39 32]
  | .errScreen => [ro "loaded" 0 0, ro "running" 1 1, rw "budget" 11 8 10, rc "runs" 31 16, rc "fails" 39 32]
  | .secStatus => [ro "id_ok" 0 0, ro "id_fail" 1 1, ro "bank" 2 2, ro "host_epoch" 31 16, ro "svn" 63 32]
  | .secCmd => [wo "op" 3 0, wo "index" 6 4, wo "slot" 13 8]
  | .secAddr => [rw "addr" 55 0]
  | .secArg => [rw "length" 31 0, rw "label" 63 32]
  | .secResult => [ro "code" 7 0, ro "busy" 8 8, ro "length" 63 32]
  | .secSlots => [ro "loaded" 63 0]
  | .secNonce => [rw "nonce" 63 0]
  | .bootStatus => [ro "stage" 3 0, ro "ready" 4 4, ro "last_reset" 7 5, ro "error" 15 8, ro "rail_fault" 16 16,
      ro "cold_starts" 63 32]
  | .bootStraps => [ro "bif" 7 0, ro "role" 11 8, ro "boot" 13 12, ro "addr" 15 14]
  | .bootReset => [wo "kind" 2 0, wo "target" 16 8, ro "busy" 24 24, ro "result" 39 32]
  | .bootCtl => [rw "lattice_reset_en" 0 0 1, ro "lattice_seq" 23 8]
  | .bootFwCtl => [wo "switch" 0 0, wo "commit" 1 1, rw "probation_s" 31 16 600]
  | .bootFwStatus => [ro "running" 0 0, ro "boot_bank" 1 1, ro "probation" 2 2, ro "busy" 3 3, ro "fell_back" 4 4,
      w1c "reverted" 5 5, ro "result" 15 8, ro "pause_ns" 31 16, ro "svn_inactive" 63 32]
  | .monCtl => [rw "src" 7 0, rw "index" 15 8, rw "arm" 16 16, rw "repeat" 17 17, rw "len_us" 55 24 1000]
  | .monStart => [rw "time" 63 0]
  | .monRes => [ro "seq" 15 0, ro "partial" 16 16, ro "count" 63 32]
  | .monRMinMax => [ro "min" 31 0 0x7FFFFFFF, ro "max" 63 32 0x80000000]
  | .monRStart => [ro "time" 63 0]
  | .monREnd => [ro "time" 63 0]
  | .monRSum => [ro "sum" 63 0]
  | .monEdge => [rw "lo" 31 0, rw "hi" 63 32]
  | .monBin => [ro "lo" 31 0, ro "hi" 63 32]
  | .mbCmd => [wo "opcode" 7 0, wo "length" 39 16, wo "arg" 63 40]
  | .mbStatus => [ro "busy" 0 0, ro "out_valid" 1 1, w1c "overrun" 2 2, w1c "underrun" 3 3, ro "path" 5 4,
      ro "result" 15 8, ro "in_free" 26 16, ro "remaining" 55 32, ro "last_op" 63 56]
  | .mbData => [rw "word" 31 0]
  | .mbTelem => [ro "power_w" 12 0, ro "tj_hot" 31 16, ro "ready" 32 32, ro "degraded" 33 33, ro "cap_unmet" 34 34,
      ro "throttling" 35 35, ro "tripped" 36 36]

end FieldTables

/-- The bits of a field as a mask. -/
def Field.mask (f : Field) : W64 := BitVec.ofNat 64 (2 ^ (f.hi + 1) - 2 ^ f.lo)

/-- The bits of a register that have one of the types in `ts`. -/
def RegKind.maskOf (k : RegKind) (ts : List FType) : W64 :=
  k.fields.foldl (fun m f => if f.ty ∈ ts then m ||| f.mask else m) 0

/-- The value of a register after a package cold reset: the "At reset" column. -/
def RegKind.resetValue (k : RegKind) : W64 :=
  BitVec.ofNat 64 (k.fields.foldl (fun n f => n + f.reset * 2 ^ f.lo) 0)

/-- The bits that lock a register's RWL fields once they read 1: a lock field where the table has one, or the field that
locks once written with 1 (R15 and the register tables). -/
def RegKind.lockMask : RegKind → W64
  | .coreCksCtl => 0x100
  | .capCtl | .fctShape | .errCheckCtl | .mscWays => 0x8000000000000000
  | .jsCtl => 0x20000000000
  | .chdCtl => 0x1000
  | _ => 0

/-- The base of the register region of die `d`, counted from 0xE00_0000_0000 (R715). -/
def dieBase (d : Nat) : Nat := d * 0x800000

/-- The offset of a register from 0xE00_0000_0000 (R715 to R718 and the register tables). -/
def Reg.offset (r : Reg) : Nat :=
  let core (o : Nat) := dieBase (r.i / 16) + 0x1000 * (r.i % 16) + o
  let cnt (o : Nat) := dieBase (r.i / 16) + 0x10000 + 0x1000 * (r.i % 16) + o
  let sq (o : Nat) := dieBase (r.i / 16) + 0x20000 + 0x20 * (r.i % 16) + o
  let pmu (o : Nat) := dieBase r.i + 0x30000 + o
  let hd (o : Nat) := dieBase 16 + o
  let js (o : Nat) := dieBase (12 + r.i / 4) + 0x1000 * (r.i % 4) + o
  let bd (o : Nat) := dieBase (12 + r.i) + o
  let ce (o : Nat) := if r.i < 32 then dieBase (12 + r.i / 8) + 0x60000 + 0x1000 * (r.i % 8) + o
    else dieBase 16 + 0x60000 + 0x1000 * (r.i - 32) + o
  let link (o : Nat) := dieBase (12 + r.i / 12) + 0x20000 + 0x20 * (r.i % 12) + o
  let chd (o : Nat) := dieBase r.i + 0x50000 + 0x20 * r.j + o
  let mon (o : Nat) := (if r.i < 192 then dieBase (r.i / 16) + 0x200 * (r.i % 16)
    else if r.i < 240 then dieBase (12 + (r.i - 192) / 12) + 0x200 * ((r.i - 192) % 12)
    else dieBase 16 + 0x200 * (r.i - 240)) + 0x40000 + o
  match r.kind with
  | .coreCtl => core 0x000 | .coreStatus => core 0x008 | .coreCtxStatus => core 0x010 | .coreSlice => core 0x018
  | .coreCksCtl => core 0x020 | .coreCksCount => core 0x028 | .coreOcCtl => core 0x030 | .coreSpdEcc => core 0x038
  | .coreSpdScrub => core 0x040
  | .lcCnt => cnt (0x8 * r.j) | .lcSnap => cnt 0x200
  | .sqCmd => sq 0 | .sqStatus => sq 8
  | .pmuTime => pmu 0x000 | .cadStatus => pmu 0x008 | .therm => pmu 0x010 | .paceCtl => pmu 0x018
  | .droopCtl => pmu 0x020 | .gap => pmu 0x028
  | .toff => hd (0x70000 + 8 * r.i) | .capCtl => hd 0x70100 | .capStatus => hd 0x70108 | .shiftCtl => hd 0x70110
  | .shiftStatus => hd 0x70118 | .trip => hd 0x70120
  | .unitCtl => hd (0x80000 + 0x10 * r.i) | .unitStatus => hd (0x80000 + 0x10 * r.i + 8)
  | .xltEqBase => hd 0x90000 | .xltEqHead => hd 0x90008 | .xltEqTail => hd 0x90010 | .xltEqMsi => hd 0x90018
  | .xltResolve => hd 0x90020 | .xltInvVa => hd 0x90028 | .xltInvCmd => hd 0x90030 | .xltStatus => hd 0x90038
  | .tierCntBase => hd 0xA0000 | .tierCntCmd => hd 0xA0008 | .tierHotThresh => hd 0xA0010 | .tierLate => hd 0xA0018
  | .tierStallT2 => hd 0xA0020 | .tierStallT3 => hd 0xA0028 | .tierQuota => hd (0xA0100 + 8 * r.i)
  | .tierUsed => hd (0xA0180 + 8 * r.i) | .tierCharge => hd (0xA0200 + 8 * r.i)
  | .errLogBase => hd 0xB0000 | .errLogHead => hd 0xB0008 | .errLogTail => hd 0xB0010 | .errLogMsi => hd 0xB0018
  | .errStatus => hd 0xB0020 | .errCheckCtl => hd 0xB0028 | .errCheckStats => hd 0xB0030 | .errSpares => hd 0xB0038
  | .errLedger => hd 0xB0040 | .errScreen => hd 0xB0048
  | .secStatus => hd 0xC0000 | .secCmd => hd 0xC0008 | .secAddr => hd 0xC0010 | .secArg => hd 0xC0018
  | .secResult => hd 0xC0020 | .secSlots => hd 0xC0028 | .secNonce => hd (0xC0040 + 8 * r.j)
  | .bootStatus => hd 0xD0000 | .bootStraps => hd 0xD0008 | .bootReset => hd 0xD0010 | .bootCtl => hd 0xD0018
  | .bootFwCtl => hd 0xD0020 | .bootFwStatus => hd 0xD0028
  | .mbCmd => hd 0xE0000 | .mbStatus => hd 0xE0008 | .mbData => hd 0xE0010 | .mbTelem => hd 0xE0018
  | .jsCtl => js 0 | .jsStatus => js 0x08 | .jsSpareMap => js 0x10 | .jsRebuild => js 0x18 | .jsErr => js 0x20
  | .mscCtl => bd 0x10000 | .mscStatus => bd 0x10008 | .mscEcc => bd 0x10010
  | .mscWays => dieBase (12 + r.i / 16) + 0x10100 + 8 * (r.i % 16)
  | .mscCount => dieBase (12 + r.i / 16) + 0x10180 + 8 * (r.i % 16)
  | .ceRingBase => ce 0 | .ceRingRoot => ce 0x08 | .ceCqBase => ce 0x10 | .ceMsiAddr => ce 0x18 | .ceCtl => ce 0x20
  | .ceDb => ce 0x28 | .ceStatus => ce 0x30
  | .linkCtl => link 0 | .linkStatus => link 0x08 | .linkErr => link 0x10
  | .fctShape => dieBase 12 + 0x20200 | .fctDetour => dieBase 12 + 0x20208 + 8 * r.j
  | .fctClassCtl => dieBase 12 + 0x20220 | .fctArrive => bd 0x20228
  | .chdCtl => chd 0 | .chdStatus => chd 0x08 | .chdErr => chd 0x10
  | .monCtl => mon 0 | .monStart => mon 0x08 | .monRes => mon 0x10 | .monRMinMax => mon 0x18 | .monRStart => mon 0x20
  | .monREnd => mon 0x28 | .monRSum => mon 0x30 | .monEdge => mon (0x80 + 8 * r.j) | .monBin => mon (0x100 + 8 * r.j)

/-- What an offset in register space names (R715, R716). -/
inductive RegTarget where
  /-- A hole: no block has this page, or the address lies above the 17 regions. -/
  | hole
  /-- An offset of a block that names no register: reads as zero, writes have no effect. -/
  | nothing
  /-- A register. -/
  | reg (r : Reg)
  deriving DecidableEq, Repr

/-- The connections of a die's `CHD_` block (R548). -/
def chdConns (d : Nat) : Nat := if d < 12 then 1 else if d < 16 then 6 else 4

/-- The first of the candidates whose 8 bytes hold the offset. -/
def pickReg (x : Nat) (rs : List Reg) : RegTarget :=
  match rs.find? (fun r => r.offset ≤ x && x < r.offset + 8) with
  | some r => .reg r
  | none => .nothing

/-- The registers that the block holding offset `o` of die `d`'s region can name at that offset, or none for a hole
(R717, R718). -/
def blockRegs (d o : Nat) : Option (List Reg) :=
  let page := o / 0x1000
  let inPage := o % 0x1000
  let cd := d < 12
  let bd := 12 ≤ d && d < 16
  let b := d - 12
  if page < 0x10 then
    if cd then some (([.coreCtl, .coreStatus, .coreCtxStatus, .coreSlice, .coreCksCtl, .coreCksCount, .coreOcCtl,
      .coreSpdEcc, .coreSpdScrub] : List RegKind).map fun k => ⟨k, 16 * d + page, 0⟩)
    else if bd && page < 4 then some (([.jsCtl, .jsStatus, .jsSpareMap, .jsRebuild, .jsErr] : List RegKind).map
      fun k => ⟨k, 4 * b + page, 0⟩)
    else none
  else if page < 0x20 then
    if cd then some [⟨.lcCnt, 16 * d + (page - 0x10), if inPage < 0x200 then inPage / 8 else 0⟩,
      ⟨.lcSnap, 16 * d + (page - 0x10), 0⟩]
    else if bd && page = 0x10 then some [⟨.mscCtl, b, 0⟩, ⟨.mscStatus, b, 0⟩, ⟨.mscEcc, b, 0⟩,
      ⟨.mscWays, 16 * b + (inPage - 0x100) / 8 % 16, 0⟩, ⟨.mscCount, 16 * b + (inPage - 0x180) / 8 % 16, 0⟩]
    else none
  else if page = 0x20 then
    if cd then some [⟨.sqCmd, 16 * d + inPage / 0x20 % 16, 0⟩, ⟨.sqStatus, 16 * d + inPage / 0x20 % 16, 0⟩]
    else if bd then
      let k := 12 * b + inPage / 0x20 % 12
      some ([⟨.linkCtl, k, 0⟩, ⟨.linkStatus, k, 0⟩, ⟨.linkErr, k, 0⟩, ⟨.fctArrive, b, 0⟩] ++
        (if b = 0 then [⟨.fctShape, 0, 0⟩, ⟨.fctDetour, 0, 0⟩, ⟨.fctDetour, 0, 1⟩, ⟨.fctDetour, 0, 2⟩,
          ⟨.fctClassCtl, 0, 0⟩] else []))
    else none
  else if page = 0x30 then
    some ([⟨.pmuTime, d, 0⟩, ⟨.cadStatus, d, 0⟩, ⟨.therm, d, 0⟩] ++
      (if cd then [⟨.paceCtl, d, 0⟩, ⟨.droopCtl, d, 0⟩, ⟨.gap, d, 0⟩] else []))
  else if page = 0x40 ∨ page = 0x41 then
    let m := (o - 0x40000) / 0x200
    let n := if cd then (if m < 16 then some (16 * d + m) else none)
      else if bd then (if m < 12 then some (192 + 12 * b + m) else none)
      else (if m < 16 then some (240 + m) else none)
    let x := (o - 0x40000) % 0x200
    match n with
    | none => some []
    | some n => some [⟨.monCtl, n, 0⟩, ⟨.monStart, n, 0⟩, ⟨.monRes, n, 0⟩, ⟨.monRMinMax, n, 0⟩, ⟨.monRStart, n, 0⟩,
        ⟨.monREnd, n, 0⟩, ⟨.monRSum, n, 0⟩, ⟨.monEdge, n, (x - 0x80) / 8 % 16⟩, ⟨.monBin, n, (x - 0x100) / 8 % 16⟩]
  else if page = 0x50 then
    let c := inPage / 0x20
    if c < chdConns d then some [⟨.chdCtl, d, c⟩, ⟨.chdStatus, d, c⟩, ⟨.chdErr, d, c⟩] else some []
  else if 0x60 ≤ page && page < 0x70 then
    let e := page - 0x60
    let n := if bd then (if e < 8 then some (8 * b + e) else none) else if d = 16 then some (32 + e) else none
    n.map fun n => ([.ceRingBase, .ceRingRoot, .ceCqBase, .ceMsiAddr, .ceCtl, .ceDb, .ceStatus] : List RegKind).map
      fun k => ⟨k, n, 0⟩
  else if d ≠ 16 then none
  else if page = 0x70 then
    some ((if inPage < 0x88 then [⟨.toff, inPage / 8, 0⟩] else []) ++
      ([.capCtl, .capStatus, .shiftCtl, .shiftStatus, .trip] : List RegKind).map fun k => ⟨k, 0, 0⟩)
  else if page = 0x80 ∨ page = 0x81 then
    let u := (o - 0x80000) / 0x10
    if u < 312 then some [⟨.unitCtl, u, 0⟩, ⟨.unitStatus, u, 0⟩] else some []
  else if page = 0x90 then
    some (([.xltEqBase, .xltEqHead, .xltEqTail, .xltEqMsi, .xltResolve, .xltInvVa, .xltInvCmd, .xltStatus] :
      List RegKind).map fun k => ⟨k, 0, 0⟩)
  else if page = 0xA0 then
    some (([.tierCntBase, .tierCntCmd, .tierHotThresh, .tierLate, .tierStallT2, .tierStallT3] : List RegKind).map
      (fun k => ⟨k, 0, 0⟩) ++ ([.tierQuota, .tierUsed, .tierCharge] : List RegKind).map
      fun k => ⟨k, (inPage % 0x80) / 8, 0⟩)
  else if page = 0xB0 then
    some (([.errLogBase, .errLogHead, .errLogTail, .errLogMsi, .errStatus, .errCheckCtl, .errCheckStats, .errSpares,
      .errLedger, .errScreen] : List RegKind).map fun k => ⟨k, 0, 0⟩)
  else if page = 0xC0 then
    some (([.secStatus, .secCmd, .secAddr, .secArg, .secResult, .secSlots] : List RegKind).map
      (fun k => ⟨k, 0, 0⟩) ++ [⟨.secNonce, 0, (inPage - 0x40) / 8 % 8⟩])
  else if page = 0xD0 then
    some (([.bootStatus, .bootStraps, .bootReset, .bootCtl, .bootFwCtl, .bootFwStatus] : List RegKind).map
      fun k => ⟨k, 0, 0⟩)
  else if page = 0xE0 then
    some (([.mbCmd, .mbStatus, .mbData, .mbTelem] : List RegKind).map fun k => ⟨k, 0, 0⟩)
  else none

/-- What the offset `x` from 0xE00_0000_0000 names (R715 to R718). -/
def regTarget (x : Nat) : RegTarget :=
  let d := x / 0x800000
  if 17 ≤ d then .hole
  else match blockRegs d (x % 0x800000) with
    | none => .hole
    | some rs => pickReg x rs

end Sys2Proof.Machine
end

