-- ==== Sys2Proof/Syntax.lean ====
section
/-! DEFINITION. The commands of the block: the operand records and `Instr`, one constructor per row of the table of
operations and events (spec/opcode_table.json). -/

namespace Sys2Proof

/-- The fields of an S-form instruction besides its opcodes (R185, R186). -/
structure SForm where
  pn : Bool := false
  pg : BitVec 3 := 0
  d : BitVec 5 := 0
  x : BitVec 5 := 0
  y : BitVec 5 := 0
  z : BitVec 5 := 0
  mod : BitVec 8 := 0
  imm16 : W16 := 0
  deriving DecidableEq, Repr

/-- The fields of an I-form instruction besides its opcodes (R185, R186). -/
structure IForm where
  pn : Bool := false
  pg : BitVec 3 := 0
  d : BitVec 5 := 0
  x : BitVec 5 := 0
  imm34 : BitVec 34 := 0
  deriving DecidableEq, Repr

/-- The fields of an M-form instruction besides its opcodes (R185, R186). -/
structure MForm where
  pn : Bool := false
  pg : BitVec 3 := 0
  d : BitVec 5 := 0
  a : BitVec 4 := 0
  hint : BitVec 3 := 0
  size : BitVec 4 := 0
  off32 : W32 := 0
  deriving DecidableEq, Repr

/-- The fields of a T-form instruction besides its opcodes (R185, R186). -/
structure TForm where
  pn : Bool := false
  pg : BitVec 3 := 0
  ta : BitVec 3 := 0
  tb : BitVec 3 := 0
  acc : BitVec 2 := 0
  slot : BitVec 4 := 0
  flags : BitVec 4 := 0
  chain : W16 := 0
  imm16 : W16 := 0
  deriving DecidableEq, Repr

/-- The fields of a B-form instruction besides its opcodes (R185, R186). -/
structure BForm where
  pn : Bool := false
  pg : BitVec 3 := 0
  x : BitVec 5 := 0
  y : BitVec 5 := 0
  off38 : BitVec 38 := 0
  deriving DecidableEq, Repr

/-- A cache hint (R190, R444). -/
inductive Hint where
  | normal | stream | keep | last
  deriving DecidableEq, Repr

/-- A requester, as named by a requester ID (R399). -/
inductive Requester where
  | ctx (c : Cx)
  | copyEngine (e : CopyEng)
  | collective (b : BDie)
  | hart (h : HartIx)
  | llc (slice : Fin 8)
  | port (p : Port)
  | mgmt (m : Fin 4)
  | walker (b : BDie) (w : Fin 16)
  deriving DecidableEq, Repr

/-- The operation of an atomic (R248, R360); `cas` carries the value compared with. -/
inductive AmoOp where
  | add | and | or | xor | min | max | minu | maxu | swap
  | cas (cmp : W64)
  deriving DecidableEq, Repr

/-- What a read burst of a Jahel channel meets (R432): how many times its CRC was wrong, whether it came inverted, and
whether a second burst of the stripe is bad. -/
structure BurstOutcome where
  wrong : Fin 4
  inverted : Bool
  second : Bool
  deriving DecidableEq, Repr

/-- The answer of a lower tier to a request of its home (R413). -/
inductive TierAnswer where
  | data | poison | linkDown | noDecode | deviceErr | ctrlFault
  deriving DecidableEq, Repr

/-- A request of a device below a root port (R474): its address as the IOMMU translated it, or none where it rejected it,
and the bytes of a write or the length of a read. -/
structure InboundReq where
  pa : Option PAddr
  write : Option (List W8)
  length : Nat
  deriving DecidableEq, Repr

/-- The bytes of a tile that lands over Facet, as its three parts (R276). -/
structure FacetTile where
  elems : List W8
  scales : List W8
  check : List W8
  deriving DecidableEq, Repr

/-- The 64-byte header of a tile send, with the class in which it comes (R522). -/
structure TileHeader where
  fromVertex : Vertex
  fromLc : W8
  toLc : LC
  tag : W8
  cls : BitVec 2
  format : BitVec 6
  rows : Nat
  cols : Nat
  elemBytes : Nat
  scaleBytes : Nat
  checkBytes : Nat
  deriving DecidableEq, Repr

/-- A digest block of a contribution: its bytes, its 128 column sums and its CRC (R537). -/
structure Chunk where
  data : List W8
  sums : List W32
  crc : W32
  deriving DecidableEq, Repr

/-- A partial of a tree round from a member of the group (R532). `down` marks the down phase; `agree` that the sender's words 1, 2
and 4 equal this member's; `status` is that of the sender's steps, 0x3 or 0x5 where its round has ended (R527). -/
structure Partial where
  dim : Fin 3
  coord : Fin 16
  down : Bool
  agree : Bool
  status : BitVec 4
  chunks : List Chunk
  deriving DecidableEq, Repr

/-- A block that a member of the group sends in a step (R533, R538), with the worst status of the steps that fed it. -/
structure DigestBlock where
  dim : Fin 3
  coord : Fin 16
  index : Nat
  agree : Bool
  status : BitVec 4
  body : Chunk
  deriving DecidableEq, Repr

/-- A power-credit message (R623). -/
structure CreditMsg where
  vertex : Vertex
  group : BitVec 12
  slackNs : W32
  effCap : BitVec 13
  accept : Bool
  refusal : Bool
  deriving DecidableEq, Repr

/-- A ledger entry (R557). -/
structure LedgerEntry where
  cls : W8
  die : BitVec 5
  index : W16
  sub : W16
  action : BitVec 4
  source : BitVec 4
  spare : W8
  coldStarts : W32
  time : W64
  errSeq : W16
  deriving DecidableEq, Repr

/-- What the boot ROM finds (R664, R671): the REFCLK edges counted in 100 µs, PLL lock, whether the flash answers, and
whether copy A or copy B of the first stage verifies under R643, with the header digest of the copy that runs. -/
structure BootRomInput where
  edges : Nat
  pllLock : Bool
  flashOk : Bool
  copyA : Bool
  copyB : Bool
  headerDigest : BitVec 512
  deriving DecidableEq, Repr

/-- A signed firmware image as its verifier finds it (R643, R645). -/
structure FwImage where
  verifies : Bool
  initialises : Bool
  headerDigest : BitVec 512
  svn : W32
  deriving DecidableEq, Repr

/-- What the first stage finds (R639, R669, R671): the PUF reconstruction and key comparison, and the two banks. -/
structure FirstStageInput where
  idMatches : Bool
  bank0 : FwImage
  bank1 : FwImage
  deriving DecidableEq, Repr

/-- A DIMM as its SPD describes it (R462, R463). -/
structure Dimm where
  mrdimm : Bool
  perChannel : Nat
  ranks : Nat
  gib : Nat
  speeds : List Nat
  deriving DecidableEq, Repr

/-- The four paths of the mailbox (R704). -/
inductive MbPath where
  | harts | pcie | i3c | smbus
  deriving DecidableEq, Repr

/-- An agent that accesses register space (R655, R688, R704, R726). -/
inductive Agent where
  | hart (h : HartIx)
  | mgmt
  | bar0
  | port (p : Port)
  | dti (c : Cx)
  | engine
  | remote
  deriving DecidableEq, Repr

/-- The size of a register access: 4 or 8 bytes, or another (R719). -/
inductive AccSize where
  | four | eight | other
  deriving DecidableEq, Repr


/-- The steps of the part: one constructor for each row of the table of operations and events, in the order of the
table. A DTI instruction names its context and the fields of its form (R186); any other row names the unit it acts on and
what the world outside the part brings to it. -/
inductive Instr where
  /-- Scalar add: s[d] := s[x] + s[y] modulo 2^64. (R228) -/
  | add (c : Cx) (f : SForm)
  /-- Scalar subtract: s[d] := s[x] − s[y] modulo 2^64. (R228) -/
  | sub (c : Cx) (f : SForm)
  /-- Scalar multiply, low 64 bits of the product. (R228) -/
  | mul (c : Cx) (f : SForm)
  /-- High 64 bits of the signed product. (R228) -/
  | mulh (c : Cx) (f : SForm)
  /-- High 64 bits of the unsigned product. (R228) -/
  | mulhu (c : Cx) (f : SForm)
  /-- Unsigned divide; all ones for a zero divisor, never traps. (R228) -/
  | divu (c : Cx) (f : SForm)
  /-- Unsigned remainder; s[x] for a zero divisor. (R228) -/
  | remu (c : Cx) (f : SForm)
  /-- Scalar bitwise and. (R228) -/
  | and (c : Cx) (f : SForm)
  /-- Scalar bitwise or. (R228) -/
  | or (c : Cx) (f : SForm)
  /-- Scalar bitwise exclusive-or. (R228) -/
  | xor (c : Cx) (f : SForm)
  /-- Shift left by s[y] mod 64. (R228) -/
  | sll (c : Cx) (f : SForm)
  /-- Logical shift right by s[y] mod 64. (R228) -/
  | srl (c : Cx) (f : SForm)
  /-- Arithmetic shift right by s[y] mod 64. (R228) -/
  | sra (c : Cx) (f : SForm)
  /-- Set 1 if s[x] < s[y] signed, else 0. (R228) -/
  | slt (c : Cx) (f : SForm)
  /-- Set 1 if s[x] < s[y] unsigned, else 0. (R228) -/
  | sltu (c : Cx) (f : SForm)
  /-- Signed minimum of two scalars. (R228) -/
  | min (c : Cx) (f : SForm)
  /-- Signed maximum of two scalars. (R228) -/
  | max (c : Cx) (f : SForm)
  /-- Moves a scalar into an address register, sign-extended from bit 56. (R228) -/
  | mvA (c : Cx) (f : SForm)
  /-- Moves an address register into a scalar register. (R228) -/
  | mvS (c : Cx) (f : SForm)
  /-- Adds a scalar to an address register, sign-extended from bit 56. (R228) -/
  | addA (c : Cx) (f : SForm)
  /-- Adds a sign-extended 34-bit immediate. (R229) -/
  | addi (c : Cx) (f : IForm)
  /-- Ands with a zero-extended immediate. (R229) -/
  | andi (c : Cx) (f : IForm)
  /-- Ors with a zero-extended immediate. (R229) -/
  | ori (c : Cx) (f : IForm)
  /-- Exclusive-ors with a zero-extended immediate. (R229) -/
  | xori (c : Cx) (f : IForm)
  /-- Shift left by an immediate amount. (R229) -/
  | slli (c : Cx) (f : IForm)
  /-- Logical shift right by an immediate amount. (R229) -/
  | srli (c : Cx) (f : IForm)
  /-- Arithmetic shift right by an immediate amount. (R229) -/
  | srai (c : Cx) (f : IForm)
  /-- Loads a sign-extended immediate into a scalar. (R229) -/
  | li (c : Cx) (f : IForm)
  /-- Loads the immediate shifted left by 30 bits. (R229) -/
  | lui (c : Cx) (f : IForm)
  /-- Adds an immediate to an address register. (R229) -/
  | addiA (c : Cx) (f : IForm)
  /-- Scalar FP32 addition with RNE and astat flags. (R230) -/
  | fadd (c : Cx) (f : SForm)
  /-- Scalar FP32 subtraction. (R230) -/
  | fsub (c : Cx) (f : SForm)
  /-- Scalar FP32 multiplication. (R230) -/
  | fmul (c : Cx) (f : SForm)
  /-- Scalar FP32 fused multiply-add with one rounding. (R230) -/
  | fma (c : Cx) (f : SForm)
  /-- Scalar FP32 division. (R230) -/
  | fdiv (c : Cx) (f : SForm)
  /-- Scalar FP32 square root. (R230) -/
  | fsqrt (c : Cx) (f : SForm)
  /-- Scalar FP32 minimum with the stated NaN rule. (R230) -/
  | fmin (c : Cx) (f : SForm)
  /-- Scalar FP32 maximum with the NaN rule of fmin. (R230) -/
  | fmax (c : Cx) (f : SForm)
  /-- Converts a signed 64-bit integer to FP32. (R230) -/
  | fcvtSI (c : Cx) (f : SForm)
  /-- Converts FP32 to signed 64-bit, truncated and saturated. (R230) -/
  | fcvtIS (c : Cx) (f : SForm)
  /-- Sets 1 if the FP32 operands are equal. (R230) -/
  | feq (c : Cx) (f : SForm)
  /-- Sets 1 if x < y; a NaN operand sets nv. (R230) -/
  | flt (c : Cx) (f : SForm)
  /-- Sets 1 if x ≤ y; a NaN operand sets nv. (R230) -/
  | fle (c : Cx) (f : SForm)
  /-- Reads the arithmetic status word into a scalar. (R231) -/
  | astatRd (c : Cx) (f : IForm)
  /-- Clears the astat flags named in the immediate. (R231) -/
  | astatClr (c : Cx) (f : IForm)
  /-- Seeds the stochastic-rounding generator, zero giving state 1. (R231) -/
  | srseed (c : Cx) (f : IForm)
  /-- Reads the generator state into a scalar. (R231) -/
  | srstateRd (c : Cx) (f : IForm)
  /-- Reads die-local time, journaled as kind 0x8. (R231) -/
  | timeRd (c : Cx) (f : IForm)
  /-- Per-lane FP32 vector addition. (R233) -/
  | vadd (c : Cx) (f : SForm)
  /-- Per-lane FP32 vector subtraction. (R233) -/
  | vsub (c : Cx) (f : SForm)
  /-- Per-lane FP32 vector multiplication. (R233) -/
  | vmul (c : Cx) (f : SForm)
  /-- Per-lane fused multiply-add. (R233) -/
  | vfma (c : Cx) (f : SForm)
  /-- Per-lane fused multiply-subtract. (R233) -/
  | vfms (c : Cx) (f : SForm)
  /-- Per-lane division; a zero divisor sets dz. (R233) -/
  | vdiv (c : Cx) (f : SForm)
  /-- Per-lane square root. (R233) -/
  | vsqrt (c : Cx) (f : SForm)
  /-- Per-lane fixed-function reciprocal within 1 ulp. (R237) -/
  | vrcp (c : Cx) (f : SForm)
  /-- Per-lane fixed-function reciprocal square root. (R237) -/
  | vrsqrt (c : Cx) (f : SForm)
  /-- Per-lane minimum with the NaN rule of fmin. (R233) -/
  | vmin (c : Cx) (f : SForm)
  /-- Per-lane maximum with the NaN rule of fmin. (R233) -/
  | vmax (c : Cx) (f : SForm)
  /-- Clears bit 31 of each lane. (R233) -/
  | vabs (c : Cx) (f : SForm)
  /-- Inverts bit 31 of each lane. (R233) -/
  | vneg (c : Cx) (f : SForm)
  /-- Copies a vector register lane by lane. (R233) -/
  | vmov (c : Cx) (f : SForm)
  /-- Broadcasts a scalar to every true lane. (R233) -/
  | vbcast (c : Cx) (f : SForm)
  /-- Selects per lane between two vectors by a predicate. (R233) -/
  | vsel (c : Cx) (f : SForm)
  /-- Extracts one lane into a scalar. (R233) -/
  | vext (c : Cx) (f : SForm)
  /-- Inserts a scalar into one lane. (R233) -/
  | vins (c : Cx) (f : SForm)
  /-- Sums each lane group by the fixed pairwise tree. (R235) -/
  | vrsum (c : Cx) (f : SForm)
  /-- Maximum of each lane group by the fixed tree. (R235) -/
  | vrmax (c : Cx) (f : SForm)
  /-- Minimum of each lane group by the fixed tree. (R235) -/
  | vrmin (c : Cx) (f : SForm)
  /-- Sum of rounded squares of each lane group by the tree. (R235) -/
  | vrsumsq (c : Cx) (f : SForm)
  /-- Per-lane 2^x as a fixed function. (R236) -/
  | vexp2 (c : Cx) (f : SForm)
  /-- Per-lane log2 x as a fixed function. (R236) -/
  | vlog2 (c : Cx) (f : SForm)
  /-- Per-lane e^x as a fixed function. (R236) -/
  | vexp (c : Cx) (f : SForm)
  /-- Per-lane ln x as a fixed function. (R236) -/
  | vlog (c : Cx) (f : SForm)
  /-- Per-lane tanh as a fixed function. (R236) -/
  | vtanh (c : Cx) (f : SForm)
  /-- Per-lane logistic sigmoid as a fixed function. (R236) -/
  | vsigm (c : Cx) (f : SForm)
  /-- Per-lane SiLU as a fixed function. (R236) -/
  | vsilu (c : Cx) (f : SForm)
  /-- Per-lane GELU as a fixed function. (R236) -/
  | vgelu (c : Cx) (f : SForm)
  /-- Per-lane sine for |x| ≤ 2^16. (R236) -/
  | vsin (c : Cx) (f : SForm)
  /-- Per-lane cosine for |x| ≤ 2^16. (R236) -/
  | vcos (c : Cx) (f : SForm)
  /-- Narrows 512 FP32 lanes into a packed format with scales and check values. (R239) -/
  | cvtN (c : Cx) (f : SForm)
  /-- Widens a packed form into 512 FP32 lanes exactly. (R239) -/
  | cvtW (c : Cx) (f : SForm)
  /-- Sets predicate lanes where the vectors are equal. (R243) -/
  | vcmpEq (c : Cx) (f : SForm)
  /-- Sets predicate lanes where x < y. (R243) -/
  | vcmpLt (c : Cx) (f : SForm)
  /-- Sets predicate lanes where x ≤ y. (R243) -/
  | vcmpLe (c : Cx) (f : SForm)
  /-- Sets predicate lanes where either operand is NaN. (R243) -/
  | vcmpUn (c : Cx) (f : SForm)
  /-- Predicate and. (R243) -/
  | pand (c : Cx) (f : SForm)
  /-- Predicate or. (R243) -/
  | por (c : Cx) (f : SForm)
  /-- Predicate exclusive-or. (R243) -/
  | pxor (c : Cx) (f : SForm)
  /-- Predicate not. (R243) -/
  | pnot (c : Cx) (f : SForm)
  /-- Sets the lanes below an unsigned scalar count. (R243) -/
  | pfirst (c : Cx) (f : SForm)
  /-- Scalar load, zero-extended. (R245) -/
  | ld (c : Cx) (f : MForm)
  /-- Scalar load, sign-extended. (R245) -/
  | lds (c : Cx) (f : MForm)
  /-- Scalar store of the low bytes of s[d]. (R245) -/
  | st (c : Cx) (f : MForm)
  /-- Loads 2 KiB into a vector register. (R246) -/
  | vld (c : Cx) (f : MForm)
  /-- Stores a vector register as 2 KiB. (R246) -/
  | vst (c : Cx) (f : MForm)
  /-- Loads packed elements into the low lanes. (R246) -/
  | vldP (c : Cx) (f : MForm)
  /-- Stores the packed low lanes. (R246) -/
  | vstP (c : Cx) (f : MForm)
  /-- Loads 16 scale bytes into lanes 384–387. (R246) -/
  | vldS (c : Cx) (f : MForm)
  /-- Stores lanes 384–387 as 16 scale bytes. (R246) -/
  | vstS (c : Cx) (f : MForm)
  /-- Stores the check values in lanes 388–391. (R246) -/
  | vstC (c : Cx) (f : MForm)
  /-- Reads the current copies of four accumulator rows. (R247) -/
  | vldAcc (c : Cx) (f : MForm)
  /-- Writes four accumulator rows under the row-map rules. (R247) -/
  | vstAcc (c : Cx) (f : MForm)
  /-- Volatile load at the point of coherence, journaled as kind 0x2. (R248) -/
  | ldV (c : Cx) (f : MForm)
  /-- Atomic add at the line's home, journaled. (R248) -/
  | amoAdd (c : Cx) (f : MForm)
  /-- Atomic and at the home. (R248) -/
  | amoAnd (c : Cx) (f : MForm)
  /-- Atomic or at the home. (R248) -/
  | amoOr (c : Cx) (f : MForm)
  /-- Atomic exclusive-or at the home. (R248) -/
  | amoXor (c : Cx) (f : MForm)
  /-- Atomic signed minimum at the home. (R248) -/
  | amoMin (c : Cx) (f : MForm)
  /-- Atomic signed maximum at the home. (R248) -/
  | amoMax (c : Cx) (f : MForm)
  /-- Atomic unsigned minimum at the home. (R248) -/
  | amoMinu (c : Cx) (f : MForm)
  /-- Atomic unsigned maximum at the home. (R248) -/
  | amoMaxu (c : Cx) (f : MForm)
  /-- Atomic swap at the home. (R248) -/
  | amoSwap (c : Cx) (f : MForm)
  /-- Atomic compare-and-swap with an even register pair. (R249) -/
  | amoCas (c : Cx) (f : MForm)
  /-- Block copy into the scratchpad as a fill of a staging slot. (R251) -/
  | bcpIn (c : Cx) (f : MForm)
  /-- Block copy out of the scratchpad to memory. (R252) -/
  | bcpOut (c : Cx) (f : MForm)
  /-- Prefetches lines into the operand cache. (R253) -/
  | pfOc (c : Cx) (f : MForm)
  /-- Prefetches lines into the memory-side cache. (R253) -/
  | pfMsc (c : Cx) (f : MForm)
  /-- Loads a 48-byte tile descriptor with the checks of R183. (R254) -/
  | tld (c : Cx) (f : MForm)
  /-- Stores a tile descriptor to memory. (R254) -/
  | tst (c : Cx) (f : MForm)
  /-- Load fence; at chip or system scope it empties the operand cache. (R256) -/
  | fenceLd (c : Cx) (f : IForm)
  /-- Store fence waiting for older writes to be accepted at the scope. (R257) -/
  | fenceSt (c : Cx) (f : IForm)
  /-- Full fence ordering loads and writes at the scope. (R257) -/
  | fenceAll (c : Cx) (f : IForm)
  /-- Stores a flag word through to the point of coherence. (R258) -/
  | flagSet (c : Cx) (f : MForm)
  /-- Stalls its context until a word meets a condition, journaled as kind 0x3. (R260) -/
  | wait (c : Cx) (f : MForm)
  /-- Sends one arrival to the collective engine of a barrier line. (R258) -/
  | barArrive (c : Cx) (f : MForm)
  /-- Branches if equal. (R261) -/
  | beq (c : Cx) (f : BForm)
  /-- Branches if not equal. (R261) -/
  | bne (c : Cx) (f : BForm)
  /-- Branches if less, signed. (R261) -/
  | blt (c : Cx) (f : BForm)
  /-- Branches if greater or equal, signed. (R261) -/
  | bge (c : Cx) (f : BForm)
  /-- Branches if less, unsigned. (R261) -/
  | bltu (c : Cx) (f : BForm)
  /-- Branches if greater or equal, unsigned. (R261) -/
  | bgeu (c : Cx) (f : BForm)
  /-- Jumps and links the return address. (R261) -/
  | jal (c : Cx) (f : BForm)
  /-- Jumps to the address in a scalar register. (R261) -/
  | jr (c : Cx) (f : BForm)
  /-- Raises the BREAK exception with a code. (R261) -/
  | brk (c : Cx) (f : BForm)
  /-- Pushes a loop level, or skips the body for a zero count. (R262) -/
  | loop (c : Cx) (f : BForm)
  /-- Leaves the innermost loop and pops its level. (R262) -/
  | lbreak (c : Cx) (f : BForm)
  /-- Starts a commit point that waits for passes, stores and own fills to drain. (R204) -/
  | commit (c : Cx) (f : IForm)
  /-- Writes the architectural state into the non-current committed copy once the commit's wait ends. (R205) -/
  | commitCopyWrite (c : Cx)
  /-- Scratchpad domain writes the new epoch, commits accumulator rows and resets the journal. (R209) -/
  | commitFinalize (c : Cx)
  /-- Commits with an empty mask, writes the ended record and ends the stream. (R263) -/
  | halt (c : Cx) (f : IForm)
  /-- Checks a chain descriptor against its budgets and marks it loaded. (R286) -/
  | chainLd (c : Cx) (f : TForm)
  /-- Accepts the final row correction of a chain as background work. (R312) -/
  | chainRowfix (c : Cx) (f : TForm)
  /-- Clears a chain's binding, loaded mark and rows_final. (R291) -/
  | chainDrop (c : Cx) (f : TForm)
  /-- Starts loading a weight tile into the shadow copy. (R266) -/
  | mmLdwS (c : Cx) (f : TForm)
  /-- Starts loading a weight tile into the live copy by the moving front. (R266) -/
  | mmLdwF (c : Cx) (f : TForm)
  /-- Issues a matrix pass of an activation tile against the live weights. (R269) -/
  | mmPass (c : Cx) (f : TForm)
  /-- Leaves one swap pending for the context. (R268) -/
  | mmSwap (c : Cx) (f : TForm)
  /-- Converts four accumulator tiles into an output tile. (R274) -/
  | mmDrain (c : Cx) (f : TForm)
  /-- Defines a staging slot's range and makes it EMPTY. (R275) -/
  | slotDef (c : Cx) (f : TForm)
  /-- Marks a staging slot RESIDENT. (R275) -/
  | slotMark (c : Cx) (f : TForm)
  /-- Releases a staging slot to EMPTY. (R275) -/
  | slotRel (c : Cx) (f : TForm)
  /-- Sends a tile to a logical core on a vertex, journaled as kind 0x5. (R276) -/
  | fctSend (c : Cx) (f : TForm)
  /-- Posts a receive into a staging slot, journaled as kind 0x6. (R277) -/
  | fctRecv (c : Cx) (f : TForm)
  /-- An instruction with an unlisted major or minor opcode or a bad field raises ILLEGAL. (R188) -/
  | illegalInstruction (c : Cx) (w : W64)
  /-- Writes a stream event record, increments the written count and sends the MSI, once the ring has room. (R174) -/
  | eventRecordWrite (lc : LC)
  /-- Stream-queue launch: reads and checks the descriptor and starts a stream. (R761) -/
  | launch (lc : LC) (desc : PAddr)
  /-- Restarts a STOPPED stream at its faulting instruction. (R198) -/
  | resume (lc : LC) (stream : W32)
  /-- Rolls a STOPPED stream back to its last commit point. (R198) -/
  | restart (lc : LC) (stream : W32)
  /-- Removes a stream at once, or at its next commit if running. (R172) -/
  | endStream (lc : LC) (stream : W32)
  /-- One handshake-bounded advance of a core's pipeline, issue unit and vector engine. (R140) -/
  | stepBoundary (lc : LC)
  /-- The last cell row of a shadow load is written, with its checksum column. (R77) -/
  | shadowLoadDone (lc : LC)
  /-- A moving-front load writes cell row 127 and the next pass may enter. (R85) -/
  | frontLoadDone (lc : LC)
  /-- A pending swap exchanges live and shadow weights at a step boundary. (R78) -/
  | weightSwap (lc : LC)
  /-- Reloads a context's claimed weights by the front once the arrays have accepted all rows. (R83) -/
  | weightReacquire (c : Cx)
  /-- Runs a chain prologue on four rows and writes the activation tile. (R297) -/
  | prologueRun (c : Cx)
  /-- Runs a chain epilogue on a released chain tile and writes its output. (R295) -/
  | epilogueRun (c : Cx)
  /-- Applies the final row correction once the chain's passes have released their rows, then sets rows_final. (R312) -/
  | rowfixRun (c : Cx)
  /-- Sends a completed column tile of a chain's output under R276. (R306) -/
  | chainSend (c : Cx)
  /-- A fill ends and its slot becomes RESIDENT or FAILED, journaled as kind 0x9. (R90) -/
  | slotFillComplete (c : Cx) (slot : SlotIx) (tile : FacetTile)
  /-- An operand-cache miss line arrives and the scalar issue unit resumes. (R114) -/
  | ocLineFill (lc : LC)
  /-- Each 1 ns tick adds rate to the pacer accumulator and gives tokens to core buckets. (R148) -/
  | pacerTick (d : Die)
  /-- A droop detector triggers and gates issue on every core of the die. (R145) -/
  | droopTrigger (d : CDie)
  /-- A droop gate ends after gate_ns or after 2 µs without a break. (R146) -/
  | droopGateEnd (d : CDie)
  /-- The 1 µs interval after a 2 µs gate ends and triggers act again. (R146) -/
  | droopHoldoffEnd (d : CDie)
  /-- A die's time PLL loses lock and the counter runs from the internal oscillator. (R162) -/
  | timePllUnlock (d : Die)
  /-- Firmware re-measures die time offsets every 600 s and publishes changes. (R164) -/
  | timeOffsetMeasure (d : Die) (t1 t2 t3 t4 : W64)
  /-- Copies a logical core's 64 counters into the readable copy at one step boundary. (R158) -/
  | snap (lc : LC)
  /-- Reloads the live weights by the moving front before the next pass. (R84) -/
  | frontReload (lc : LC)
  /-- Flips one live weight bit of array A0 at the next pass. (R135) -/
  | injectCell (lc : LC)
  /-- Corrupts one recomputed check value in the next checked pass. (R135) -/
  | injectOpchk (lc : LC)
  /-- Invalidates every operand-cache line, blocking issue until done. (R337) -/
  | ocInvalidate (lc : LC)
  /-- Reads and corrects every scratchpad word once per scrub period. (R121) -/
  | scratchpadScrub (lc : LC)
  /-- Sends a store-buffer entry to its home for acceptance. (R333) -/
  | storeBufferSend (lc : LC) (ix : Fin 64)
  /-- Re-reads a wait location at least every 1 µs or when the home reports a write. (R260) -/
  | waitReread (c : Cx)
  /-- Home serves a read of the current line without a tracked copy. (R360) -/
  | rdOnce (r : Requester) (vertex : Vertex) (a : LAddr) (h : Hint)
  /-- Home serves a read that keeps a clean tracked copy. (R360) -/
  | rdShared (r : Requester) (a : LAddr) (h : Hint)
  /-- Home serves a read that keeps the only writable copy. (R360) -/
  | rdUnique (r : Requester) (a : LAddr) (h : Hint)
  /-- Home merges up to 128 bytes under a byte mask. (R360) -/
  | wrPart (r : Requester) (vertex : Vertex) (a : LAddr) (h : Hint) (mask : BitVec 128) (data : List W8)
  /-- Home replaces a whole line, clearing poison. (R360) -/
  | wrLine (r : Requester) (vertex : Vertex) (a : LAddr) (h : Hint) (data : List W8)
  /-- Home performs an indivisible read-modify-write of one word. (R328) -/
  | atomic (r : Requester) (vertex : Vertex) (a : LAddr) (op : AmoOp) (dbl : Bool) (v : W64)
  /-- A host cache returns a copy to the home. (R360) -/
  | evict (r : Requester) (a : LAddr) (data : Option (List W8))
  /-- A holder receives a recall to invalidate or share its copy. (R360) -/
  | recall (a : LAddr) (holder : Requester)
  /-- A holder's recall response reaches the home. (R360) -/
  | recallResponse (a : LAddr) (holder : Requester) (data : Option (List W8))
  /-- A requester's acknowledgement releases a busy line at the home. (R362) -/
  | acknowledgement (a : LAddr) (r : Requester)
  /-- A home's completion, data or old value reaches its requester. (R360) -/
  | homeResponse (a : LAddr)
  /-- A participant owing a response for 200 µs makes the home poison the line. (R366) -/
  | homeTimeout (a : LAddr)
  /-- A remote write not accepted within 400 µs fails with ADDR. (R370) -/
  | remoteWriteTimeout (lc : LC) (ix : Fin 64)
  /-- A walker finishes a walk, installing a translation or opening or joining a fault record. (R379) -/
  | pageWalk (r : Requester)
  /-- A fault record is written to the event queue 1 µs after opening, once there is room. (R392) -/
  | faultRecordPost (b : BDie)
  /-- Ends a pending fault record; every requester walks again. (R395) -/
  | resolveRetry (id : W32)
  /-- Ends a pending fault record; every requester fails. (R395) -/
  | resolveFail (id : W32)
  /-- Starts removing matching translations from every TLB and walk cache. (R386) -/
  | invalidation (cmd : W64)
  /-- An invalidation completes once affected accesses are performed and busy clears. (R386) -/
  | invalidationComplete
  /-- Writes cached access-counter words to the table. (R407) -/
  | counterFlush
  /-- Sweeps the counter table halving each word. (R407) -/
  | counterHalve
  /-- Sweeps the counter table zeroing each word. (R407) -/
  | counterClear
  /-- Adds regions to a group's tier usage, or refuses over quota. (R410) -/
  | tierCharge (g : Group) (tier : BitVec 2) (regions : BitVec 21)
  /-- Subtracts regions from a group's tier usage, or refuses below zero. (R410) -/
  | tierRelease (g : Group) (tier : BitVec 2) (regions : BitVec 21)
  /-- A lower-tier request exceeds its late limit and takes status LATE. (R413) -/
  | tierLateTimeout (a : LAddr)
  /-- The home retries a stalled privileged request every 10 µs. (R414) -/
  | tierStallRetry (a : LAddr)
  /-- A stack reports its temperature every 32 µs, setting the refresh band or trip. (R425) -/
  | stackTemperatureReport (s : Stack) (temp : W8)
  /-- A read burst of a Jahel channel is checked, retried or reconstructed. (R432) -/
  | t1Read (a : LAddr) (o : BurstOutcome)
  /-- A stripe-buffer entry retires after 2 µs idle or for room, writing data and parity. (R429) -/
  | stripeRetire (s : Stack) (ix : Fin 256)
  /-- A rebuild writes the next position of the failed channel into the spare. (R436) -/
  | rebuildStep (s : Stack)
  /-- Reads and corrects every stripe of a stack once per scrub period. (R439) -/
  | patrolScrub (s : Stack) (bad : List (LAddr × BurstOutcome))
  /-- Firmware declares a named Jahel channel failed. (R434) -/
  | jsFailGo (s : Stack) (chan : W8)
  /-- Writes back every dirty memory-side cache line of the die's slices. (R452) -/
  | mscFlush (b : BDie)
  /-- Flushes and then invalidates every line of the die's slices. (R452) -/
  | mscInvalidate (b : BDie)
  /-- Firmware replaces a way with three corrections in 24 h by a spare or disables it. (R455) -/
  | mscWayReplace (h : Slice) (way : Fin 26)
  /-- Reads all of T2 once in 24 hours. (R465) -/
  | ddrPatrolScrub (bad : List (LAddr × Bool))
  /-- A hart stops on an uncorrectable error and a spare takes its hart ID. (R461) -/
  | hartUncorrectableError (h : HartIx) (inCache : Bool)
  /-- A Type-3 expander link is lost and T3 requests carry LINK_DOWN. (R496) -/
  | expanderLinkLost (p : Port)
  /-- A request from a device below a root port is translated and checked by the IOMMU. (R474) -/
  | inboundRequest (p : Port) (q : InboundReq)
  /-- A write of count to CE_DB makes the engine fetch descriptors. (R484) -/
  | doorbell (e : CopyEng) (count : W16)
  /-- A fetched descriptor's tag is checked against its count. (R484) -/
  | descriptorFetch (e : CopyEng)
  /-- A stale descriptor is fetched again 1 µs later, up to 16 times, then STALE_CMD. (R484) -/
  | descriptorRefetch (e : CopyEng)
  /-- A copy descriptor starts moving its segments. (R487) -/
  | copy (e : CopyEng) (count : W16)
  /-- A descriptor decrypts AES-GCM chunks into local memory. (R493) -/
  | copyAndDecrypt (e : CopyEng) (count : W16)
  /-- A descriptor fills its destination with an 8-byte pattern. (R481) -/
  | fillPattern (e : CopyEng) (count : W16)
  /-- After all writes settle, writes the completion record, counts it and sends the MSI. (R488) -/
  | descriptorComplete (e : CopyEng)
  /-- Aborts descriptors in flight and resets the ring counts. (R495) -/
  | ringReset (e : CopyEng)
  /-- Lines not flushed 1 ms into a host core-complex reset are poisoned. (R496) -/
  | hostFlushTimeout
  /-- The endpoint link retrains within 2 ms and held posted writes are replayed. (R496) -/
  | epLinkRetrain
  /-- The endpoint link is down beyond 2 ms or reset; its engines stop and descriptors end LINK_LOST. (R496) -/
  | epLinkDown
  /-- PERST_N resets the endpoint port's link and function. (R667) -/
  | perstNAssert
  /-- A Facet flit is received, checked and discarded go-back-N on error. (R501) -/
  | flitReceive (k : Link) (seq : W32) (ok : Bool)
  /-- A sender resends a Facet link from the first discarded flit. (R501) -/
  | resendRequest (k : Link) (seq : W32)
  /-- A lane without signal or lock for 10 µs is declared failed. (R502) -/
  | laneSignalLoss (k : Link) (l : Lane)
  /-- A 1 s window with too many uncorrectable codewords or too high SER fails a lane. (R502) -/
  | laneErrorWindow (k : Link) (l : Lane) (uncorr : Nat) (symErr symTotal : Nat)
  /-- Firmware retries a failed lane every 60 s. (R502) -/
  | laneRetrainAttempt (k : Link) (l : Lane) (trained : Bool)
  /-- A retrained lane that runs 1 s clean returns to service. (R502) -/
  | laneReturn (k : Link) (l : Lane)
  /-- Firmware declares the named lanes failed. (R502) -/
  | laneFail (k : Link) (lanes : BitVec 2)
  /-- Retrains every failed lane of a link now. (R502) -/
  | retrain (k : Link) (trained : BitVec 2)
  /-- A feed below rating switches every transmit direction to reach mode. (R505) -/
  | laserFeedLow (unit : Fin 8) (moduleB : Bool)
  /-- Both feeds in rating switch transmit directions back to full mode. (R505) -/
  | laserFeedRestored (unit : Fin 8) (moduleB : Bool)
  /-- Link training exchanges vertex IDs and marks miscabled links failed. (R511) -/
  | linkTrainingComplete (k : Link) (lanes : BitVec 2) (peer : Vertex) (farLink : Nat) (reachRx : Bool)
  /-- New routes and detours apply within 20 µs of a link state change. (R516) -/
  | routeUpdate
  /-- A packet advances one hop once it holds a credit of its class and channel. (R518) -/
  | packetHop (k : Link) (cls : Fin 4) (vc : Fin 2)
  /-- A tile header matches a posted receive or is held in the arrival list. (R523) -/
  | tileHeaderArrival (hdr : TileHeader)
  /-- The sending port reads the source tile and sends it. (R522) -/
  | clearToSend (lc : LC) (ix : Nat)
  /-- A header held longer than match_ms fails with FACET_FAIL cause 0x6. (R525) -/
  | headerHoldTimeout (lc : LC) (ix : Fin 256)
  /-- A write to FCT_ARRIVE counts one arrival at a collective line. (R529) -/
  | hartArrival (b : BDie) (line : LAddr)
  /-- An arrival is counted and a round starts when arrived reaches expected. (R530) -/
  | collectiveArrival (line : LAddr)
  /-- A barrier round runs on the tree. (R532) -/
  | barrier (line : LAddr)
  /-- An all-reduce round runs as a reduce-scatter then an all-gather. (R533) -/
  | allReduce (line : LAddr)
  /-- A reduce-scatter round crosses the dimensions in fixed order. (R533) -/
  | reduceScatter (line : LAddr)
  /-- An all-gather round sends parts unchanged in reverse order. (R533) -/
  | allGather (line : LAddr)
  /-- A broadcast round sends from the root. (R532) -/
  | broadcast (line : LAddr)
  /-- A snapshot round runs a barrier up phase, then a marker down the tree. (R536) -/
  | snapshot (line : LAddr)
  /-- A member receives a partial and combines it in coordinate order. (R532) -/
  | collectivePartialReceive (line : LAddr) (p : Partial)
  /-- A received block is CRC- and digest-checked, resent or rechecked on failure. (R539) -/
  | digestBlockReceive (line : LAddr) (b : DigestBlock)
  /-- After all result writes are accepted, writes status and advances gen. (R531) -/
  | roundComplete (line : LAddr)
  /-- A member samples its state, writes the record and forwards the marker. (R536) -/
  | snapshotMarker (line : LAddr)
  /-- A TC0 notice of a failing contribution writes an error record. (R540) -/
  | contributionFailNotice (from_ : Vertex) (step : BitVec 4) (block : W32)
  /-- A received lattice reset is forwarded and causes a warm reset or is only recorded. (R679) -/
  | latticeResetReceive (dim : Fin 3) (seq : W16)
  /-- A Chord flit is received and CRC-checked, with go-back resend on error. (R544) -/
  | chordFlitReceive (d : Die) (conn : Fin 6) (seq : W32) (ok : Bool)
  /-- A resent Chord flit is compared and the retry charged to a wire. (R545) -/
  | chordResend (d : Die) (conn : Fin 6) (grp : Fin 48) (diff : List Nat)
  /-- Firmware declares a Chord wire failed. (R546) -/
  | chdFailGo (d : Die) (conn : Fin 6) (wire : BitVec 11)
  /-- A wire group has shifted onto its spare and the connection resumes. (R546) -/
  | chordRemapComplete (d : Die) (conn : Fin 6)
  /-- A core without a step for 1 µs while busy is probed. (R564) -/
  | heartbeatTimeout (lc : LC)
  /-- A core that does not answer its status probe within 0.6 µs is retired. (R564) -/
  | probeTimeout (lc : LC)
  /-- The core-logic supply monitor reports the domain out of regulation. (R564) -/
  | supplyOutOfRegulation (d : CDie) (m : MC)
  /-- A core-logic parity error is handled as an operand-check failure. (R563) -/
  | parityError (c : Cx)
  /-- The spare reaches Q0 and the logical core is routed to it. (R566) -/
  | spareWakeComplete (lc : LC)
  /-- After any finalization, restores a context from its current copy and journal and resumes. (R214) -/
  | replayRestore (c : Cx)
  /-- Restored streams reach the detection point and the core returns to the pacer. (R567) -/
  | replayCatchUp (lc : LC)
  /-- Primary and check stream reach the same point and their digests are compared. (R587) -/
  | checkDigestCompare (c : Cx) (check : W64)
  /-- Firmware runs a screening program on a physical core within its budget. (R590) -/
  | screeningRun (d : CDie) (m : MC)
  /-- A screening digest is compared with the expected one. (R592) -/
  | screeningResult (d : CDie) (m : MC) (digest : W64)
  /-- Moves each stream of a failed core to a spare at its next commit point. (R592) -/
  | plannedMigration (c : Cx)
  /-- HD writes an error record, counts it and sends the MSI, or holds it. (R596) -/
  | errorRecordWrite
  /-- Appends a ledger block at 64 pending entries or 10 s, compacting if full. (R560) -/
  | ledgerAppend
  /-- An idle unit's dwell expires and it starts entry into a lower state. (R602) -/
  | quiescenceEntry (u : PUnit)
  /-- A unit's entry reaches the lower state after its prepare and switch phases. (R611) -/
  | entryComplete (u : PUnit)
  /-- A wake event starts a unit's return to Q0. (R605) -/
  | unitWake (u : PUnit)
  /-- A unit reaches Q0 and waiting requests proceed. (R612) -/
  | wakeComplete (u : PUnit)
  /-- A logical core that does not reach Q0 in twice its wake time is retired. (R607) -/
  | wakeTimeout (lc : LC)
  /-- Writing en = 1 returns a unit to Q0. (R609) -/
  | unitEnable (u : PUnit)
  /-- Writing en = 0 sends a unit to its deepest state. (R609) -/
  | unitDisable (u : PUnit)
  /-- A new latency tolerance may deepen or wake the unit. (R604) -/
  | tolWrite (u : PUnit) (tol : W32)
  /-- Every 10 µs firmware adjusts supplies and gap rates against the effective cap. (R615) -/
  | capEvaluation (power mean1ms : BitVec 13)
  /-- Every 1 ms a member sends a power-credit message to its partner. (R623) -/
  | powerCreditExchange
  /-- A received power-credit message decides a donation or refusal. (R626) -/
  | powerCreditMessage (m : CreditMsg)
  /-- The receiver raises its effective cap and acknowledges the credit. (R627) -/
  | creditArrival (from_ : Vertex) (watts : W8)
  /-- Every 1 s the group sums effective caps and divides any shortfall. (R628) -/
  | reconciliation (sum budget members : W32) (lowest : Bool)
  /-- Every 20 µs a die measures Tj and starts or ends throttling. (R629) -/
  | thermalSample (d : Die) (tj : W16)
  /-- A die at 110 °C triggers the hardware stop sequence. (R632) -/
  | thermalTrip (d : Die)
  /-- COOLANT_FAIL_N recognised low for 2 µs starts the stop sequence. (R736) -/
  | coolantFail (lowNs : Nat)
  /-- Compute and Jahel regulator enables are released within 1 ms. (R633) -/
  | stopRailRelease
  /-- Harts halt, the LLC writes back T2 and DDR enters self-refresh. (R633) -/
  | stopHostHalt
  /-- Extends measurement register M4–M7 with 64 bytes. (R644) -/
  | extendMeasurement (index : BitVec 3)
  /-- Digests a physical range and appends it to the program log. (R646) -/
  | measureProgram
  /-- Signs and writes an attestation report over the nonce. (R647) -/
  | issueReport
  /-- Decapsulates and checks a key blob into an empty key slot. (R650) -/
  | loadBlob (slot : Fin 64)
  /-- Clears a key slot once descriptors that read it complete. (R653) -/
  | clearSlot (slot : Fin 64)
  /-- PKG_RESET_N low for 10 µs resets the package and releases the enables. (R738) -/
  | pkgResetNAssert (lowNs : Nat)
  /-- Straps are sampled and start-up begins. (R665) -/
  | pkgResetNRelease (straps : BitVec 16)
  /-- A rail misses or loses power-good; all enables are released. (R663) -/
  | railFault (rail : Fin 20)
  /-- REFCLK is lost in service; counters continue under R162. (R742) -/
  | refclkLoss
  /-- Checks REFCLK and straps and verifies the first stage. (R664) -/
  | bootRomStage (b : BootRomInput)
  /-- Counts the cold start, reconstructs identity and chooses a bank. (R673) -/
  | firstStage (b : FirstStageInput)
  /-- Reads and verifies the defect ledger. (R559) -/
  | ledgerRead
  /-- Brings up rail steps 4 to 7 in order. (R660) -/
  | railSequence (good : Bool)
  /-- Trains Chord and applies wire remaps from the ledger. (R671) -/
  | chordTraining
  /-- Built-in self-test of every unit at cold start. (R549) -/
  | selfTest (fails : List LedgerEntry)
  /-- Assigns physical cores to logical cores and spares. (R552) -/
  | coreAssignment
  /-- Trains the stacks, loads spare maps and zeroes T1. (R671) -/
  | jahelTraining
  /-- Checks DDR population and trains the channels. (R463) -/
  | ddrTraining (dimms : List (Option Dimm)) (trained : Bool)
  /-- Trains Facet links until all are up or 60 s pass. (R675) -/
  | facetTraining
  /-- Measures offsets, loads host firmware, starts harts and reports ready. (R676) -/
  | hostStart (offs : List (W64 × W64 × W64 × W64)) (hostDigest : BitVec 512)
  /-- Discards everything but flash and PMU_TRIP and runs start-up in full. (R677) -/
  | packageColdReset (byPin : Bool)
  /-- Resets the package keeping T2, repairs and ledger, and runs stages 0x7–0xA. (R678) -/
  | packageWarmReset (byLattice : Bool)
  /-- Resets the harts, flushing their caches for up to 1 ms. (R496) -/
  | hostCoreComplexReset
  /-- Ends a logical core's streams and discards its volatile state. (R680) -/
  | perCoreReset (lc : LC)
  /-- Resets one stack, cache bank, DDR channel, quad, LLC slice or link. (R682) -/
  | perDomainReset (target : BitVec 9)
  /-- Sends a lattice reset and performs a warm reset locally. (R679) -/
  | latticeReset
  /-- Starts a live switch by reading and verifying the inactive bank. (R684) -/
  | fwSwitch (img : FwImage)
  /-- After preparation, the new image takes the state record and extends M2. (R684) -/
  | handoff (pauseNs : W16)
  /-- Probation ends and the directory names the new bank. (R684) -/
  | probationEnd
  /-- Ends probation at once. (R684) -/
  | fwCommit
  /-- A 2 ms unrefreshed watchdog restarts the old image. (R686) -/
  | watchdogExpiry
  /-- Arms a monitor for its next window. (R693) -/
  | monitorArm (m : Mon)
  /-- Closes an open window at once and publishes with partial set. (R695) -/
  | monitorDisarm (m : Mon)
  /-- A monitor window opens at its start time. (R693) -/
  | monitorWindowOpen (m : Mon)
  /-- A sample enters the count, sum, extremes and histogram. (R691) -/
  | monitorSample (m : Mon) (src : W8) (v : W32) (late : Bool)
  /-- A window ends; results are published and seq rises. (R695) -/
  | monitorWindowClose (m : Mon)
  /-- Mailbox command returning BOOT_STATUS and ERR_STATUS. (R709) -/
  | mbStatus (p : MbPath)
  /-- Mailbox command removing and returning held error records. (R709) -/
  | readErrorRecords (p : MbPath) (arg : BitVec 24)
  /-- Mailbox command returning a monitor's published results. (R709) -/
  | readMonitor (p : MbPath) (arg : BitVec 24)
  /-- Mailbox command verifying and programming an image into a bank. (R710) -/
  | writeFirmwareImage (p : MbPath) (length : BitVec 24) (arg : BitVec 24)
  /-- Mailbox command starting a live bank switch. (R709) -/
  | switchFirmwareBank (p : MbPath)
  /-- Mailbox command delivering the first stage in recovery boot. (R709) -/
  | deliverFirstStage (p : MbPath) (length : BitVec 24)
  /-- Mailbox command verifying and loading a screening program. (R589) -/
  | loadScreeningProgram (p : MbPath) (length : BitVec 24)
  /-- Mailbox command returning the valid ledger blocks. (R709) -/
  | mbReadLedger (p : MbPath)
  /-- Mailbox command returning an attestation report over a nonce. (R709) -/
  | mbReport (p : MbPath)
  /-- Mailbox command loading a key blob into a slot. (R709) -/
  | loadKeyBlob (p : MbPath) (arg : BitVec 24)
  /-- Mailbox command returning the identity and attestation key certificates. (R709) -/
  | mbCertificates (p : MbPath)
  /-- Mailbox command storing the lattice configuration. (R674) -/
  | latticeConfiguration (p : MbPath)
  /-- Mailbox command announcing removal or return of a laser module. (R505) -/
  | laserService (p : MbPath) (arg : BitVec 24)
  /-- Mailbox command requesting a reset as BOOT_RESET does. (R709) -/
  | resetCommand (p : MbPath) (arg : BitVec 24)
  /-- Mailbox command returning the T1 base of the endpoint HDM window. (R709) -/
  | mbHdmRange (p : MbPath)
  /-- Mailbox command ending the current command with result 0x06. (R705) -/
  | mbAbort (p : MbPath)
  /-- Writes the next mailbox input word, or overruns. (R706) -/
  | mbDataWrite (p : MbPath) (w : W32)
  /-- Reads and consumes the next mailbox output word, or underruns. (R707) -/
  | mbDataRead (p : MbPath)
  /-- An owner idle for 1 s or losing its link ends the command. (R708) -/
  | mailboxTimeout
  /-- Assigns the I3C dynamic address from the static address. (R700) -/
  | setdasa (addr : BitVec 7)
  /-- Assigns an I3C dynamic address by enumeration. (R700) -/
  | entdaa (addr : BitVec 7)
  /-- Returns the target to SMBus operation. (R700) -/
  | rstdaa
  /-- TAP BYPASS instruction. (R703) -/
  | tapBypass
  /-- TAP IDCODE instruction. (R703) -/
  | tapIdcode
  /-- TAP SAMPLE/PRELOAD instruction. (R703) -/
  | tapSamplePreload
  /-- TAP EXTEST, effective only while PKG_RESET_N is asserted. (R703) -/
  | tapExtest
  /-- TAP EXTEST_PULSE, effective only in reset. (R703) -/
  | tapExtestPulse
  /-- TAP EXTEST_TRAIN, effective only in reset. (R703) -/
  | tapExtestTrain
  /-- TAP CLAMP, effective only in reset. (R703) -/
  | tapClamp
  /-- TAP HIGHZ, effective only in reset. (R703) -/
  | tapHighz
  /-- A read of an RC field returns and clears it. (R14) -/
  | rcFieldRead (g : Agent) (a : PAddr) (size : AccSize)
  /-- A write to a register without a row of its own acts by its field types. (R14) -/
  | registerWrite (g : Agent) (a : PAddr) (size : AccSize) (v : W64)
  /-- A T2 DDR channel or a T3 CXL device answers a request at its home, with data, poison or a status such as NO_DECODE or DEVICE_ERR. (R413) -/
  | lowerTierResponse (a : LAddr) (o : TierAnswer)
  /-- The Jahel logic layer reports a fault of a channel, which is then declared failed and rebuilt onto a spare. (R434) -/
  | channelFaultReport (s : Stack) (chan : W8)
  /-- Release of PERST_N on the endpoint quad makes its port ready for link training within 20 ms. (R739) -/
  | perstNRelease
  /-- A copy-engine read on PCIe gets no completion in time, so its segment fails with cause 0x16. (R489) -/
  | pcieCompletionTimeout (e : CopyEng) (count : W16) (seg : Fin 64)
  /-- A Facet transmit direction finishes switching between full and reach mode, up to 50 µs after the switch began, and its buffered traffic flows again. (R505) -/
  | modeSwitchComplete (k : Link)
  deriving DecidableEq, Repr

end Sys2Proof
end

