-- ==== Sys2Proof/Machine/State.lean ====
section
/-! DEFINITION. The state of the part: plain data, with every register, buffer, queue, mode and pin the manual gives it, and
the queue of the commands that are waiting. -/

namespace Sys2Proof.Machine

/-! ## Tables -/

/-- A table from keys to values; a key that is not listed holds the table's default. -/
abbrev Tbl (κ α : Type) := List (κ × α)

/-- The value a table holds at a key, `d` where none is listed. -/
def Tbl.get {κ α : Type} [DecidableEq κ] (d : α) : Tbl κ α → κ → α
  | [], _ => d
  | (k, v) :: t, j => if k = j then v else Tbl.get d t j

/-- The table with the value at a key replaced. -/
def Tbl.set {κ α : Type} [DecidableEq κ] : Tbl κ α → κ → α → Tbl κ α
  | [], j, x => [(j, x)]
  | (k, v) :: t, j, x => if k = j then (k, x) :: t else (k, v) :: Tbl.set t j x

/-! ## Contexts (R176) -/

/-- The exceptions of a context, by their codes (R194). -/
inductive Exc where
  | illegal | descInvalid | shape | format | align | access | addr | poison | notStaged | operandFail | weightOwner
  | operandCheck | chainReject | journalFull | replayDiverge | commitMask | loopDepth | tierError | facetFail | brk
  deriving DecidableEq, Repr

/-- The state of a context as `CORE_CTX_STATUS` shows it (R135): its code is the constructor's number. -/
inductive CtxSt where
  | idle | issuing | waiting | stopped
  deriving DecidableEq, Repr

/-- The causes of issue waits, in the order of their codes 0x1 to 0xA (R95). -/
inductive Wait where
  | droop | pace | front | ocmiss | act | chain | wgt | array | issue | sync
  deriving DecidableEq, Repr

/-- The states of a staging slot, in the order of their codes (R90, R757). -/
inductive SlotSt where
  | empty | filling | resident | failed
  deriving DecidableEq, Repr

/-- A staging slot entry (R757). -/
structure Slot where
  st : SlotSt := .empty
  status : W8 := 0
  base : W16 := 0
  len : W16 := 0
  deriving DecidableEq, Repr

/-- A tile descriptor: its six words (R181). -/
structure TileDesc where
  w0 : W64 := 0
  w1 : W64 := 0
  w2 : W64 := 0
  w3 : W64 := 0
  w4 : W64 := 0
  w5 : W64 := 0
  deriving DecidableEq, Repr

/-- A loop stack level (R757). -/
structure LoopLevel where
  count : W64
  start : W64
  last : W64
  deriving DecidableEq, Repr

/-- What a context's outstanding request at a home will do when its value returns (R248, R258). -/
inductive AwaitKind where
  | ldv | amo | wait | arrival
  deriving DecidableEq, Repr

/-- A request of a context that waits for its home's response (R248, R260). -/
structure Await where
  kind : AwaitKind
  d : BitVec 5
  cond : BitVec 4
  size : Nat
  line : PAddr
  off : Nat
  /-- The operation of an atomic, and its operand. -/
  op : AmoOp := .add
  val : W64 := 0
  /-- A request is on its way to the home. -/
  sent : Bool := true
  /-- The virtual address of the access. -/
  va : W64 := 0
  deriving DecidableEq, Repr

/-- A fill of a staging slot that the context itself has issued (R91, R204): a block copy of `len` bytes from virtual address
`src`, or the writes of a drain or a chain. -/
inductive FillSrc where
  | bcpIn (src : W64) (dst len : Nat) (h : Hint)
  | writes
  deriving DecidableEq, Repr

/-- A fill of the context's own: its slot and what fills it. -/
structure Fill where
  slot : BitVec 4
  src : FillSrc
  deriving DecidableEq, Repr

/-- The latched fields of a loaded chain (R282, R286): the descriptor's bytes and the words of its two programs. -/
structure ChainRt where
  off : Nat
  desc : List W8
  pro : List W64
  epi : List W64
  deriving DecidableEq, Repr

/-- The epilogue runs of one pass that are still to be done (R294, R295): column tile, accumulator base, rows of the pass,
the next chain tile, how many of the pass's rows have been released, and the journal entry of the pass's send (R306). -/
structure EpiJob where
  chain : Nat
  pc : W64
  tile : Nat
  base : Nat
  rows : Nat
  next : Nat
  released : Nat
  entry : Nat
  deriving DecidableEq, Repr

/-- A prologue under way (R296, R297): the chain, the activation tile it fills and the next run. -/
structure ProJob where
  chain : Nat
  act : TileDesc
  next : Nat
  deriving DecidableEq, Repr

/-- Why a context replays (R106, R214), and for R106 the pass and the scratchpad word concerned. -/
inductive ReplayWhy where
  | takeover | check (pc : W64) (word : Option Nat) | restart | swapIn
  deriving DecidableEq, Repr

/-- A commit under way (R204 to R209): its live mask, whether it ends the stream (R263), and how many journal entries of
kind 0x9 stood when the copy was written, none before that. -/
structure CommitJob where
  mask : W32
  halts : Bool
  entries : Option Nat
  deriving DecidableEq, Repr

/-- The checking of an interval under Bronze or Steel (R579 to R588): the bytes of the primary's digest, the runs made, and
the digests of the runs that disagreed. -/
structure CheckRun where
  log : List W8
  runs : Nat
  digests : List W64
  agreed : Bool
  deriving DecidableEq, Repr

/-- The state of one context: the architectural state of R176, its place in its stream, and what it waits for. -/
structure Context where
  /-- The stream that the context holds, by its stream_id (R169). -/
  stream : Option W32 := none
  st : CtxSt := .idle
  wait : Option Wait := none
  /-- R390: a translation fault has parked the context. -/
  parked : Bool := false
  pc : W64 := 0
  s : Tbl (BitVec 5) W64 := []
  a : Tbl (BitVec 4) W64 := []
  p : Tbl (BitVec 3) (List Bool) := []
  v : Tbl (BitVec 5) (List W32) := []
  t : Tbl (BitVec 3) TileDesc := []
  live : TileDesc := {}
  shadow : TileDesc := {}
  astat : W32 := 0
  srstate : W32 := 0
  /-- The loop stack, innermost level first (R262). -/
  loops : List LoopLevel := []
  slots : Tbl (BitVec 4) Slot := []
  /-- A swap is pending (R268). -/
  swap : Bool := false
  /-- A pending swap was cancelled and the next pass or swap has yet to report it (R268). -/
  swapLost : Bool := false
  /-- A pass waits for its claims to be loaded again (R83). -/
  reacq : Bool := false
  /-- Rows of the last pass on each accumulator base (R274; log entry 40). -/
  accRows : Tbl Nat Nat := []
  await : Option Await := none
  fills : List Fill := []
  /-- First failed write of a background instruction, with its exception and detail (R227). -/
  bgFail : Option (Exc × W64 × W64) := none
  /-- Identifiers of `bcp.out` instructions with writes outstanding (R252). -/
  bcpOuts : List Nat := []
  chains : List ChainRt := []
  epi : List EpiJob := []
  pro : Option ProJob := none
  /-- Offset of the chain whose `chain.rowfix` is pending (R312). -/
  rowfix : Option Nat := none
  /-- The correction has been computed, and its writes are under way. -/
  rowfixed : Bool := false
  /-- Completed column tiles of out_mode 0b11 still to be sent (R306): chain, tile, journal entry, pc. -/
  sends : List (Nat × Nat × Nat × W64) := []
  /-- Scratchpad offsets of the accumulator tiles written since the last commit point (R209), and the chains whose state or
  statistics were: descriptor, stat area, rows (R285). -/
  accs : List Nat := []
  stats : List (Nat × Nat × Nat) := []
  commit : Option CommitJob := none
  /-- Next unused journal entry while replaying (R215). -/
  replayNext : Option Nat := none
  replayWhy : Option ReplayWhy := none
  /-- A replay has been called for and not yet restored (R214). -/
  replayDue : Bool := false
  /-- Whether a takeover has happened since the last commit point (R108). -/
  tookOver : Bool := false
  /-- Steps since the last commit point (R572). -/
  sinceCommit : Nat := 0
  /-- Die-local time at which the stream took the context (R132). -/
  since : W64 := 0
  check : Option CheckRun := none
  /-- Step of the core from which every condition of R87 but the last has held for the pass that waits (R130). -/
  readyAt : Option Nat := none
  /-- Die-local time at which the last `bar.arrive` was accepted (R690, barrier wait). -/
  barAt : Option W64 := none
  deriving DecidableEq, Repr

/-! ## Cores -/

/-- The states of a stream that is assigned to a core (R169). -/
inductive StreamSt where
  | ready | running | stopped
  deriving DecidableEq, Repr

/-- A stream assigned to a logical core: the fields of its descriptor (R167) and its state. -/
structure Stream where
  id : W32
  st : StreamSt
  descAddr : PAddr
  root : W64
  saveBase : W64
  ringBase : W64
  ringLog2 : BitVec 4
  countAddr : W64
  msiAddr : W64
  msiData : W32
  tierStall : Bool
  /-- An end command waits for the next commit point (R172). -/
  ending : Bool
  /-- It has taken a context, and the record of its start has been queued (R173). -/
  started : Bool := false
  /-- Checking level in force at launch (R577). -/
  level : BitVec 2
  deriving DecidableEq, Repr

/-- An event record that waits to be written (R173): its stream with the ring it goes to, and the words' contents. -/
structure EventRec where
  code : W8
  ctx : CtxIx
  of_ : Stream
  pc : W64
  data : W64
  time : W64
  epoch : W64
  detail : W64
  deriving DecidableEq, Repr

/-- A weight tile as loaded: its descriptor, the element codes row by row, the scale bytes block by block, and the values of
its checksum column (R99, R100). -/
structure WTile where
  desc : TileDesc
  codes : List (List W16)
  scales : List (List W8)
  chk : List W32
  /-- Its slot is released once the load has read it (R265). -/
  rel : Bool
  deriving DecidableEq, Repr

/-- The shadow copy of the weights (R77, R78, R80): a load under way with its steps to go, a tile that has been loaded and not
yet swapped in, or the former live weights that a swap has put there, with the bit of array A0 that an injection had flipped. -/
inductive Shadow where
  | empty
  | loading (c : CtxIx) (tile : WTile) (steps : Nat)
  | held (c : CtxIx) (tile : WTile)
  | old (tile : WTile) (flip : Option (Nat × Nat × Nat))
  deriving DecidableEq, Repr

/-- The tile that the shadow copy holds or is being loaded with. -/
def Shadow.tile : Shadow → Option WTile
  | .empty => none
  | .loading _ t _ => some t
  | .held _ t => some t
  | .old t _ => some t

/-- The context whose load gave the shadow copy a tile that has not been swapped in. -/
def Shadow.of : Shadow → Option CtxIx
  | .loading c _ _ => some c
  | .held c _ => some c
  | .empty => none
  | .old _ _ => none

/-- The shadow copy once a context's tile in it is given up. -/
def Shadow.without (x : Shadow) (c : CtxIx) : Shadow := if x.of = some c then .empty else x

/-- A moving-front load under way (R85): the context, the tile and the steps to go. `shadowNext` asks for the shadow claim
afterwards (R83 step 3). -/
structure Front where
  c : CtxIx
  tile : WTile
  steps : Nat
  shadowNext : Bool
  deriving DecidableEq, Repr

/-- A matrix pass that has issued (R269, R270): its rows still to enter are those from `fed` upward. -/
structure Pass where
  c : CtxIx
  pc : W64
  act : TileDesc
  init : TileDesc
  mode : BitVec 2
  base : Nat
  rows : Nat
  q : Nat
  fed : Nat
  /-- Steps to go until the arrays accept the next row. -/
  phase : Nat
  chain : Nat
  release : Bool
  /-- The activation slot. -/
  slot : BitVec 4
  deriving DecidableEq, Repr

/-- A `mm.drain` that moves rows (R274). -/
structure Drain where
  c : CtxIx
  base : Nat
  out : TileDesc
  stochastic : Bool
  saturate : Bool
  next : Nat
  /-- Generator state for the next row: the draws of the whole drain precede those of younger instructions (R62). -/
  sr : W32
  deriving DecidableEq, Repr

/-- A line of the operand cache (R109, R112). -/
structure OcLine where
  set : Nat
  way : Nat
  line : PAddr
  age : Nat
  data : List W8
  deriving DecidableEq, Repr

/-- What wrote a store-buffer entry (R257, R330). -/
inductive WriteTag where
  | store | flag | drain | epilogue | bcpOut (id : Nat)
  deriving DecidableEq, Repr

/-- A store-buffer or copy-queue entry: the bytes of one context's stores to one line (R329). -/
structure SbEntry where
  c : CtxIx
  line : PAddr
  mask : BitVec 128
  data : List W8
  hint : Hint
  sent : Bool
  /-- Die-local time of sending, for a remote write (R370). -/
  sentAt : W64
  tag : WriteTag
  /-- Virtual address of the first byte written (R227). -/
  va : W64
  deriving DecidableEq, Repr

/-- A write of a background instruction on its way from the core: its context, its virtual address and bytes, what it
belongs to, and the pc of its instruction (R226, R227). -/
structure BgWrite where
  c : CtxIx
  va : W64
  data : List W8
  hint : Hint
  tag : WriteTag
  deriving DecidableEq, Repr

/-- A posted receive of a stream (R277): the sources that it takes, its slot and landing tile, and the header that it has
matched (R278). -/
structure Recv where
  stream : W32
  vertex : Vertex
  lc : W8
  tag : W8
  slot : BitVec 4
  desc : TileDesc
  hdr : Option TileHeader
  deriving DecidableEq, Repr

/-- A tile send that its port has accepted: it waits for its clear-to-send, and one to this vertex then holds its tile until
that has landed (R522, R524). -/
structure Send where
  c : CtxIx
  stream : W32
  vertex : Vertex
  toLc : W8
  tag : W8
  cls : BitVec 2
  desc : TileDesc
  data : Option FacetTile
  deriving DecidableEq, Repr

/-- A held header of the arrival list, with the time of its arrival (R523). -/
structure Held where
  hdr : TileHeader
  at_ : W64
  deriving DecidableEq, Repr

/-- A cached translation (R381 to R384): a virtual range of `size` bytes. -/
structure Trans where
  va : W64
  size : Nat
  pa : PAddr
  asid : W16
  mode : BitVec 4
  global : Bool
  /-- Bits [7:0] and [63:61] of the leaf: permissions, A, D and PBMT. -/
  perms : W8
  pbmt : BitVec 2
  deriving DecidableEq, Repr

/-- The stages of a takeover (R565, R566). -/
inductive Takeover where
  | probing (at_ : W64) | waking (spare : MC) | catching
  deriving DecidableEq, Repr

/-- The state of a logical core besides its contexts and registers. -/
structure Core where
  streams : List Stream := []
  /-- Streams in state READY, in queue order (R131). -/
  queue : List W32 := []
  /-- Commands held in the register path (R171, R610). -/
  sqHeld : List W64 := []
  events : List EventRec := []
  live : Option WTile := none
  owner : Option CtxIx := none
  shadow : Shadow := .empty
  front : Option Front := none
  injCell : Bool := false
  injOpchk : Bool := false
  /-- The live weight bit of array A0 that an injection has flipped: K index, column, bit (R135). -/
  flip : Option (Nat × Nat × Nat) := none
  passes : List Pass := []
  drain : Option Drain := none
  oc : List OcLine := []
  /-- The line that the scalar issue unit waits for (R114), with the hint and whether the line may be allocated. -/
  ocMiss : Option (PAddr × Hint × Bool) := none
  /-- A line that a home has sent and that is not yet in the core: status, data, poison (R114). -/
  arrived : Option (PAddr × W8 × List W8 × Bool) := none
  /-- Lines that have arrived for the blocked load. -/
  missBuf : List (PAddr × List W8) := []
  /-- The context whose load, `ld.v` or atomic blocks the scalar issue unit (R114, R248). -/
  blockedBy : Option CtxIx := none
  sb : List SbEntry := []
  /-- Writes that wait for room in the store buffer, and the copy queue of `bcp.out` writes (R330). -/
  copyQ : List SbEntry := []
  /-- Background writes that are not yet in the store buffer or the copy queue. -/
  bg : List BgWrite := []
  tlb : List Trans := []
  recvs : List Recv := []
  sends : List Send := []
  /-- Sends that have failed while their stream held no context (R525): stream, exception words 2 and 5. -/
  sendFails : List (W32 × W64 × W64) := []
  arrivals : List Held := []
  /-- The current step found no pacer token (R149). -/
  empty : Bool := false
  /-- Context that has issued in the current step (R129). -/
  slot : Option CtxIx := none
  lastIssued : CtxIx := 3
  /-- The contexts whose turn at the issue slot of the current step is still to come, in order (R129, R130). -/
  turns : List CtxIx := []
  tokens : Nat := 0
  takeover : Option Takeover := none
  /-- Die-local time of the last step boundary or empty step (R564). -/
  stepAt : W64 := 0
  /-- Start of detection of a failure (R565, R568). -/
  detectAt : Option W64 := none
  /-- Issue is halted by the stop sequence (R633). -/
  halted : Bool := false
  /-- Next identifier of a `bcp.out`. -/
  nextId : Nat := 0
  /-- Step boundaries taken. -/
  steps : Nat := 0
  deriving DecidableEq, Repr

/-! ## Homes and memory systems -/

/-- A transaction of a home (R360). -/
inductive TxnKind where
  | rdOnce | rdShared | rdUnique
  | wrPart (mask : BitVec 128) (data : List W8)
  | wrLine (data : List W8)
  | atomic (op : AmoOp) (off : Nat) (dbl : Bool) (v : W64)
  | evict (data : Option (List W8))
  deriving DecidableEq, Repr

/-- A request at a home, with the time of its arrival and the vertex it came from (R361, R413). -/
structure HomeReq where
  r : Requester
  vertex : Vertex
  h : Hint
  kind : TxnKind
  at_ : W64
  deriving DecidableEq, Repr

/-- The phase of a transaction: it waits for recalls (of the holders in `left`, those in `sent` having the message), for the stack, for a lower tier, has its response ready, or waits for
the acknowledgement (R362, R366, R413). -/
inductive TxnPhase where
  | recall (left sent : List Requester)
  | stack
  | tier (stalled : Bool)
  | respond (status : W8) (old : W64) (data : List W8) (poison : Bool)
  | ack
  deriving DecidableEq, Repr

/-- A transaction under way on a line, with the time of the home's last message (R366). -/
structure Txn where
  req : HomeReq
  phase : TxnPhase
  at_ : W64
  deriving DecidableEq, Repr

/-- The home's state of one line (R361 to R363, R442): the transaction that holds it busy, the requests that wait, the
holders of tracked copies. -/
structure Line where
  txn : Option Txn := none
  waiting : List HomeReq := []
  sharers : List Requester := []
  owner : Option Requester := none
  /-- The requester whose response the home has timed out (R367). -/
  late : Option Requester := none
  deriving DecidableEq, Repr

/-- A line of the memory-side cache (R440 to R447). -/
structure MscLine where
  set : Nat
  way : Nat
  line : LAddr
  age : Nat
  keep : Bool
  dirty : Bool
  last : Bool
  data : List W8
  deriving DecidableEq, Repr

/-- An entry of a stripe buffer: the written lines of one stripe, by line address (R427). -/
structure StripeEntry where
  group : Nat
  pos : Nat
  lines : List (LAddr × List W8)
  at_ : W64
  deriving DecidableEq, Repr

/-- A failed channel of a stack, the spare that it rebuilds onto, and the sequence number of its error record (R435 to
R438). -/
structure FailedChan where
  chan : W8
  spare : Option Nat
  seq : W16
  deriving DecidableEq, Repr

/-- The state of a stack interface besides its registers. -/
structure StackSt where
  stripes : List StripeEntry := []
  failed : List FailedChan := []
  /-- Reconstructions and CRC failures by channel with their times, for the limits of R434. -/
  recon : List (W8 × W64) := []
  crc : List (W8 × W64) := []
  deriving DecidableEq, Repr

/-! ## Translation, tiers -/

/-- A walk that a requester waits for (R375, R390). -/
structure Walk where
  r : Requester
  va : W64
  /-- 0 read, 1 write, 2 atomic, 3 instruction fetch (R398). -/
  acc : BitVec 2
  root : W64
  background : Bool
  /-- Record that the requester waits in. -/
  record : Option W32
  /-- The fault waits for room in a full table and has been counted (R394). -/
  waited : Bool := false
  deriving DecidableEq, Repr

/-- A non-leaf entry in the walk cache of a base die (R383, R384). -/
structure WalkEntry where
  b : BDie
  asid : W16
  mode : BitVec 4
  global : Bool
  level : Nat
  va : Nat
  ppn : Nat
  deriving DecidableEq, Repr

/-- An invalidation under way (R386): the writes and the loads that used a translation before it and are not yet done. -/
structure Inval where
  writes : List (LC × PAddr)
  loads : List Cx
  deriving DecidableEq, Repr

/-- A pending fault record (R391 to R398). -/
structure FaultRec where
  id : W32
  opener : Walk
  cause : BitVec 3
  level : BitVec 2
  entry : W64
  listed : List Requester
  extra : Nat
  at_ : W64
  posted : Bool
  deriving DecidableEq, Repr

/-! ## Copy engines, Facet, collectives, Chord -/

/-- A descriptor in flight (R485): its count and words, the refetches made and the time of the last fetch, whether its tag is
right and whether it has started, the segments that have succeeded and failed with the first cause, the status that ends it
before its segments do, the slot that it fills, the data key it has read and the tags of the chunks decrypted. -/
structure CopyDesc where
  count : W16
  words : List W64
  refetches : Nat
  at_ : W64
  valid : Bool
  started : Bool
  okSegs : List Nat
  badSegs : List Nat
  cause : W8
  status : Option W8
  fill : Option (LC × W32 × BitVec 4)
  key : Option (BitVec 256)
  tags : List W8
  deriving DecidableEq, Repr

/-- The state of a copy engine besides its registers. -/
structure CopySt where
  /-- Count up to which the last doorbell allows fetching (R484). -/
  limit : W16 := 0
  flight : List CopyDesc := []
  /-- The engine's PCIe link has been lost and its ring not reset since (R498). -/
  stopped : Bool := false
  deriving DecidableEq, Repr

/-- The state of a Facet link besides its registers (R501 to R505, R521). -/
structure LinkSt where
  /-- Next flit sequence number expected, and the first flit discarded while a resend is awaited. -/
  expect : W32 := 0
  discard : Option W32 := none
  /-- Whether the transmit direction is switching its mode (R505). -/
  switching : Bool := false
  /-- Lanes that have retrained, with the time from which each must run clean (R502). -/
  probation : List (Lane × W64) := []
  /-- The TC0 token bucket: half bytes spent, the time of the last use, and whether the first message that waits has been
  counted in `tc0_held` (R521). -/
  tc0Spent : Nat := 0
  tc0At : W64 := 0
  tc0Waits : Bool := false
  deriving DecidableEq, Repr

/-- A block that a member holds during a round: its number, the worst status of the steps that fed it, and its contents. -/
structure Blk where
  index : Nat
  status : Nat
  body : Chunk
  deriving DecidableEq, Repr

/-- One half of the payload of a bulk collective on this member (R533): the dimensions in the order of its reduce-scatter, its
range of blocks, the steps completed, whether this member has sent its blocks of the current step, the blocks that it holds, and
whether they are its result. -/
structure Half where
  order : List Nat
  lo : Nat
  hi : Nat
  step : Nat
  sent : Bool
  cur : List Blk
  fin : Bool
  deriving DecidableEq, Repr

/-- The collective of one line on this member (R530 to R540): the round under way, and what has arrived for it or for the
next. -/
structure Round where
  running : Bool := false
  /-- Words 1 to 6 of the line as the round began. -/
  words : List W64 := []
  status : Nat := 0
  /-- Arrivals that count toward the next round (R530). -/
  early : Nat := 0
  /-- The round's command has run: the source is read and the first messages are sent. -/
  begun : Bool := false
  /-- The round ends on every member with status 0x3 or 0x5. -/
  ended : Bool := false
  /-- Every write of the result has been accepted. -/
  done : Bool := false
  /-- Tree rounds: dimensions of the up phase combined, what this member holds, whether it has sent its partial up. -/
  up : Nat := 0
  value : List Blk := []
  sentUp : Bool := false
  /-- Bulk rounds: the halves. -/
  halves : List Half := []
  /-- Partials and blocks received and not yet used. -/
  partials : List Partial := []
  inbox : List DigestBlock := []
  /-- Resends asked for after a CRC mismatch, by dimension, coordinate and block; and blocks, by dimension and number, whose
  contributors have been asked to resend after a failed check (R538, R540). -/
  tries : List ((Nat × Nat × Nat) × Nat) := []
  again : List (Nat × Nat) := []
  fail : Option (Vertex × Nat × Nat) := none
  deriving DecidableEq, Repr

/-- The state of a Chord connection besides its registers (R544 to R547). -/
structure ChordSt where
  expect : W32 := 0
  discard : Option W32 := none
  /-- Retries charged to a wire, with their times. -/
  charges : List (Nat × W64) := []
  /-- Groups whose spare is in use, and disabled groups. -/
  spareUsed : List Nat := []
  disabled : List Nat := []
  /-- Groups whose lanes are shifting onto the spare, oldest first (R546). -/
  remaps : List Nat := []
  deriving DecidableEq, Repr

/-! ## Dies, repair, power, security, start-up, mailbox -/

/-- What a physical core is (R552, R564, R590). -/
inductive McRole where
  | unassigned | active | spare | waking | retired
  deriving DecidableEq, Repr

/-- The state of a physical core. -/
structure McSt where
  role : McRole := .unassigned
  /-- The logical cores that it hosts (R570). -/
  hosts : List LC := []
  coreOk : Bool := true
  spdOk : Bool := true
  /-- The screening program under way, the runs of it that have differed, and the next program in turn (R590, R592). -/
  screening : Option Nat := none
  screenRuns : Nat := 0
  screenNext : Nat := 0
  /-- The core leaves service by planned migration: the streams that have moved, and the spare that they move to (R592). -/
  leaving : Bool := false
  moved : List Cx := []
  target : Option MC := none
  deriving DecidableEq, Repr

/-- The state of a die besides its registers. -/
structure DieSt where
  time : W64 := 0
  /-- The fraction of the pacer's accumulator (R148). -/
  frac : BitVec 24 := 0
  /-- Start and end of the droop gate and end of the hold-off (R145, R146). -/
  gateStart : Option W64 := none
  gateEnd : W64 := 0
  holdoff : Option W64 := none
  supplyMv : Nat := 720
  tlb : List Trans := []
  /-- Per-die sequence number of error records (R593). -/
  errSeq : W16 := 0
  /-- Time of the last step of supply or gaps that a hot die took (R630). -/
  thrAt : W64 := 0
  deriving DecidableEq, Repr

/-- The state of a unit under latency tolerance besides its registers (R602 to R612). -/
structure UnitSt where
  /-- The state that the entry under way leads to. -/
  target : Nat := 0
  /-- Whether the entry was caused by a disable. -/
  byDisable : Bool := false
  /-- Whether a wake must follow the switch phase. -/
  wakeAfter : Bool := false
  /-- Whether a shut-down must follow the power-up. -/
  offAfter : Bool := false
  /-- Whether a wake waits for others of the die (R608), and when the wake under way began. -/
  queued : Bool := false
  wakeAt : W64 := 0
  deriving DecidableEq, Repr

/-- An error record that waits (R593, R597). -/
structure ErrRec where
  cls : W8
  die : BitVec 5 := 0
  index : W16
  action : W8
  seqno : W16 := 0
  time : W64 := 0
  addr : PAddr := 0
  major : W8 := 0
  minor : W8 := 0
  requester : W16 := 0
  stream : W32 := 0
  tj : W16 := 0
  mv : W16 := 0
  count : W16 := 0
  vertex : Vertex := 0
  syndrome : W64 := 0
  pc : W64 := 0
  deriving DecidableEq, Repr

/-- Working totals of a monitor (R691, R693). -/
structure MonSt where
  opened : Bool := false
  /-- When arm was last written 1, and the length taken at that arming once a window has opened. -/
  armAt : W64 := 0
  start : W64 := 0
  src : W8 := 0
  index : W8 := 0
  lenUs : W32 := 0
  edges : List W32 := []
  count : Nat := 0
  sum : Int := 0
  min : Int := 0x7FFFFFFF
  max : Int := -0x80000000
  bins : List Nat := []
  deriving DecidableEq, Repr

/-- A loaded key slot (R649 to R651). -/
structure KeySlot where
  key : BitVec 256
  engines : BitVec 48
  t1Only : Bool
  deriving DecidableEq, Repr

/-- The state of the security engine besides its registers (R638 to R648). -/
structure SecSt where
  m : Tbl Nat (BitVec 512) := []
  programs : List (BitVec 512 × W32) := []
  weights : List (BitVec 512 × W64 × BitVec 6 × W16) := []
  screens : List (BitVec 512) := []
  progOver : Bool := false
  weightOver : Bool := false
  screenOver : Bool := false
  slots : Tbl Nat (Option KeySlot) := []
  /-- Digests of the last reports signed with the current transport key (R648). -/
  reports : List (BitVec 512) := []
  reportCount : W32 := 0
  attestGen : W64 := 0
  transportGen : W64 := 0
  /-- A slot whose clearing waits for descriptors that have read it (R653), and commands held while busy (R654). -/
  clearing : Option Nat := none
  held : List W64 := []
  deriving DecidableEq, Repr

/-- The board flash (R555, R668 to R670, R674). It lies outside the package and no reset changes it. -/
structure Flash where
  /-- The ledger blocks of the two halves, 8 KiB each (R556), and which half is active. -/
  blocksA : List (List W8) := []
  blocksB : List (List W8) := []
  half : Bool := false
  dirSeq : W32 := 0
  bootBank : Bool := false
  coldStarts : W32 := 0
  lattice : Option (BitVec 24) := none
  /-- The image that each firmware bank holds, as its verifier finds it, and the identity certificate (R641, R670, R710). -/
  images : Tbl Bool FwImage := []
  idCert : List W8 := []
  deriving DecidableEq, Repr

/-- The firmware switch (R684 to R687). -/
structure FwSt where
  image : Option FwImage := none
  handoff : Bool := false
  oldDigest : BitVec 512 := 0
  newDigest : BitVec 512 := 0
  /-- HD time at which probation began. -/
  probAt : W64 := 0
  firstStageLoaded : Bool := false
  /-- Digest of the host firmware that the harts run, and the bank that it came from (R644). -/
  hostDigest : BitVec 512 := 0
  hostBank : Bool := false
  deriving DecidableEq, Repr

/-- The mailbox besides its registers (R704 to R711). -/
structure MbSt where
  owner : MbPath := .harts
  op : W8 := 0
  length : BitVec 24 := 0
  arg : BitVec 24 := 0
  input : List W32 := []
  output : List W32 := []
  /-- Time of the owner's last access to a mailbox register (R708). -/
  lastAt : W64 := 0
  /-- A command that waits for a firmware handoff to end (R711). -/
  waits : Bool := false
  deriving DecidableEq, Repr

/-- The management bus target (R700). -/
inductive MgtMode where
  | smbus | i3c (addr : BitVec 7)
  deriving DecidableEq, Repr

/-- The instruction that the TAP holds (R703). -/
inductive TapInstr where
  | bypass | idcode | samplePreload | extest | extestPulse | extestTrain | clamp | highz
  deriving DecidableEq, Repr

/-- The package pins and rails (R660 to R663, R730 to R742). -/
structure Pins where
  pkgReset : Bool := true
  perst : Bool := true
  coolantFail : Bool := false
  /-- Regulator enables of steps 4 to 7 (R660). -/
  vrBase : Bool := false
  vrOpt : Bool := false
  vrJs : Bool := false
  vrCd : Bool := false
  capUnmet : Bool := false
  thermtrip : Bool := false
  mgtAlert : Bool := false
  refclkLost : Bool := false
  deriving DecidableEq, Repr

/-- The states of a hart that the part itself distinguishes (R458, R461, R633). -/
inductive HartSt where
  | unavailable | running | stopped
  deriving DecidableEq, Repr

/-- The host die's cores and memory controllers (R457 to R471). -/
structure HostSt where
  harts : Tbl Nat HartSt := []
  /-- Physical core of each hart ID, and the spare cores (R458). -/
  phys : Tbl Nat Nat := []
  spares : List Nat := []
  /-- Lines that private caches hold dirty and a reset has yet to flush (R496). -/
  flushing : List LAddr := []
  /-- HD time at which that flush began. -/
  flushAt : W64 := 0
  selfRefresh : Bool := false
  ddrChannels : List Nat := []
  ddrBytes : Nat := 0
  ddrSpeed : Nat := 0
  /-- Ranges that HDM decoders map, with the expander port (R471), and expander links that are lost. -/
  hdm : List (LAddr × Nat × Port) := []
  lostPorts : List Port := []
  /-- T1 base of the endpoint HDM window (R472). -/
  hdmBase : Option LAddr := none
  /-- The endpoint port is ready for link training, and its link is up (R496, R739). -/
  epReady : Bool := false
  epUp : Bool := false
  ddrScrubs : Nat := 0
  /-- Host-core clock in percent of its full rate (R630). -/
  clockPct : Nat := 100
  deriving DecidableEq, Repr

/-- A screening program that has been verified and loaded (R589). -/
structure Screening where
  digest : BitVec 512
  expected : W64
  deriving DecidableEq, Repr

/-- What the part sends outside or to an agent that the manual does not model further. -/
inductive OutMsg where
  /-- A message-signalled interrupt write (R174, R393, R488, R596). -/
  | msi (addr : W64) (data : W32)
  /-- A tile header, then a tile's payload, sent to a vertex in a class (R522). -/
  | tileHeader (vertex : Vertex) (cls : BitVec 2) (hdr : TileHeader)
  | tile (vertex : Vertex) (cls : BitVec 2) (data : FacetTile)
  /-- A held header that its receiver has given up (R525). -/
  | headerFailed (vertex : Vertex) (lc : W8) (tag : W8)
  /-- A clear-to-send (R522). -/
  | clearToSend (vertex : Vertex) (lc : W8) (tag : W8)
  /-- A remote store or atomic (R370). -/
  | remoteWrite (line : PAddr) (mask : BitVec 128) (data : List W8)
  | remoteRead (line : PAddr)
  | remoteAtomic (a : PAddr) (op : AmoOp) (dbl : Bool) (v : W64)
  /-- A partial of a collective to the member with a coordinate in a dimension (R532). -/
  | collective (line : LAddr) (vertex : Vertex) (p : Partial)
  | block (line : LAddr) (vertex : Vertex) (b : DigestBlock)
  | blockResend (line : LAddr) (vertex : Vertex) (index : Nat)
  | digestNotice (vertex : Vertex) (step : BitVec 4) (block : W32)
  | marker (line : LAddr) (vertex : Vertex)
  /-- A lattice reset forwarded to the peers of a dimension (R535). -/
  | latticeReset (dim : Nat) (seq : W16)
  | powerCredit (to_ : Vertex) (m : CreditMsg)
  | creditGrant (vertex : Vertex) (watts : W8)
  | creditAck (vertex : Vertex)
  | powerSum (effCap : W32)
  /-- A go-back-N resend request of a Facet link or a Chord connection (R501, R544). -/
  | linkResend (k : Link) (seq : W32)
  | chordResend (d : Die) (c : Fin 6) (seq : W32)
  | flitsFrom (k : Link) (seq : W32)
  | recall (a : LAddr) (holder : Requester)
  /-- The response of a home to a requester other than a context (R360). -/
  | homeData (vertex : Vertex) (r : Requester) (a : LAddr) (status : W8) (old : W64) (data : List W8) (poison : Bool)
  /-- A posted write or completion toward the external host or a PCIe port (R488, R496). -/
  | pcieWrite (p : Port) (a : W64) (data : List W8)
  | pcieRead (p : Port) (a : W64) (length : Nat)
  | pcieUnsupported (p : Port)
  | pcieData (p : Port) (data : List W8) (poison : Bool)
  /-- An access to PCIe MMIO (R724, R725). -/
  | mmioRead (a : LAddr) (length : Nat)
  | mmioWrite (a : LAddr) (data : List W8)
  /-- The value a register or mailbox read returned. -/
  | readData (v : W64)
  /-- A register access that ended as an access to a hole (R714, R719). -/
  | accessFault
  | inbandInterrupt
  | avsVoltage (d : CDie) (mv : Nat)
  deriving DecidableEq, Repr

/-! ## The whole state -/

/-- The state of a DCV-J12. Its tables list only what differs from the value after reset. -/
structure State where
  /-- The commands that wait, first in, first out. -/
  pending : List Instr := []
  /-- Counter of the free values drawn (the model's own; log entry 1). -/
  draws : Nat := 0
  /-- Registers, by name, as the register tables give them (R13 to R17). -/
  regs : Tbl Reg W64 := []
  /-- Bytes of local memory: the stacks, DDR, CXL and the scratchpads (R713). Sorted; a byte of zero is not listed. -/
  mem : List Host.Cell := []
  /-- Lines that hold a poison code (R368), by line address. -/
  poison : List Nat := []
  /-- Scratchpad words that read as uncorrectable, and as holding one wrong bit (R117, R119, R120), by word address. -/
  badWords : List Nat := []
  softWords : List Nat := []
  ctxs : Tbl Cx Context := []
  cores : Tbl LC Core := []
  /-- The 16 counters of a context of a logical core, in the die's uncore (R154, R157), and the readable copy. -/
  cnt : Tbl (Cx × Fin 16) W64 := []
  dies : Tbl Die DieSt := []
  mcs : Tbl (CDie × MC) McSt := []
  lines : Tbl LAddr Line := []
  msc : Tbl Slice (List MscLine) := []
  jahel : Tbl Stack StackSt := []
  walks : List Walk := []
  faults : List FaultRec := []
  nextFault : W32 := 0
  /-- Invalidation under way (R386) and register writes held behind it (R388). -/
  inval : Option Inval := none
  invalHeld : List (RegKind × W64 × W64) := []
  walkCache : List WalkEntry := []
  /-- Walks that `XLT_RESOLVE` has failed and whose access has yet to learn of it (R395). -/
  failedWalks : List Walk := []
  /-- Access-counter words cached by the home slices, by region (R406, R407). -/
  cntCache : Tbl Nat Nat := []
  copy : Tbl CopyEng CopySt := []
  links : Tbl Link LinkSt := []
  rounds : Tbl LAddr Round := []
  /-- Tiles accepted for sending to and landed from a vertex, by class (R536). -/
  tilesOut : Tbl (Vertex × BitVec 2) W64 := []
  tilesIn : Tbl (Vertex × BitVec 2) W64 := []
  laserA : BitVec 8 := 0xFF
  laserB : BitVec 8 := 0xFF
  /-- A laser module announced as being removed (R505). -/
  laserOut : BitVec 2 := 0
  latticeSeqSent : W16 := 0
  /-- Sequence number of the last lattice reset received (R535). -/
  latticeSeen : Option W16 := none
  chord : Tbl (Die × Fin 6) ChordSt := []
  /-- Error records held on HD, and those kept by the unit that detected them (R597). -/
  errHeld : List ErrRec := []
  errKept : List ErrRec := []
  /-- The entries and the block digests of the valid ledger blocks, as firmware holds them (R559). -/
  led : List LedgerEntry := []
  /-- Streams that a per-core reset has ended (R680). -/
  resetEnded : List (LC × W32) := []
  ledDigests : List (BitVec 512) := []
  ledgerPending : List LedgerEntry := []
  ledgerSince : W64 := 0
  screening : List Screening := []
  units : Tbl PUnit UnitSt := []
  /-- Means of the package power over the last ten milliseconds, newest first, with the time of the newest; and microseconds with
  cap_unmet not yet counted (R625, R636). -/
  powerLog : List Nat := []
  powerAt : W64 := 0
  unmetUs : Nat := 0
  /-- HD time since which every supply and every gap_rate has been at its floor (R618). -/
  floorSince : Option W64 := none
  /-- Power group: periods taken, the message sent in this period with its partner, and the partner's message (R623, R626). -/
  shiftPhase : Nat := 0
  shiftMine : Option (Vertex × CreditMsg) := none
  shiftTheirs : Option CreditMsg := none
  mons : Tbl Mon MonSt := []
  sec : SecSt := {}
  flash : Flash := {}
  fw : FwSt := {}
  mb : MbSt := {}
  mgt : MgtMode := .smbus
  tap : TapInstr := .idcode
  pins : Pins := {}
  host : HostSt := {}
  /-- A stop sequence has run (R634). -/
  stoppedSeq : Bool := false
  /-- Lattice configuration delivered through the mailbox since the cold reset (R674). -/
  latticeCfg : Option (BitVec 24) := none
  /-- What has been sent outside, oldest first; a message to another vertex stays until it leaves over a link. -/
  out : List OutMsg := []
  deriving DecidableEq, Repr

/-- The part right after a package cold reset, before start-up's first stage: every register at its "At reset" value, no
memory listed, every table at its default (R677, R683; log entries 7 and 8). -/
def State.reset : State := {}

/-- Why a step can fault. No meaning of this model faults: what the manual calls an exception, an error status or a failed
access is a next state. -/
inductive Fault where
  /-- Raised by no meaning; kept so that the type names the only stop a later repair could need. Safe. -/
  | none
  deriving DecidableEq, Repr

/-- Why a step can be refused. -/
inductive Refusal where
  /-- Raised by the dispatcher for a row that has no meaning yet. Safe: nothing can be proved about a refused step. -/
  | notModelled (mnemonic : String)
  deriving DecidableEq, Repr

end Sys2Proof.Machine
end

