-- ==== Sys2Proof/Machine/Ops.lean ====
section
/-! DEFINITION. The shared operations over the state: fields of words, bytes, memory, the accessors of every table, register
fields and counters, time, error records and interrupt writes. -/

namespace Sys2Proof.Machine

/-- What a meaning answers. -/
abbrev Out := Host.Outcome State Fault Refusal

/-! ## Bits and bytes -/

/-- Bits [hi:lo] of a word as a number. -/
def bits (w : W64) (hi lo : Nat) : Nat := w.toNat / 2 ^ lo % 2 ^ (hi + 1 - lo)

/-- The word with bits [hi:lo] replaced by a number, taken modulo the field's width. -/
def withBits (w : W64) (hi lo v : Nat) : W64 :=
  (w &&& ~~~(BitVec.ofNat 64 (2 ^ (hi + 1) - 2 ^ lo))) ||| BitVec.ofNat 64 (v % 2 ^ (hi + 1 - lo) * 2 ^ lo)

/-- The `n` low bytes of a number, lowest first (R185: little-endian). -/
def leBytes (n v : Nat) : List W8 := (List.range n).map fun i => BitVec.ofNat 8 (v / 256 ^ i)

/-- The number that bytes give, lowest first. -/
def leNat : List W8 → Nat
  | [] => 0
  | b :: t => b.toNat + 256 * leNat t

/-- A 64-bit word from 8 bytes. -/
def leWord (bs : List W8) : W64 := BitVec.ofNat 64 (leNat bs)

/-- The bytes of 64-bit words. -/
def wordsBytes (ws : List W64) : List W8 := ws.flatMap fun w => leBytes 8 w.toNat

/-- The 64-bit words of a byte string. -/
def bytesWords (bs : List W8) : List W64 := (List.range (bs.length / 8)).map fun i => leWord ((bs.drop (8 * i)).take 8)

/-- A byte string of a length: cut, or padded with zero bytes. -/
def fit (n : Nat) (bs : List W8) : List W8 := (List.range n).map fun i => bs.getD i 0

/-- `bs` with the bytes from offset `o` replaced by `xs`, within the length of `bs`. -/
def patch (bs : List W8) (o : Nat) (xs : List W8) : List W8 :=
  (List.range bs.length).map fun i => if o ≤ i ∧ i < o + xs.length then xs.getD (i - o) 0 else bs.getD i 0

/-- The bytes of `new` where the mask has a one, of `old` elsewhere (R360: `WrPart`). -/
def merge128 (mask : BitVec 128) (old new : List W8) : List W8 :=
  (List.range 128).map fun i => if mask.getLsbD i then new.getD i 0 else old.getD i 0

/-- A byte mask of `n` bytes from offset `o` of a line. -/
def maskOf128 (o n : Nat) : BitVec 128 := BitVec.ofNat 128 (2 ^ (o + n) - 2 ^ o)

/-- Sign extension from bit 56 (R176). -/
def sext57 (w : W64) : W64 := (w.extractLsb' 0 57).signExtend 64

/-! ## Memory

A list of (address, byte) pairs with strictly rising addresses and no byte of zero: a byte that is not listed reads as
zero. -/

/-- What an unlisted address reads as: zero (R671 zeroes T1; elsewhere log entry 10). -/
def Memory.unlisted : W8 := 0

/-- The canonical form. -/
abbrev Memory.wf (m : List Host.Cell) : Prop :=
  m.Pairwise (fun x y => x.1 < y.1) ∧ ∀ x ∈ m, x.2 ≠ Memory.unlisted

/-- The byte at an address. -/
def Memory.read : List Host.Cell → Nat → W8
  | [], _ => Memory.unlisted
  | (k, v) :: t, a => if k = a then v else Memory.read t a

/-- The memory with one byte written. -/
def Memory.write : List Host.Cell → Nat → W8 → List Host.Cell
  | [], a, b => if b = Memory.unlisted then [] else [(a, b)]
  | (k, v) :: t, a, b =>
    if a < k then (if b = Memory.unlisted then (k, v) :: t else (a, b) :: (k, v) :: t)
    else if a = k then (if b = Memory.unlisted then t else (k, b) :: t)
    else (k, v) :: Memory.write t a b

/-- The memory with bytes written from an address upward. -/
def Memory.writeBytes (m : List Host.Cell) (a : Nat) : List W8 → List Host.Cell
  | [] => m
  | b :: t => Memory.writeBytes (Memory.write m a b) (a + 1) t

/-- `n` bytes as stored at an address, past every cache. -/
def State.peek (s : State) (a n : Nat) : List W8 := (List.range n).map fun i => Memory.read s.mem (a + i)

/-- Bytes stored at an address, past every cache. -/
def State.poke (s : State) (a : Nat) (bs : List W8) : State := { s with mem := Memory.writeBytes s.mem a bs }

/-- A 64-bit word as stored. -/
def State.peek64 (s : State) (a : Nat) : W64 := leWord (s.peek a 8)

/-- A 64-bit word stored. -/
def State.poke64 (s : State) (a : Nat) (w : W64) : State := s.poke a (leBytes 8 w.toNat)

/-- The address of the 128-byte line that holds an address. -/
def lineOf (a : Nat) : Nat := a / 128 * 128

/-- The regions of the local map (R713). -/
inductive Region where
  | t1 | t2 | t3 | window | regs | mmio | hole
  deriving DecidableEq, Repr

/-- The region of a local address (R713, R715). -/
def regionOf (a : Nat) : Region :=
  if a < 0x0C000000000 then .t1
  else if a < 0x10000000000 then .hole
  else if a < 0x40000000000 then .t2
  else if a < 0x80000000000 then .t3
  else if a < 0x80060000000 then .window
  else if a < 0xE0000000000 then .hole
  else if a < 0xE0008800000 then .regs
  else if a < 0xF0000000000 then .hole
  else .mmio

/-- Coherent memory (R321). -/
def Region.coherent : Region → Bool
  | .t1 | .t2 | .t3 | .window => true
  | _ => false

/-- The base of the scratchpad window of a logical core (R122). -/
def windowBase (lc : LC) : Nat := 0x80000000000 + lc.val * 0x800000

/-- The logical core and offset of a window address (R122). -/
def windowOf (a : Nat) : Nat × Nat := ((a - 0x80000000000) / 0x800000, (a - 0x80000000000) % 0x800000)

/-- The base of the snapshot region of a context (R199). -/
def snapBase (c : Cx) : Nat := windowBase c.lc + 0x5C0000 + 0x10000 * c.ix.val

/-! ## Tables of the state -/

section Access
variable (s : State)

/-- The state of a context. -/
def State.ctx (c : Cx) : Context := Tbl.get {} s.ctxs c
/-- The state with a context replaced. -/
def State.setCtx (c : Cx) (k : Context) : State := { s with ctxs := Tbl.set s.ctxs c k }
/-- The state of a logical core. -/
def State.core (l : LC) : Core := Tbl.get {} s.cores l
/-- The state with a logical core replaced. -/
def State.setCore (l : LC) (k : Core) : State := { s with cores := Tbl.set s.cores l k }
/-- The state of a die. -/
def State.die (d : Die) : DieSt := Tbl.get {} s.dies d
/-- The state with a die replaced. -/
def State.setDie (d : Die) (k : DieSt) : State := { s with dies := Tbl.set s.dies d k }
/-- The state of a physical core. -/
def State.mc (d : CDie) (m : MC) : McSt := Tbl.get {} s.mcs (d, m)
/-- The state with a physical core replaced. -/
def State.setMc (d : CDie) (m : MC) (k : McSt) : State := { s with mcs := Tbl.set s.mcs (d, m) k }
/-- The home's state of a line. -/
def State.line (a : LAddr) : Line := Tbl.get {} s.lines a
/-- The state with a line's home state replaced. -/
def State.setLine (a : LAddr) (k : Line) : State := { s with lines := Tbl.set s.lines a k }
/-- The lines of a memory-side cache slice. -/
def State.mscOf (h : Slice) : List MscLine := Tbl.get [] s.msc h
/-- The state with the lines of a slice replaced. -/
def State.setMsc (h : Slice) (k : List MscLine) : State := { s with msc := Tbl.set s.msc h k }
/-- A stack interface. -/
def State.stack (j : Stack) : StackSt := Tbl.get {} s.jahel j
/-- The state with a stack interface replaced. -/
def State.setStack (j : Stack) (k : StackSt) : State := { s with jahel := Tbl.set s.jahel j k }
/-- A copy engine. -/
def State.ce (e : CopyEng) : CopySt := Tbl.get {} s.copy e
/-- The state with a copy engine replaced. -/
def State.setCe (e : CopyEng) (k : CopySt) : State := { s with copy := Tbl.set s.copy e k }
/-- A Facet link. -/
def State.link (k : Link) : LinkSt := Tbl.get {} s.links k
/-- The state with a Facet link replaced. -/
def State.setLink (k : Link) (l : LinkSt) : State := { s with links := Tbl.set s.links k l }
/-- The round of a collective line. -/
def State.round (a : LAddr) : Round := Tbl.get {} s.rounds a
/-- The state with a collective's round replaced. -/
def State.setRound (a : LAddr) (k : Round) : State := { s with rounds := Tbl.set s.rounds a k }
/-- A Chord connection. -/
def State.chd (d : Die) (n : Fin 6) : ChordSt := Tbl.get {} s.chord (d, n)
/-- The state with a Chord connection replaced. -/
def State.setChd (d : Die) (n : Fin 6) (k : ChordSt) : State := { s with chord := Tbl.set s.chord (d, n) k }
/-- A unit under latency tolerance. -/
def State.unit (u : PUnit) : UnitSt := Tbl.get {} s.units u
/-- The state with a unit replaced. -/
def State.setUnit (u : PUnit) (k : UnitSt) : State := { s with units := Tbl.set s.units u k }
/-- A monitor. -/
def State.mon (m : Mon) : MonSt := Tbl.get {} s.mons m
/-- The state with a monitor replaced. -/
def State.setMon (m : Mon) (k : MonSt) : State := { s with mons := Tbl.set s.mons m k }
/-- A register. -/
def State.reg (r : Reg) : W64 := Tbl.get r.kind.resetValue s.regs r
/-- The state with a register replaced. -/
def State.setReg (r : Reg) (w : W64) : State := { s with regs := Tbl.set s.regs r w }
/-- A counter of a context (R154). -/
def State.counter (c : Cx) (n : Fin 16) : W64 := Tbl.get 0 s.cnt (c, n)
/-- The state with a counter of a context raised; it wraps at 2^64 (R157). -/
def State.count (c : Cx) (n : Fin 16) (k : Nat) : State :=
  { s with cnt := Tbl.set s.cnt (c, n) (s.counter c n + BitVec.ofNat 64 k) }

/-- The state with a context changed by a function. -/
def State.updCtx (c : Cx) (g : Context → Context) : State := s.setCtx c (g (s.ctx c))
/-- The state with a logical core changed by a function. -/
def State.updCore (l : LC) (g : Core → Core) : State := s.setCore l (g (s.core l))
/-- The state with a die changed by a function. -/
def State.updDie (d : Die) (g : DieSt → DieSt) : State := s.setDie d (g (s.die d))

/-- Field [hi:lo] of a register. -/
def State.fget (r : Reg) (hi lo : Nat) : Nat := bits (s.reg r) hi lo
/-- The state with field [hi:lo] of a register set. -/
def State.fset (r : Reg) (hi lo v : Nat) : State := s.setReg r (withBits (s.reg r) hi lo v)
/-- The state with field [hi:lo] of a register raised; it stops at all ones (R136 and the register tables; log entry 11). -/
def State.bump (r : Reg) (hi lo n : Nat) : State :=
  s.fset r hi lo (min (s.fget r hi lo + n) (2 ^ (hi + 1 - lo) - 1))

/-- A message sent outside. -/
def State.emit (m : OutMsg) : State := { s with out := s.out ++ [m] }

/-- A value that the manual does not state (log entry 1). -/
def State.freeVal : W64 := Config.freeValue s.draws
/-- The state after that value has been drawn. -/
def State.drawn : State := { s with draws := s.draws + 1 }

end Access

/-! ## Names of registers -/

/-- A register of the package, or the first of its kind. -/
def rg (k : RegKind) (i : Nat := 0) (j : Nat := 0) : Reg := ⟨k, i, j⟩

/-- The compute die of a logical core (R19). -/
def LC.die (l : LC) : Die := ⟨l.val / 16, by omega⟩
/-- The compute die of a logical core, among the compute dies. -/
def LC.cdie (l : LC) : CDie := ⟨l.val / 16, by omega⟩
/-- A compute die among all dies. -/
def CDie.die (d : CDie) : Die := ⟨d.val, by omega⟩
/-- A base die among all dies. -/
def BDie.die (b : BDie) : Die := ⟨12 + b.val, by omega⟩
/-- The host die. -/
def hd : Die := 16
/-- The base die of a home slice (R323). -/
def Slice.bdie (h : Slice) : BDie := ⟨h.val / 16, by omega⟩
/-- The base die of a stack (R20). -/
def Stack.bdie (j : Stack) : BDie := ⟨j.val / 4, by omega⟩

/-- The vertex ID of this device (R507). -/
def State.vertex (s : State) : Vertex := BitVec.ofNat 12 (s.fget (rg .fctShape) 23 12)

/-- The local part of a physical address. -/
def PAddr.loc (a : PAddr) : LAddr := a.extractLsb' 0 44
/-- The vertex part of a physical address (R374). -/
def PAddr.vertex (a : PAddr) : Vertex := a.extractLsb' 44 12
/-- A physical address from its parts. -/
def mkPA (v : Vertex) (a : LAddr) : PAddr := v ++ a
/-- Whether a physical address is local: its vertex bits equal the device's (R370). -/
def State.isLocal (s : State) (a : PAddr) : Bool := PAddr.vertex a = s.vertex

/-! ## Time (R160) -/

/-- Die-local time. -/
def State.time (s : State) (d : Die) : W64 := (s.die d).time
/-- The die-local time of a logical core's compute die. -/
def State.now (s : State) (l : LC) : W64 := s.time (LC.die l)

/-! ## Error records and interrupts (R593 to R597) -/

/-- Writes an error record: the die gives it its sequence number, its time, its temperature and its supply. It waits in
the holding store of HD; once that is full, a record with action 0x00 or 0x01 is dropped and counted, and any other is kept
by the unit that detected it. -/
def State.logErr (s : State) (d : Die) (r : ErrRec) : State :=
  let k := s.die d
  let r' : ErrRec := { r with
    die := BitVec.ofNat 5 d.val, seqno := k.errSeq, time := k.time, tj := BitVec.ofNat 16 (s.fget (rg .therm d.val) 15 0),
    mv := BitVec.ofNat 16 k.supplyMv, vertex := s.vertex }
  let s := s.setDie d { k with errSeq := k.errSeq + 1 }
  if s.errHeld.length < 256 then { s with errHeld := s.errHeld ++ [r'] }
  else if r.action.toNat ≤ 1 then s.bump (rg .errStatus) 47 32 1
  else { s with errKept := s.errKept ++ [r'] }

/-- Appends a ledger entry to those that wait for an append (R557, R560). -/
def State.ledger (s : State) (e : LedgerEntry) : State :=
  let s := if s.ledgerPending.isEmpty then { s with ledgerSince := s.time hd } else s
  { s with ledgerPending := s.ledgerPending ++ [e] }

/-- The interrupt write of a queue or ring, when it has an address. -/
def State.msi (s : State) (a : W64) (d : W32) : State := if a = 0 then s else s.emit (.msi a d)

/-- The code of a requester (R399). -/
def Requester.code : Requester → W16
  | .ctx c => BitVec.ofNat 16 (0x1000 + 4 * c.lc.val + c.ix.val)
  | .copyEngine e => BitVec.ofNat 16 (0x2000 + e.val)
  | .collective b => BitVec.ofNat 16 (0x3000 + b.val)
  | .hart h => BitVec.ofNat 16 (0x4000 + h.val)
  | .llc x => BitVec.ofNat 16 (0x5000 + x.val)
  | .port p => BitVec.ofNat 16 (0x6000 + p.val)
  | .mgmt m => BitVec.ofNat 16 (0x7000 + m.val)
  | .walker b w => BitVec.ofNat 16 (0x8000 + 16 * b.val + w.val)

/-- CRC-32C of a byte string: polynomial 0x1EDC6F41 reflected, initial value and final inversion all ones (R418, R593;
PRESUMED: the published CRC-32C; log entry 12). -/
def crc32c (bs : List W8) : W32 :=
  let step (c : W32) (_ : Nat) : W32 := if c.getLsbD 0 then (c >>> 1) ^^^ 0x82F63B78 else c >>> 1
  ~~~(bs.foldl (fun c b => (List.range 8).foldl step (c ^^^ b.setWidth 32)) 0xFFFFFFFF)

/-- The 64 bytes of an error record (R593). -/
def ErrRec.bytes (r : ErrRec) : List W8 :=
  let w0 := r.cls.toNat + r.die.toNat * 2 ^ 8 + r.index.toNat * 2 ^ 16 + r.action.toNat * 2 ^ 32 + r.seqno.toNat * 2 ^ 48
  let w3 := r.major.toNat + r.minor.toNat * 2 ^ 8 + r.requester.toNat * 2 ^ 16 + r.stream.toNat * 2 ^ 32
  let w4 := r.tj.toNat + r.mv.toNat * 2 ^ 16 + r.count.toNat * 2 ^ 32 + r.vertex.toNat * 2 ^ 48
  let body := leBytes 8 w0 ++ leBytes 8 r.time.toNat ++ leBytes 8 r.addr.toNat ++ leBytes 8 w3 ++ leBytes 8 w4 ++
    leBytes 8 r.syndrome.toNat ++ leBytes 8 r.pc.toNat ++ leBytes 4 0
  body ++ leBytes 4 (crc32c body).toNat

/-! ## The scratchpad (R117 to R120, R754) -/

/-- Whether a scratchpad word (address / 8) lies wholly in the `n` bytes from `a`. -/
def wordCovered (a n w : Nat) : Bool := decide (a ≤ 8 * w) && decide (8 * w + 8 ≤ a + n)

/-- A write into a scratchpad: a word covered in part that holds an uncorrectable error keeps it and the write to it is
discarded; a word covered whole becomes good (R754). -/
def State.spdWrite (s : State) (a : Nat) (bs : List W8) : State :=
  let n := bs.length
  let m := (List.range n).foldl (fun m i =>
    if (a + i) / 8 ∈ s.badWords && !wordCovered a n ((a + i) / 8) then m
    else Memory.write m (a + i) (bs.getD i 0)) s.mem
  { s with
    mem := m
    badWords := s.badWords.filter fun w => !wordCovered a n w
    softWords := s.softWords.filter fun w => !wordCovered a n w }

/-- Whether a write of `n` bytes at `a` meets a word that R754 leaves uncorrectable. -/
def State.spdDiscards (s : State) (a n : Nat) : Bool :=
  s.badWords.any fun w => decide (a < 8 * w + 8) && decide (8 * w < a + n) && !wordCovered a n w

/-- The first word of `n` bytes at `a` that reads as uncorrectable. -/
def State.spdBad (s : State) (a n : Nat) : Option Nat :=
  s.badWords.find? fun w => decide (a < 8 * w + 8) && decide (8 * w < a + n)

/-- What a read of `n` bytes at `a` does to the error state of the scratchpad: single-bit errors are corrected and counted
(R119); an uncorrectable word is counted and writes an error record (R120). -/
def State.spdTouch (s : State) (a n : Nat) : State :=
  let hit (w : Nat) : Bool := decide (a < 8 * w + 8) && decide (8 * w < a + n)
  let lc := (windowOf a).1
  let ecc := rg .coreSpdEcc lc
  let soft := s.softWords.filter hit
  let s := soft.foldl (fun s w =>
    (((s.bump ecc 15 0 1).fset ecc 51 32 ((windowOf (8 * w)).2 / 8)).logErr (LC.die (Fin.ofNat 192 lc))
      { cls := 0x04, index := BitVec.ofNat 16 lc, action := 0x01, addr := mkPA s.vertex (BitVec.ofNat 44 (8 * w)),
        syndrome := BitVec.ofNat 64 ((windowOf (8 * w)).2 / 8) })) { s with softWords := s.softWords.filter (!hit ·) }
  match s.spdBad a n with
  | none => s
  | some w => ((s.bump ecc 31 16 1).fset ecc 51 32 ((windowOf (8 * w)).2 / 8)).logErr (LC.die (Fin.ofNat 192 lc))
      { cls := 0x04, index := BitVec.ofNat 16 lc, action := 0x00, addr := mkPA s.vertex (BitVec.ofNat 44 (8 * w)),
        syndrome := BitVec.ofNat 64 ((windowOf (8 * w)).2 / 8) }

end Sys2Proof.Machine
end

