-- ==== Sys2Proof/Machine/Lattice.lean ====
section
/-! DEFINITION. The lattice as this vertex sees it: shape, coordinates, which link leads to which vertex, detours and whether
a vertex can be reached (R506 to R516). -/

namespace Sys2Proof.Machine

/-- The size of a dimension (R506). -/
def State.dimSize (s : State) (d : Nat) : Nat := 2 ^ s.fget (rg .fctShape) (3 * d + 2) (3 * d)

/-- The coordinate of a vertex ID in a dimension. -/
def coord (v : Vertex) (d : Nat) : Nat := v.toNat / 16 ^ d % 16

/-- A vertex ID with one coordinate replaced. -/
def withCoord (v : Vertex) (d c : Nat) : Vertex :=
  BitVec.ofNat 12 (v.toNat - coord v d * 16 ^ d + (c % 16) * 16 ^ d)

/-- Whether a vertex is populated (R506). -/
def State.populated (s : State) (v : Vertex) : Bool :=
  decide (coord v 0 < s.dimSize 0) && decide (coord v 1 < s.dimSize 1) && decide (coord v 2 < s.dimSize 2)

/-- The dimension in which a link is used, and whether it is a spare (R507, R508, R510); none for a dark link. -/
def State.linkDim (s : State) (k : Link) : Option (Nat × Bool) :=
  let pop (d : Nat) : Bool := decide (2 ≤ s.dimSize d)
  if 45 ≤ k.val then (if pop (k.val - 45) then some (k.val - 45, true) else none)
  else
    let home := k.val / 15
    if pop home then some (home, false)
    else if home = 1 ∧ pop 0 then some (0, false)
    else if home = 2 then (if pop 1 then some (1, false) else if pop 0 then some (0, false) else none)
    else none

/-- The vertex and the link to which a link leads (R509, R510); none for a dark link. -/
def State.linkPeer (s : State) (k : Link) : Option (Nat × Vertex) :=
  match s.linkDim k with
  | none => none
  | some (d, true) => some (d, withCoord s.vertex d (coord s.vertex d ^^^ (s.dimSize d / 2)))
  | some (d, false) =>
    let n := s.dimSize d
    let same := (List.range 45).filter fun i => s.linkDim (Fin.ofNat 48 i) = some (d, false)
    let j := (same.filter (· < k.val)).length
    if (n - 1) * (same.length / (n - 1)) ≤ j then none
    else some (d, withCoord s.vertex d (coord s.vertex d ^^^ (j % (n - 1) + 1)))

/-- Whether a link carries traffic: it is enabled, has a good lane and is neither failed, miscabled nor dark (R503, R511). -/
def State.linkGood (s : State) (k : Link) : Bool :=
  let r := rg .linkStatus k.val
  s.fget (rg .linkCtl k.val) 0 0 = 1 && s.fget r 1 0 ≠ 0 && s.fget r 2 2 = 0 && s.fget r 4 4 = 0 && s.fget r 5 5 = 0

/-- The links. -/
def allLinks : List Link := List.finRange 48

/-- Whether this vertex has a good link to another (R512). -/
def State.direct (s : State) (v : Vertex) : Bool :=
  allLinks.any fun k => decide (s.fget (rg .linkStatus k.val) 19 8 = v.toNat) && s.linkGood k

/-- Whether the first hop towards a vertex exists, directly or by the detour of its dimension (R513, R515). What lies
beyond the first hop is not in this state (log entry 16). -/
def State.reachable (s : State) (v : Vertex) : Bool :=
  let own := s.vertex
  match ([0, 1, 2] : List Nat).find? fun d => coord v d ≠ coord own d with
  | none => true
  | some d =>
    let peer := withCoord own d (coord v d)
    let via := withCoord own d (bits (s.reg (rg .fctDetour 0 d)) (4 * coord v d + 3) (4 * coord v d))
    s.direct peer || (via ≠ own && s.direct via)

/-- Whether a remote access has a destination (R370). -/
def State.canReach (s : State) (v : Vertex) : Bool := s.populated v && s.reachable v

end Sys2Proof.Machine
end

