-- ==== Sys2Proof/Decode.lean ====
section
/-! DEFINITION. The words of the DTI instructions (R185 to R189 and the rows of the instruction reference): the fields of
each form, which field values an instruction allows, the word of an instruction and the instruction of a word; and the
decoder of the table's bits, of which the table of operations gives none. -/

namespace Sys2Proof

/-! ## The forms (R185, R186) -/

/-- The word of an S-form instruction with these opcodes. -/
def SForm.word (f : SForm) (maj min : W8) : W64 :=
  maj ++ BitVec.ofBool f.pn ++ f.pg ++ min ++ f.d ++ f.x ++ f.y ++ f.z ++ f.mod ++ f.imm16

/-- The word of an I-form instruction with these opcodes. -/
def IForm.word (f : IForm) (maj min : W8) : W64 :=
  maj ++ BitVec.ofBool f.pn ++ f.pg ++ min ++ f.d ++ f.x ++ f.imm34

/-- The word of an M-form instruction with these opcodes. -/
def MForm.word (f : MForm) (maj : W8) (min : BitVec 4) : W64 :=
  maj ++ BitVec.ofBool f.pn ++ f.pg ++ min ++ f.d ++ f.a ++ f.hint ++ f.size ++ f.off32

/-- The word of a T-form instruction with these opcodes. -/
def TForm.word (f : TForm) (maj : W8) (min : BitVec 4) : W64 :=
  maj ++ BitVec.ofBool f.pn ++ f.pg ++ min ++ f.ta ++ f.tb ++ f.acc ++ f.slot ++ f.flags ++ f.chain ++ f.imm16

/-- The word of a B-form instruction with these opcodes. -/
def BForm.word (f : BForm) (maj : W8) (min : BitVec 4) : W64 :=
  maj ++ BitVec.ofBool f.pn ++ f.pg ++ min ++ f.x ++ f.y ++ f.off38

/-- The major opcode, bits [63:56]. -/
def wordMajor (w : W64) : Nat := (w.extractLsb' 56 8).toNat
/-- The minor opcode of the S and I forms, bits [51:44]. -/
def wordMinor8 (w : W64) : Nat := (w.extractLsb' 44 8).toNat
/-- The minor opcode of the M, T and B forms, bits [51:48]. -/
def wordMinor4 (w : W64) : Nat := (w.extractLsb' 48 4).toNat
/-- Bit pn. -/
def wordPn (w : W64) : Bool := w.getLsbD 55
/-- Field pg. -/
def wordPg (w : W64) : BitVec 3 := w.extractLsb' 52 3

/-- The S-form fields of a word. -/
def SForm.ofWord (w : W64) : SForm :=
  ⟨wordPn w, wordPg w, w.extractLsb' 39 5, w.extractLsb' 34 5, w.extractLsb' 29 5, w.extractLsb' 24 5,
    w.extractLsb' 16 8, w.extractLsb' 0 16⟩

/-- The I-form fields of a word. -/
def IForm.ofWord (w : W64) : IForm :=
  ⟨wordPn w, wordPg w, w.extractLsb' 39 5, w.extractLsb' 34 5, w.extractLsb' 0 34⟩

/-- The M-form fields of a word. -/
def MForm.ofWord (w : W64) : MForm :=
  ⟨wordPn w, wordPg w, w.extractLsb' 43 5, w.extractLsb' 39 4, w.extractLsb' 36 3, w.extractLsb' 32 4,
    w.extractLsb' 0 32⟩

/-- The T-form fields of a word. -/
def TForm.ofWord (w : W64) : TForm :=
  ⟨wordPn w, wordPg w, w.extractLsb' 45 3, w.extractLsb' 42 3, w.extractLsb' 40 2, w.extractLsb' 36 4,
    w.extractLsb' 32 4, w.extractLsb' 16 16, w.extractLsb' 0 16⟩

/-- The B-form fields of a word. -/
def BForm.ofWord (w : W64) : BForm :=
  ⟨wordPn w, wordPg w, w.extractLsb' 43 5, w.extractLsb' 38 5, w.extractLsb' 0 38⟩

/-! ## Which field values an instruction allows (R188) -/

/-- R188: pn is not 1 while pg is 0. -/
def predOk (pn : Bool) (pg : BitVec 3) : Bool := !pn || pg ≠ 0

/-- The codes of R182 that a conversion may name (R239). -/
def narrowCode (n : Nat) : Bool := n ∈ [0x02, 0x03, 0x08, 0x09, 0x0A, 0x0B, 0x0C, 0x0D, 0x10, 0x11]

/-- The unused fields y, z, mod and imm16 of an S-form instruction that are zero, as a row of its class asks: `uy`, `uz`
say that the row uses y and z. Its mod and imm16 are checked by the caller. -/
def SForm.unused (f : SForm) (uy uz : Bool) : Bool := (uy || f.y = 0) && (uz || f.z = 0)

/-- S-form rows: R188, R189, R228, R230, R232 to R236, R239, R242, R243. -/
def SForm.legal (f : SForm) (maj min : Nat) : Bool :=
  let plain := f.mod = 0 && f.imm16 = 0
  let vmod := (f.mod = 0 || f.mod = 0x10) && f.imm16 = 0
  predOk f.pn f.pg && match maj with
  | 0x01 => plain && match min with
    | 0x20 => f.unused false false && f.d < 16
    | 0x21 => f.unused false false && f.x < 16
    | 0x22 => f.unused true false && f.d < 16 && f.x < 16
    | _ => f.unused true false
  | 0x03 => plain && match min with
    | 0x03 => true
    | 0x05 | 0x08 | 0x09 => f.unused false false
    | _ => f.unused true false
  | 0x10 => match min with
    | 0x00 | 0x01 | 0x02 | 0x05 | 0x09 | 0x0A => vmod && f.unused true false
    | 0x03 | 0x04 => vmod
    | 0x0F => plain && f.y < 8
    | 0x10 | 0x11 => f.mod = 0 && f.imm16 < 512 && f.unused false false
    | _ => plain && f.unused false false
  | 0x11 => f.unused false false && f.imm16 = 0 && (f.mod = 0x00 || f.mod = 0x10 || f.mod = 0x20)
  | 0x12 => plain && f.unused false false
  | 0x13 => !f.pn && f.pg = 0 && narrowCode f.imm16.toNat && f.z = 0 && match min with
    | 0x00 => f.mod < 16 && f.mod.extractLsb' 0 2 ≠ 2 && f.mod.extractLsb' 0 2 ≠ 3 && (f.y = 0 || 0x10 ≤ f.imm16.toNat)
    | _ => f.mod = 0 && (f.y = 0 || 0x10 ≤ f.imm16.toNat)
  | 0x14 => plain && f.d < 8 && match min with
    | 0x00 | 0x01 | 0x02 | 0x03 => f.unused true false
    | 0x04 | 0x05 | 0x06 => f.unused true false && f.x < 8 && f.y < 8
    | 0x07 => f.unused false false && f.x < 8
    | _ => f.unused false false
  | _ => false

/-- I-form rows: R188, R206, R207, R229, R231, R255, R263. -/
def IForm.legal (f : IForm) (maj min : Nat) : Bool :=
  predOk f.pn f.pg && match maj with
  | 0x02 => match min with
    | 0x04 | 0x05 | 0x06 => f.imm34 < 64
    | 0x07 | 0x08 => f.x = 0
    | 0x09 => f.d < 16 && f.x < 16
    | _ => true
  | 0x08 => match min with
    | 0x01 => f.d = 0 && f.x = 0 && f.imm34 < 128
    | 0x02 => f.d = 0 && f.imm34 = 0
    | _ => f.x = 0 && f.imm34 = 0
  | 0x30 => f.d = 0 && f.x = 0 && f.imm34 < 3
  | 0x48 => f.d = 0 && f.x = 0 && match min with
    | 0x00 => f.imm34 < 0x100000000
    | _ => f.imm34 = 0
  | _ => false

/-- M-form rows: R188, R190, R245 to R250, R254, R259. -/
def MForm.legal (f : MForm) (maj min : Nat) : Bool :=
  predOk f.pn f.pg && f.hint < 4 && match maj with
  | 0x20 => f.size < 4
  | 0x21 => match min with
    | 0x2 | 0x3 => 1 ≤ f.size && f.size < 5
    | 0x7 | 0x8 => f.size = 0 && f.off32 ≤ 252 && f.off32.extractLsb' 0 2 = 0
    | _ => f.size = 0
  | 0x22 => match min with
    | 0x0 => f.size < 4
    | 0xA => (f.size = 2 || f.size = 3) && !f.d.getLsbD 0
    | _ => f.size = 2 || f.size = 3
  | 0x23 => f.size = 0
  | 0x24 => f.size = 0 && f.d < 8
  | 0x31 => f.hint = 0 && match min with
    | 0x0 => f.size = 0
    | 0x1 => f.size < 6
    | _ => f.size = 0 && f.d = 0
  | _ => false

/-- T-form rows: R188, R264, R265, R273, R275, R276. -/
def TForm.legal (f : TForm) (maj min : Nat) : Bool :=
  predOk f.pn f.pg && match maj with
  | 0x49 => f.ta = 0 && f.tb = 0 && f.acc = 0 && f.slot = 0 && f.flags = 0 && f.imm16 = 0
  | 0x50 => f.tb = 0 && f.acc = 0 && f.slot = 0 && f.flags < 2 && f.chain = 0 && f.imm16 = 0
  | 0x51 => f.slot = 0 && f.flags < 2 && f.acc ≠ 3 && (f.tb = 0 || f.acc = 2)
  | 0x52 => f.ta = 0 && f.acc = 0 && f.slot = 0 && f.chain = 0 && match min with
    | 0x0 => f.tb = 0 && f.flags = 0 && f.imm16 = 0
    | _ => f.flags < 4
  | 0x58 => f.ta = 0 && f.tb = 0 && f.acc = 0 && f.flags = 0 && match min with
    | 0x0 => f.chain ≠ 0
    | _ => f.chain = 0 && f.imm16 = 0
  | 0x60 => f.tb = 0 && f.acc = 0 && f.slot = 0 && f.flags ≠ 0 && f.flags < 4 && f.chain < 0x1000
  | 0x61 => f.tb = 0 && f.acc = 0 && f.slot = 0 && f.flags = 0 && f.chain < 0x1000
  | _ => false

/-- B-form rows: R188, R261, R262, R762. -/
def BForm.legal (f : BForm) (maj min : Nat) : Bool :=
  predOk f.pn f.pg && match maj with
  | 0x40 => match min with
    | 0x6 => f.y = 0
    | 0x7 => f.y = 0 && f.off38 = 0
    | 0xF => f.x = 0 && f.y = 0 && f.off38 < 0x10000
    | _ => true
  | 0x41 => f.y = 0 && match min with
    | 0x0 => BitVec.slt 0 f.off38
    | _ => f.x = 0 && f.off38 = 0
  | _ => false

/-! ## Instructions and words -/

/-- The instruction of the S form with a major and a minor opcode (R187 and the tables of R228 to R265). -/
def sCtor : Nat → Nat → Option (Cx → SForm → Instr)
  | 0x01, 0x00 => some .add
  | 0x01, 0x01 => some .sub
  | 0x01, 0x02 => some .mul
  | 0x01, 0x03 => some .mulh
  | 0x01, 0x04 => some .mulhu
  | 0x01, 0x05 => some .divu
  | 0x01, 0x06 => some .remu
  | 0x01, 0x07 => some .and
  | 0x01, 0x08 => some .or
  | 0x01, 0x09 => some .xor
  | 0x01, 0x0A => some .sll
  | 0x01, 0x0B => some .srl
  | 0x01, 0x0C => some .sra
  | 0x01, 0x0D => some .slt
  | 0x01, 0x0E => some .sltu
  | 0x01, 0x0F => some .min
  | 0x01, 0x10 => some .max
  | 0x01, 0x20 => some .mvA
  | 0x01, 0x21 => some .mvS
  | 0x01, 0x22 => some .addA
  | 0x03, 0x00 => some .fadd
  | 0x03, 0x01 => some .fsub
  | 0x03, 0x02 => some .fmul
  | 0x03, 0x03 => some .fma
  | 0x03, 0x04 => some .fdiv
  | 0x03, 0x05 => some .fsqrt
  | 0x03, 0x06 => some .fmin
  | 0x03, 0x07 => some .fmax
  | 0x03, 0x08 => some .fcvtSI
  | 0x03, 0x09 => some .fcvtIS
  | 0x03, 0x0A => some .feq
  | 0x03, 0x0B => some .flt
  | 0x03, 0x0C => some .fle
  | 0x10, 0x00 => some .vadd
  | 0x10, 0x01 => some .vsub
  | 0x10, 0x02 => some .vmul
  | 0x10, 0x03 => some .vfma
  | 0x10, 0x04 => some .vfms
  | 0x10, 0x05 => some .vdiv
  | 0x10, 0x06 => some .vsqrt
  | 0x10, 0x07 => some .vrcp
  | 0x10, 0x08 => some .vrsqrt
  | 0x10, 0x09 => some .vmin
  | 0x10, 0x0A => some .vmax
  | 0x10, 0x0B => some .vabs
  | 0x10, 0x0C => some .vneg
  | 0x10, 0x0D => some .vmov
  | 0x10, 0x0E => some .vbcast
  | 0x10, 0x0F => some .vsel
  | 0x10, 0x10 => some .vext
  | 0x10, 0x11 => some .vins
  | 0x11, 0x00 => some .vrsum
  | 0x11, 0x01 => some .vrmax
  | 0x11, 0x02 => some .vrmin
  | 0x11, 0x03 => some .vrsumsq
  | 0x12, 0x00 => some .vexp2
  | 0x12, 0x01 => some .vlog2
  | 0x12, 0x02 => some .vexp
  | 0x12, 0x03 => some .vlog
  | 0x12, 0x04 => some .vtanh
  | 0x12, 0x05 => some .vsigm
  | 0x12, 0x06 => some .vsilu
  | 0x12, 0x07 => some .vgelu
  | 0x12, 0x08 => some .vsin
  | 0x12, 0x09 => some .vcos
  | 0x13, 0x00 => some .cvtN
  | 0x13, 0x01 => some .cvtW
  | 0x14, 0x00 => some .vcmpEq
  | 0x14, 0x01 => some .vcmpLt
  | 0x14, 0x02 => some .vcmpLe
  | 0x14, 0x03 => some .vcmpUn
  | 0x14, 0x04 => some .pand
  | 0x14, 0x05 => some .por
  | 0x14, 0x06 => some .pxor
  | 0x14, 0x07 => some .pnot
  | 0x14, 0x08 => some .pfirst
  | _, _ => none

/-- The instruction of the I form with a major and a minor opcode (R187 and the tables of R228 to R265). -/
def iCtor : Nat → Nat → Option (Cx → IForm → Instr)
  | 0x02, 0x00 => some .addi
  | 0x02, 0x01 => some .andi
  | 0x02, 0x02 => some .ori
  | 0x02, 0x03 => some .xori
  | 0x02, 0x04 => some .slli
  | 0x02, 0x05 => some .srli
  | 0x02, 0x06 => some .srai
  | 0x02, 0x07 => some .li
  | 0x02, 0x08 => some .lui
  | 0x02, 0x09 => some .addiA
  | 0x08, 0x00 => some .astatRd
  | 0x08, 0x01 => some .astatClr
  | 0x08, 0x02 => some .srseed
  | 0x08, 0x03 => some .srstateRd
  | 0x08, 0x04 => some .timeRd
  | 0x30, 0x00 => some .fenceLd
  | 0x30, 0x01 => some .fenceSt
  | 0x30, 0x02 => some .fenceAll
  | 0x48, 0x00 => some .commit
  | 0x48, 0x01 => some .halt
  | _, _ => none

/-- The instruction of the M form with a major and a minor opcode (R187 and the tables of R228 to R265). -/
def mCtor : Nat → Nat → Option (Cx → MForm → Instr)
  | 0x20, 0x00 => some .ld
  | 0x20, 0x01 => some .lds
  | 0x20, 0x02 => some .st
  | 0x21, 0x00 => some .vld
  | 0x21, 0x01 => some .vst
  | 0x21, 0x02 => some .vldP
  | 0x21, 0x03 => some .vstP
  | 0x21, 0x04 => some .vldS
  | 0x21, 0x05 => some .vstS
  | 0x21, 0x06 => some .vstC
  | 0x21, 0x07 => some .vldAcc
  | 0x21, 0x08 => some .vstAcc
  | 0x22, 0x00 => some .ldV
  | 0x22, 0x01 => some .amoAdd
  | 0x22, 0x02 => some .amoAnd
  | 0x22, 0x03 => some .amoOr
  | 0x22, 0x04 => some .amoXor
  | 0x22, 0x05 => some .amoMin
  | 0x22, 0x06 => some .amoMax
  | 0x22, 0x07 => some .amoMinu
  | 0x22, 0x08 => some .amoMaxu
  | 0x22, 0x09 => some .amoSwap
  | 0x22, 0x0A => some .amoCas
  | 0x23, 0x00 => some .bcpIn
  | 0x23, 0x01 => some .bcpOut
  | 0x23, 0x02 => some .pfOc
  | 0x23, 0x03 => some .pfMsc
  | 0x24, 0x00 => some .tld
  | 0x24, 0x01 => some .tst
  | 0x31, 0x00 => some .flagSet
  | 0x31, 0x01 => some .wait
  | 0x31, 0x02 => some .barArrive
  | _, _ => none

/-- The instruction of the T form with a major and a minor opcode (R187 and the tables of R228 to R265). -/
def tCtor : Nat → Nat → Option (Cx → TForm → Instr)
  | 0x49, 0x00 => some .chainLd
  | 0x49, 0x01 => some .chainRowfix
  | 0x49, 0x02 => some .chainDrop
  | 0x50, 0x00 => some .mmLdwS
  | 0x50, 0x01 => some .mmLdwF
  | 0x51, 0x00 => some .mmPass
  | 0x52, 0x00 => some .mmSwap
  | 0x52, 0x01 => some .mmDrain
  | 0x58, 0x00 => some .slotDef
  | 0x58, 0x01 => some .slotMark
  | 0x58, 0x02 => some .slotRel
  | 0x60, 0x00 => some .fctSend
  | 0x61, 0x00 => some .fctRecv
  | _, _ => none

/-- The instruction of the B form with a major and a minor opcode (R187 and the tables of R228 to R265). -/
def bCtor : Nat → Nat → Option (Cx → BForm → Instr)
  | 0x40, 0x00 => some .beq
  | 0x40, 0x01 => some .bne
  | 0x40, 0x02 => some .blt
  | 0x40, 0x03 => some .bge
  | 0x40, 0x04 => some .bltu
  | 0x40, 0x05 => some .bgeu
  | 0x40, 0x06 => some .jal
  | 0x40, 0x07 => some .jr
  | 0x40, 0x0F => some .brk
  | 0x41, 0x00 => some .loop
  | 0x41, 0x01 => some .lbreak
  | _, _ => none

/-- The 64-bit word of an instruction (R185, R186); none for a command that is no instruction. -/
def dtiWord : Instr → Option W64
  | .add _ f => some (f.word 0x01 0x00)
  | .sub _ f => some (f.word 0x01 0x01)
  | .mul _ f => some (f.word 0x01 0x02)
  | .mulh _ f => some (f.word 0x01 0x03)
  | .mulhu _ f => some (f.word 0x01 0x04)
  | .divu _ f => some (f.word 0x01 0x05)
  | .remu _ f => some (f.word 0x01 0x06)
  | .and _ f => some (f.word 0x01 0x07)
  | .or _ f => some (f.word 0x01 0x08)
  | .xor _ f => some (f.word 0x01 0x09)
  | .sll _ f => some (f.word 0x01 0x0A)
  | .srl _ f => some (f.word 0x01 0x0B)
  | .sra _ f => some (f.word 0x01 0x0C)
  | .slt _ f => some (f.word 0x01 0x0D)
  | .sltu _ f => some (f.word 0x01 0x0E)
  | .min _ f => some (f.word 0x01 0x0F)
  | .max _ f => some (f.word 0x01 0x10)
  | .mvA _ f => some (f.word 0x01 0x20)
  | .mvS _ f => some (f.word 0x01 0x21)
  | .addA _ f => some (f.word 0x01 0x22)
  | .addi _ f => some (f.word 0x02 0x00)
  | .andi _ f => some (f.word 0x02 0x01)
  | .ori _ f => some (f.word 0x02 0x02)
  | .xori _ f => some (f.word 0x02 0x03)
  | .slli _ f => some (f.word 0x02 0x04)
  | .srli _ f => some (f.word 0x02 0x05)
  | .srai _ f => some (f.word 0x02 0x06)
  | .li _ f => some (f.word 0x02 0x07)
  | .lui _ f => some (f.word 0x02 0x08)
  | .addiA _ f => some (f.word 0x02 0x09)
  | .fadd _ f => some (f.word 0x03 0x00)
  | .fsub _ f => some (f.word 0x03 0x01)
  | .fmul _ f => some (f.word 0x03 0x02)
  | .fma _ f => some (f.word 0x03 0x03)
  | .fdiv _ f => some (f.word 0x03 0x04)
  | .fsqrt _ f => some (f.word 0x03 0x05)
  | .fmin _ f => some (f.word 0x03 0x06)
  | .fmax _ f => some (f.word 0x03 0x07)
  | .fcvtSI _ f => some (f.word 0x03 0x08)
  | .fcvtIS _ f => some (f.word 0x03 0x09)
  | .feq _ f => some (f.word 0x03 0x0A)
  | .flt _ f => some (f.word 0x03 0x0B)
  | .fle _ f => some (f.word 0x03 0x0C)
  | .astatRd _ f => some (f.word 0x08 0x00)
  | .astatClr _ f => some (f.word 0x08 0x01)
  | .srseed _ f => some (f.word 0x08 0x02)
  | .srstateRd _ f => some (f.word 0x08 0x03)
  | .timeRd _ f => some (f.word 0x08 0x04)
  | .vadd _ f => some (f.word 0x10 0x00)
  | .vsub _ f => some (f.word 0x10 0x01)
  | .vmul _ f => some (f.word 0x10 0x02)
  | .vfma _ f => some (f.word 0x10 0x03)
  | .vfms _ f => some (f.word 0x10 0x04)
  | .vdiv _ f => some (f.word 0x10 0x05)
  | .vsqrt _ f => some (f.word 0x10 0x06)
  | .vrcp _ f => some (f.word 0x10 0x07)
  | .vrsqrt _ f => some (f.word 0x10 0x08)
  | .vmin _ f => some (f.word 0x10 0x09)
  | .vmax _ f => some (f.word 0x10 0x0A)
  | .vabs _ f => some (f.word 0x10 0x0B)
  | .vneg _ f => some (f.word 0x10 0x0C)
  | .vmov _ f => some (f.word 0x10 0x0D)
  | .vbcast _ f => some (f.word 0x10 0x0E)
  | .vsel _ f => some (f.word 0x10 0x0F)
  | .vext _ f => some (f.word 0x10 0x10)
  | .vins _ f => some (f.word 0x10 0x11)
  | .vrsum _ f => some (f.word 0x11 0x00)
  | .vrmax _ f => some (f.word 0x11 0x01)
  | .vrmin _ f => some (f.word 0x11 0x02)
  | .vrsumsq _ f => some (f.word 0x11 0x03)
  | .vexp2 _ f => some (f.word 0x12 0x00)
  | .vlog2 _ f => some (f.word 0x12 0x01)
  | .vexp _ f => some (f.word 0x12 0x02)
  | .vlog _ f => some (f.word 0x12 0x03)
  | .vtanh _ f => some (f.word 0x12 0x04)
  | .vsigm _ f => some (f.word 0x12 0x05)
  | .vsilu _ f => some (f.word 0x12 0x06)
  | .vgelu _ f => some (f.word 0x12 0x07)
  | .vsin _ f => some (f.word 0x12 0x08)
  | .vcos _ f => some (f.word 0x12 0x09)
  | .cvtN _ f => some (f.word 0x13 0x00)
  | .cvtW _ f => some (f.word 0x13 0x01)
  | .vcmpEq _ f => some (f.word 0x14 0x00)
  | .vcmpLt _ f => some (f.word 0x14 0x01)
  | .vcmpLe _ f => some (f.word 0x14 0x02)
  | .vcmpUn _ f => some (f.word 0x14 0x03)
  | .pand _ f => some (f.word 0x14 0x04)
  | .por _ f => some (f.word 0x14 0x05)
  | .pxor _ f => some (f.word 0x14 0x06)
  | .pnot _ f => some (f.word 0x14 0x07)
  | .pfirst _ f => some (f.word 0x14 0x08)
  | .ld _ f => some (f.word 0x20 0x00)
  | .lds _ f => some (f.word 0x20 0x01)
  | .st _ f => some (f.word 0x20 0x02)
  | .vld _ f => some (f.word 0x21 0x00)
  | .vst _ f => some (f.word 0x21 0x01)
  | .vldP _ f => some (f.word 0x21 0x02)
  | .vstP _ f => some (f.word 0x21 0x03)
  | .vldS _ f => some (f.word 0x21 0x04)
  | .vstS _ f => some (f.word 0x21 0x05)
  | .vstC _ f => some (f.word 0x21 0x06)
  | .vldAcc _ f => some (f.word 0x21 0x07)
  | .vstAcc _ f => some (f.word 0x21 0x08)
  | .ldV _ f => some (f.word 0x22 0x00)
  | .amoAdd _ f => some (f.word 0x22 0x01)
  | .amoAnd _ f => some (f.word 0x22 0x02)
  | .amoOr _ f => some (f.word 0x22 0x03)
  | .amoXor _ f => some (f.word 0x22 0x04)
  | .amoMin _ f => some (f.word 0x22 0x05)
  | .amoMax _ f => some (f.word 0x22 0x06)
  | .amoMinu _ f => some (f.word 0x22 0x07)
  | .amoMaxu _ f => some (f.word 0x22 0x08)
  | .amoSwap _ f => some (f.word 0x22 0x09)
  | .amoCas _ f => some (f.word 0x22 0x0A)
  | .bcpIn _ f => some (f.word 0x23 0x00)
  | .bcpOut _ f => some (f.word 0x23 0x01)
  | .pfOc _ f => some (f.word 0x23 0x02)
  | .pfMsc _ f => some (f.word 0x23 0x03)
  | .tld _ f => some (f.word 0x24 0x00)
  | .tst _ f => some (f.word 0x24 0x01)
  | .fenceLd _ f => some (f.word 0x30 0x00)
  | .fenceSt _ f => some (f.word 0x30 0x01)
  | .fenceAll _ f => some (f.word 0x30 0x02)
  | .flagSet _ f => some (f.word 0x31 0x00)
  | .wait _ f => some (f.word 0x31 0x01)
  | .barArrive _ f => some (f.word 0x31 0x02)
  | .beq _ f => some (f.word 0x40 0x00)
  | .bne _ f => some (f.word 0x40 0x01)
  | .blt _ f => some (f.word 0x40 0x02)
  | .bge _ f => some (f.word 0x40 0x03)
  | .bltu _ f => some (f.word 0x40 0x04)
  | .bgeu _ f => some (f.word 0x40 0x05)
  | .jal _ f => some (f.word 0x40 0x06)
  | .jr _ f => some (f.word 0x40 0x07)
  | .brk _ f => some (f.word 0x40 0x0F)
  | .loop _ f => some (f.word 0x41 0x00)
  | .lbreak _ f => some (f.word 0x41 0x01)
  | .commit _ f => some (f.word 0x48 0x00)
  | .halt _ f => some (f.word 0x48 0x01)
  | .chainLd _ f => some (f.word 0x49 0x00)
  | .chainRowfix _ f => some (f.word 0x49 0x01)
  | .chainDrop _ f => some (f.word 0x49 0x02)
  | .mmLdwS _ f => some (f.word 0x50 0x00)
  | .mmLdwF _ f => some (f.word 0x50 0x01)
  | .mmPass _ f => some (f.word 0x51 0x00)
  | .mmSwap _ f => some (f.word 0x52 0x00)
  | .mmDrain _ f => some (f.word 0x52 0x01)
  | .slotDef _ f => some (f.word 0x58 0x00)
  | .slotMark _ f => some (f.word 0x58 0x01)
  | .slotRel _ f => some (f.word 0x58 0x02)
  | .fctSend _ f => some (f.word 0x60 0x00)
  | .fctRecv _ f => some (f.word 0x61 0x00)
  | .illegalInstruction _ w => some w
  | _ => none

/-- Whether the fields of an instruction meet R188 and the rows of its class; true of a command that is no instruction. -/
def Instr.legal : Instr → Bool
  | .add _ f => f.legal 0x01 0x00
  | .sub _ f => f.legal 0x01 0x01
  | .mul _ f => f.legal 0x01 0x02
  | .mulh _ f => f.legal 0x01 0x03
  | .mulhu _ f => f.legal 0x01 0x04
  | .divu _ f => f.legal 0x01 0x05
  | .remu _ f => f.legal 0x01 0x06
  | .and _ f => f.legal 0x01 0x07
  | .or _ f => f.legal 0x01 0x08
  | .xor _ f => f.legal 0x01 0x09
  | .sll _ f => f.legal 0x01 0x0A
  | .srl _ f => f.legal 0x01 0x0B
  | .sra _ f => f.legal 0x01 0x0C
  | .slt _ f => f.legal 0x01 0x0D
  | .sltu _ f => f.legal 0x01 0x0E
  | .min _ f => f.legal 0x01 0x0F
  | .max _ f => f.legal 0x01 0x10
  | .mvA _ f => f.legal 0x01 0x20
  | .mvS _ f => f.legal 0x01 0x21
  | .addA _ f => f.legal 0x01 0x22
  | .addi _ f => f.legal 0x02 0x00
  | .andi _ f => f.legal 0x02 0x01
  | .ori _ f => f.legal 0x02 0x02
  | .xori _ f => f.legal 0x02 0x03
  | .slli _ f => f.legal 0x02 0x04
  | .srli _ f => f.legal 0x02 0x05
  | .srai _ f => f.legal 0x02 0x06
  | .li _ f => f.legal 0x02 0x07
  | .lui _ f => f.legal 0x02 0x08
  | .addiA _ f => f.legal 0x02 0x09
  | .fadd _ f => f.legal 0x03 0x00
  | .fsub _ f => f.legal 0x03 0x01
  | .fmul _ f => f.legal 0x03 0x02
  | .fma _ f => f.legal 0x03 0x03
  | .fdiv _ f => f.legal 0x03 0x04
  | .fsqrt _ f => f.legal 0x03 0x05
  | .fmin _ f => f.legal 0x03 0x06
  | .fmax _ f => f.legal 0x03 0x07
  | .fcvtSI _ f => f.legal 0x03 0x08
  | .fcvtIS _ f => f.legal 0x03 0x09
  | .feq _ f => f.legal 0x03 0x0A
  | .flt _ f => f.legal 0x03 0x0B
  | .fle _ f => f.legal 0x03 0x0C
  | .astatRd _ f => f.legal 0x08 0x00
  | .astatClr _ f => f.legal 0x08 0x01
  | .srseed _ f => f.legal 0x08 0x02
  | .srstateRd _ f => f.legal 0x08 0x03
  | .timeRd _ f => f.legal 0x08 0x04
  | .vadd _ f => f.legal 0x10 0x00
  | .vsub _ f => f.legal 0x10 0x01
  | .vmul _ f => f.legal 0x10 0x02
  | .vfma _ f => f.legal 0x10 0x03
  | .vfms _ f => f.legal 0x10 0x04
  | .vdiv _ f => f.legal 0x10 0x05
  | .vsqrt _ f => f.legal 0x10 0x06
  | .vrcp _ f => f.legal 0x10 0x07
  | .vrsqrt _ f => f.legal 0x10 0x08
  | .vmin _ f => f.legal 0x10 0x09
  | .vmax _ f => f.legal 0x10 0x0A
  | .vabs _ f => f.legal 0x10 0x0B
  | .vneg _ f => f.legal 0x10 0x0C
  | .vmov _ f => f.legal 0x10 0x0D
  | .vbcast _ f => f.legal 0x10 0x0E
  | .vsel _ f => f.legal 0x10 0x0F
  | .vext _ f => f.legal 0x10 0x10
  | .vins _ f => f.legal 0x10 0x11
  | .vrsum _ f => f.legal 0x11 0x00
  | .vrmax _ f => f.legal 0x11 0x01
  | .vrmin _ f => f.legal 0x11 0x02
  | .vrsumsq _ f => f.legal 0x11 0x03
  | .vexp2 _ f => f.legal 0x12 0x00
  | .vlog2 _ f => f.legal 0x12 0x01
  | .vexp _ f => f.legal 0x12 0x02
  | .vlog _ f => f.legal 0x12 0x03
  | .vtanh _ f => f.legal 0x12 0x04
  | .vsigm _ f => f.legal 0x12 0x05
  | .vsilu _ f => f.legal 0x12 0x06
  | .vgelu _ f => f.legal 0x12 0x07
  | .vsin _ f => f.legal 0x12 0x08
  | .vcos _ f => f.legal 0x12 0x09
  | .cvtN _ f => f.legal 0x13 0x00
  | .cvtW _ f => f.legal 0x13 0x01
  | .vcmpEq _ f => f.legal 0x14 0x00
  | .vcmpLt _ f => f.legal 0x14 0x01
  | .vcmpLe _ f => f.legal 0x14 0x02
  | .vcmpUn _ f => f.legal 0x14 0x03
  | .pand _ f => f.legal 0x14 0x04
  | .por _ f => f.legal 0x14 0x05
  | .pxor _ f => f.legal 0x14 0x06
  | .pnot _ f => f.legal 0x14 0x07
  | .pfirst _ f => f.legal 0x14 0x08
  | .ld _ f => f.legal 0x20 0x00
  | .lds _ f => f.legal 0x20 0x01
  | .st _ f => f.legal 0x20 0x02
  | .vld _ f => f.legal 0x21 0x00
  | .vst _ f => f.legal 0x21 0x01
  | .vldP _ f => f.legal 0x21 0x02
  | .vstP _ f => f.legal 0x21 0x03
  | .vldS _ f => f.legal 0x21 0x04
  | .vstS _ f => f.legal 0x21 0x05
  | .vstC _ f => f.legal 0x21 0x06
  | .vldAcc _ f => f.legal 0x21 0x07
  | .vstAcc _ f => f.legal 0x21 0x08
  | .ldV _ f => f.legal 0x22 0x00
  | .amoAdd _ f => f.legal 0x22 0x01
  | .amoAnd _ f => f.legal 0x22 0x02
  | .amoOr _ f => f.legal 0x22 0x03
  | .amoXor _ f => f.legal 0x22 0x04
  | .amoMin _ f => f.legal 0x22 0x05
  | .amoMax _ f => f.legal 0x22 0x06
  | .amoMinu _ f => f.legal 0x22 0x07
  | .amoMaxu _ f => f.legal 0x22 0x08
  | .amoSwap _ f => f.legal 0x22 0x09
  | .amoCas _ f => f.legal 0x22 0x0A
  | .bcpIn _ f => f.legal 0x23 0x00
  | .bcpOut _ f => f.legal 0x23 0x01
  | .pfOc _ f => f.legal 0x23 0x02
  | .pfMsc _ f => f.legal 0x23 0x03
  | .tld _ f => f.legal 0x24 0x00
  | .tst _ f => f.legal 0x24 0x01
  | .fenceLd _ f => f.legal 0x30 0x00
  | .fenceSt _ f => f.legal 0x30 0x01
  | .fenceAll _ f => f.legal 0x30 0x02
  | .flagSet _ f => f.legal 0x31 0x00
  | .wait _ f => f.legal 0x31 0x01
  | .barArrive _ f => f.legal 0x31 0x02
  | .beq _ f => f.legal 0x40 0x00
  | .bne _ f => f.legal 0x40 0x01
  | .blt _ f => f.legal 0x40 0x02
  | .bge _ f => f.legal 0x40 0x03
  | .bltu _ f => f.legal 0x40 0x04
  | .bgeu _ f => f.legal 0x40 0x05
  | .jal _ f => f.legal 0x40 0x06
  | .jr _ f => f.legal 0x40 0x07
  | .brk _ f => f.legal 0x40 0x0F
  | .loop _ f => f.legal 0x41 0x00
  | .lbreak _ f => f.legal 0x41 0x01
  | .commit _ f => f.legal 0x48 0x00
  | .halt _ f => f.legal 0x48 0x01
  | .chainLd _ f => f.legal 0x49 0x00
  | .chainRowfix _ f => f.legal 0x49 0x01
  | .chainDrop _ f => f.legal 0x49 0x02
  | .mmLdwS _ f => f.legal 0x50 0x00
  | .mmLdwF _ f => f.legal 0x50 0x01
  | .mmPass _ f => f.legal 0x51 0x00
  | .mmSwap _ f => f.legal 0x52 0x00
  | .mmDrain _ f => f.legal 0x52 0x01
  | .slotDef _ f => f.legal 0x58 0x00
  | .slotMark _ f => f.legal 0x58 0x01
  | .slotRel _ f => f.legal 0x58 0x02
  | .fctSend _ f => f.legal 0x60 0x00
  | .fctRecv _ f => f.legal 0x61 0x00
  | _ => true
/-- The form of a major opcode (R187), by the instruction constructors that have it: the instruction of a word with its
fields, whether or not they are allowed. -/
def dtiFields (c : Cx) (w : W64) : Option Instr :=
  let maj := wordMajor w
  match sCtor maj (wordMinor8 w) with
  | some k => some (k c (SForm.ofWord w))
  | none => match iCtor maj (wordMinor8 w) with
    | some k => some (k c (IForm.ofWord w))
    | none => match mCtor maj (wordMinor4 w) with
      | some k => some (k c (MForm.ofWord w))
      | none => match tCtor maj (wordMinor4 w) with
        | some k => some (k c (TForm.ofWord w))
        | none => match bCtor maj (wordMinor4 w) with
          | some k => some (k c (BForm.ofWord w))
          | none => none

/-- The instruction that a 64-bit word stands for in a context; none where R188 makes it `ILLEGAL`. -/
def decodeDti (c : Cx) (w : W64) : Option Instr :=
  match dtiFields c w with
  | some i => if i.legal then some i else none
  | none => none

/-- The table of operations gives no row any bits, so no word of the table's bits spells a command (log entry 9). -/
def decodeTableWord (_nbits _w : Nat) : Option Instr := none

end Sys2Proof
end

