-- ==== Sys2Proof/Machine/Flags.lean ====
section
/-! DEFINITION. Numbers: the formats of R30, exact values, every rounding, and the arithmetic flags that each operation
computes (R26 to R65, R96, R230, R238 to R241, R752, R753). An operation answers its value together with its flags. -/

namespace Sys2Proof.Machine

/-! ## Arithmetic status flags (R64, R178) -/

/-- Invalid operation. -/
def fNv : W32 := 0x01
/-- Zero divisor. -/
def fDz : W32 := 0x02
/-- Overflow. -/
def fOf : W32 := 0x04
/-- Underflow. -/
def fUf : W32 := 0x08
/-- Inexact. -/
def fNx : W32 := 0x10
/-- Saturated. -/
def fSat : W32 := 0x20
/-- A block scale of 0xFF was written. -/
def fMxn : W32 := 0x40

/-- The canonical NaN (R47). -/
def qnan : W32 := 0x7FC00000

/-! ## Values -/

/-- The value of an encoding: NaN, an infinity, or (−1)^neg · m · 2^e. -/
inductive Num where
  | nan (signalling : Bool)
  | inf (neg : Bool)
  | fin (neg : Bool) (m : Nat) (e : Int)
  deriving DecidableEq, Repr

/-- How a format uses its top encodings (R30): as IEEE 754 does, as E4M3 does, not at all, or two's complement. -/
inductive Tops where
  | ieee | e4m3 | none | int8
  deriving DecidableEq, Repr

/-- An element format: width in bits, exponent and fraction widths, bias, top encodings, the largest finite pattern
(R30), and the largest exponent of R56. -/
structure Elem where
  width : Nat
  eb : Nat
  mb : Nat
  bias : Int
  tops : Tops
  maxMag : Nat
  emax : Int
  deriving DecidableEq, Repr

/-- FP32. -/
def elFp32 : Elem := ⟨32, 8, 23, 127, .ieee, 0x7F7FFFFF, 127⟩
/-- The element format of a format code (R30, R182). -/
def elemOf (code : Nat) : Elem :=
  if code = 0x02 then ⟨16, 8, 7, 127, .ieee, 0x7F7F, 127⟩
  else if code = 0x03 then ⟨16, 5, 10, 15, .ieee, 0x7BFF, 15⟩
  else if code = 0x08 ∨ code = 0x10 then ⟨8, 4, 3, 7, .e4m3, 0x7E, 8⟩
  else if code = 0x09 ∨ code = 0x11 then ⟨8, 5, 2, 15, .ieee, 0x7B, 15⟩
  else if code = 0x0A then ⟨6, 2, 3, 1, .none, 0x1F, 2⟩
  else if code = 0x0B then ⟨6, 3, 2, 3, .none, 0x1F, 4⟩
  else if code = 0x0C then ⟨4, 2, 1, 1, .none, 0x07, 2⟩
  else if code = 0x0D then ⟨8, 0, 0, 0, .int8, 0x7F, 0⟩
  else elFp32

/-- Whether a format code is an MX format (R182: one E8M0 scale per 32 elements). -/
def isMx (code : Nat) : Bool := 0x08 ≤ code ∧ code ≤ 0x0D
/-- Whether a format code is OFP8 with a per-tensor scale. -/
def isOfp8 (code : Nat) : Bool := code = 0x10 ∨ code = 0x11

/-- The value of an encoding of a format. -/
def Elem.decode (f : Elem) (b : Nat) : Num :=
  match f.tops with
  | .int8 => if b < 128 then .fin false b (-6) else .fin true (256 - b) (-6)
  | t =>
    let neg := b / 2 ^ (f.eb + f.mb) % 2 = 1
    let ex := b / 2 ^ f.mb % 2 ^ f.eb
    let fr := b % 2 ^ f.mb
    if t = .ieee ∧ ex = 2 ^ f.eb - 1 then (if fr = 0 then .inf neg else .nan (decide (fr < 2 ^ (f.mb - 1))))
    else if t = .e4m3 ∧ b % 128 = 0x7F then .nan false
    else if ex = 0 then .fin neg fr (1 - f.bias - f.mb)
    else .fin neg (2 ^ f.mb + fr) (Int.ofNat ex - f.bias - f.mb)

/-- The value of an FP32 pattern. -/
def num32 (w : W32) : Num := elFp32.decode w.toNat

/-- The value times 2^k. -/
def Num.scale (k : Int) : Num → Num
  | .fin s m e => .fin s m (e + k)
  | v => v

/-- `nv` when a NaN among the values is signalling (R65). -/
def snanFlag (vs : List Num) : W32 := if vs.any (· = .nan true) then fNv else 0

/-- Whether the value is NaN. -/
def Num.isNan : Num → Bool
  | .nan _ => true
  | _ => false

/-! ## Rounding -/

/-- `m / 2^k` rounded to nearest, ties to even; and whether it is inexact. -/
def rneShift (m k : Nat) : Nat × Bool :=
  let lo := m / 2 ^ k
  let r := m % 2 ^ k
  (if 2 ^ k < 2 * r ∨ (2 * r = 2 ^ k ∧ lo % 2 = 1) then lo + 1 else lo, decide (r ≠ 0))

/-- `m / 2^k` rounded by a draw (R58); and whether it is inexact. -/
def srShift (draw : W32) (m k : Nat) : Nat × Bool :=
  let lo := m / 2 ^ k
  let r := m % 2 ^ k
  (if draw.toNat < r * 2 ^ 32 / 2 ^ k then lo + 1 else lo, decide (r ≠ 0))

/-- The value `m · 2^e` as a multiple `n` of the quantum `2^q` of a format with `p` significand bits and smallest quantum
`2^emin`, rounded to nearest or by a draw; and whether it is inexact. -/
def toGrid (p : Nat) (emin : Int) (draw : Option W32) (m : Nat) (e : Int) : Nat × Int × Bool :=
  let q := max (Int.ofNat (Nat.log2 m) + e - (Int.ofNat p - 1)) emin
  if q ≤ e then (m * 2 ^ (e - q).toNat, q, false)
  else
    let r := match draw with
      | none => rneShift m (q - e).toNat
      | some d => srShift d m (q - e).toNat
    (r.1, q, r.2)

/-- The sign bit of an FP32 pattern. -/
def sign32 (neg : Bool) : W32 := if neg then 0x80000000 else 0

/-- An exact value rounded to FP32 with round-to-nearest-even and gradual underflow, with `of`, `uf` and `nx` (R28, R64). -/
def round32 (neg : Bool) (m : Nat) (e : Int) : W32 × W32 :=
  if m = 0 then (sign32 neg, 0)
  else
    let g := toGrid 24 (-149) none m e
    let mag := (g.2.1 + 149).toNat * 2 ^ 23 + g.1
    if 0x7F800000 ≤ mag then (sign32 neg ||| 0x7F800000, fOf ||| fNx)
    else (sign32 neg ||| BitVec.ofNat 32 mag,
      if g.2.2 then (if mag < 2 ^ 23 then fNx ||| fUf else fNx) else 0)

/-! ## Exact values -/

/-- An exact value m · 2^e. -/
structure Dy where
  m : Int
  e : Int
  deriving DecidableEq, Repr

/-- Zero. -/
def Dy.zero : Dy := ⟨0, 0⟩
/-- The sum of two exact values. -/
def Dy.add (x y : Dy) : Dy :=
  if x.m = 0 then y
  else if y.m = 0 then x
  else
    let e := min x.e y.e
    ⟨x.m * 2 ^ (x.e - e).toNat + y.m * 2 ^ (y.e - e).toNat, e⟩
/-- The product of two exact values. -/
def Dy.mul (x y : Dy) : Dy := ⟨x.m * y.m, x.e + y.e⟩
/-- The absolute value. -/
def Dy.abs (x : Dy) : Dy := ⟨Int.ofNat x.m.natAbs, x.e⟩
/-- The negation. -/
def Dy.neg (x : Dy) : Dy := ⟨-x.m, x.e⟩
/-- Whether the value is greater than another. -/
def Dy.gt (x y : Dy) : Bool := 0 < (Dy.add x (Dy.neg y)).m
/-- The exact value of a finite number. -/
def Num.dy : Num → Dy
  | .fin s m e => ⟨if s then -(Int.ofNat m) else Int.ofNat m, e⟩
  | _ => Dy.zero
/-- An exact value rounded to FP32; a zero takes the sign given. -/
def Dy.round (x : Dy) (zneg : Bool) : W32 × W32 :=
  round32 (if x.m = 0 then zneg else decide (x.m < 0)) x.m.natAbs x.e

/-- Σ of values, exact and rounded once (R96): NaN and infinities enter as R96 states. -/
def sumRound (vs : List Num) : W32 :=
  let pos := vs.any (· = .inf false)
  let neg := vs.any (· = .inf true)
  if vs.any Num.isNan || (pos && neg) then qnan
  else if pos then 0x7F800000
  else if neg then 0xFF800000
  else ((vs.map Num.dy).foldl Dy.add Dy.zero).round false |>.1

/-! ## FP32 operations (R28, R47, R64, R65, R230) -/

/-- x + y. -/
def fAdd (x y : W32) : W32 × W32 :=
  match num32 x, num32 y with
  | .nan a, .nan b => (qnan, snanFlag [.nan a, .nan b])
  | .nan a, _ => (qnan, snanFlag [.nan a])
  | _, .nan b => (qnan, snanFlag [.nan b])
  | .inf a, .inf b => if a = b then (x, 0) else (qnan, fNv)
  | .inf _, _ => (x, 0)
  | _, .inf _ => (y, 0)
  | .fin a m e, .fin b n g => (Dy.add (Num.dy (.fin a m e)) (Num.dy (.fin b n g))).round (a && b)

/-- −x, as a move of bits. -/
def fNeg (x : W32) : W32 := x ^^^ 0x80000000

/-- x − y. -/
def fSub (x y : W32) : W32 × W32 := fAdd x (fNeg y)

/-- x × y. -/
def fMul (x y : W32) : W32 × W32 :=
  match num32 x, num32 y with
  | .nan a, .nan b => (qnan, snanFlag [.nan a, .nan b])
  | .nan a, _ => (qnan, snanFlag [.nan a])
  | _, .nan b => (qnan, snanFlag [.nan b])
  | .inf a, .inf b => (sign32 (a != b) ||| 0x7F800000, 0)
  | .inf a, .fin b n _ => if n = 0 then (qnan, fNv) else (sign32 (a != b) ||| 0x7F800000, 0)
  | .fin a m _, .inf b => if m = 0 then (qnan, fNv) else (sign32 (a != b) ||| 0x7F800000, 0)
  | .fin a m e, .fin b n g => round32 (a != b) (m * n) (e + g)

/-- The exact product of two values, and whether it is infinity times zero. -/
def numMul : Num → Num → Num × Bool
  | .nan a, .nan b => (.nan (a || b), false)
  | .nan a, _ => (.nan a, false)
  | _, .nan b => (.nan b, false)
  | .inf a, .inf b => (.inf (a != b), false)
  | .inf a, .fin b n _ => if n = 0 then (.nan false, true) else (.inf (a != b), false)
  | .fin a m _, .inf b => if m = 0 then (.nan false, true) else (.inf (a != b), false)
  | .fin a m e, .fin b n g => (.fin (a != b) (m * n) (e + g), false)

/-- x × y + z with one rounding. Infinity times zero sets `nv` whatever z is (DEDUCED from R64; log entry 13). -/
def fFma (x y z : W32) : W32 × W32 :=
  let p := numMul (num32 x) (num32 y)
  let fl := snanFlag [num32 x, num32 y, num32 z] ||| (if p.2 then fNv else 0)
  match p.1, num32 z with
  | .nan _, _ => (qnan, fl)
  | _, .nan _ => (qnan, fl)
  | .inf a, .inf b => if a = b then (z, 0) else (qnan, fNv)
  | .inf a, _ => (sign32 a ||| 0x7F800000, 0)
  | _, .inf _ => (z, 0)
  | .fin a m e, .fin b n g => (Dy.add (Num.dy (.fin a m e)) (Num.dy (.fin b n g))).round (a && b)

/-- x / y, correctly rounded; a finite nonzero x over zero sets `dz` (R64, R233; log entry 13). -/
def fDiv (x y : W32) : W32 × W32 :=
  match num32 x, num32 y with
  | .nan a, .nan b => (qnan, snanFlag [.nan a, .nan b])
  | .nan a, _ => (qnan, snanFlag [.nan a])
  | _, .nan b => (qnan, snanFlag [.nan b])
  | .inf _, .inf _ => (qnan, fNv)
  | .inf a, .fin b _ _ => (sign32 (a != b) ||| 0x7F800000, 0)
  | .fin a _ _, .inf b => (sign32 (a != b), 0)
  | .fin a m e, .fin b n g =>
    if n = 0 then (if m = 0 then (qnan, fNv) else (sign32 (a != b) ||| 0x7F800000, fDz))
    else round32 (a != b) (2 * (m * 2 ^ 64 / n) + (if m * 2 ^ 64 % n = 0 then 0 else 1)) (e - g - 65)

/-- The integer square root of a number below 2^96. -/
def isqrt (n : Nat) : Nat :=
  (List.range 50).foldl (fun r i => if (r + 2 ^ (49 - i)) * (r + 2 ^ (49 - i)) ≤ n then r + 2 ^ (49 - i) else r) 0

/-- √x, correctly rounded. -/
def fSqrt (x : W32) : W32 × W32 :=
  match num32 x with
  | .nan a => (qnan, snanFlag [.nan a])
  | .inf a => if a then (qnan, fNv) else (x, 0)
  | .fin a m e =>
    if m = 0 then (x, 0)
    else if a then (qnan, fNv)
    else
      let k : Int := if e % 2 = 0 then 64 else 65
      let n := m * 2 ^ k.toNat
      let r := isqrt n
      round32 false (2 * r + (if r * r = n then 0 else 1)) ((e - k) / 2 - 1)

/-- The order of the values of FP32 patterns, as an integer: −0 equals +0. -/
def key32 (x : W32) : Int :=
  if x.getLsbD 31 then -(Int.ofNat (x.extractLsb' 0 31).toNat) else Int.ofNat (x.extractLsb' 0 31).toNat

/-- Whether a pattern is NaN. -/
def isNan32 (x : W32) : Bool := (num32 x).isNan

/-- Minimum with −0 below +0; one NaN yields the other operand, two the canonical NaN (R230). -/
def fMin (x y : W32) : W32 × W32 :=
  let fl := snanFlag [num32 x, num32 y]
  if isNan32 x then (if isNan32 y then (qnan, fl) else (y, fl))
  else if isNan32 y then (x, fl)
  else if key32 x < key32 y ∨ (key32 x = key32 y ∧ x.getLsbD 31) then (x, fl) else (y, fl)

/-- Maximum, with the NaN rule of `fMin`. -/
def fMax (x y : W32) : W32 × W32 :=
  let fl := snanFlag [num32 x, num32 y]
  if isNan32 x then (if isNan32 y then (qnan, fl) else (y, fl))
  else if isNan32 y then (x, fl)
  else if key32 y < key32 x ∨ (key32 x = key32 y ∧ y.getLsbD 31) then (x, fl) else (y, fl)

/-- x = y; only a signalling NaN sets `nv` (R65, R230). -/
def fEq (x y : W32) : Bool × W32 :=
  (!isNan32 x && !isNan32 y && key32 x = key32 y, snanFlag [num32 x, num32 y])

/-- x < y; any NaN sets `nv`. -/
def fLt (x y : W32) : Bool × W32 :=
  if isNan32 x || isNan32 y then (false, fNv) else (decide (key32 x < key32 y), 0)

/-- x ≤ y; any NaN sets `nv`. -/
def fLe (x y : W32) : Bool × W32 :=
  if isNan32 x || isNan32 y then (false, fNv) else (decide (key32 x ≤ key32 y), 0)

/-- Either operand is NaN; a signalling one sets `nv` (R65). -/
def fUn (x y : W32) : Bool × W32 := (isNan32 x || isNan32 y, snanFlag [num32 x, num32 y])

/-- A signed 64-bit integer as FP32 (R230). -/
def fFromInt (w : W64) : W32 × W32 := (⟨w.toInt, 0⟩ : Dy).round false

/-- FP32 as a signed 64-bit integer, toward zero and saturated (R230). -/
def fToInt (x : W32) : W64 × W32 :=
  match num32 x with
  | .nan _ => (0, fNv)
  | .inf a => (if a then 0x8000000000000000 else 0x7FFFFFFFFFFFFFFF, fNv)
  | .fin a m e =>
    let t : Nat := if 0 ≤ e then m * 2 ^ e.toNat else m / 2 ^ (-e).toNat
    let frac : Bool := e < 0 ∧ m % 2 ^ (-e).toNat ≠ 0
    if a then (if 2 ^ 63 < t then (0x8000000000000000, fNv) else (BitVec.ofInt 64 (-(Int.ofNat t)), if frac then fNx else 0))
    else (if 2 ^ 63 ≤ t then (0x7FFFFFFFFFFFFFFF, fNv) else (BitVec.ofNat 64 t, if frac then fNx else 0))

/-! ## Fixed functions (R236 to R238, R753) -/

/-- The fixed functions, by number: 0 to 9 the minors of R236, 10 `vrcp`, 11 `vrsqrt`. The special inputs of R238 give
their stated results; every other input gives the value that the reference model fixes, with the flags of R753. -/
def vfun (n : Nat) (x : W32) : W32 × W32 :=
  let one : W32 := 0x3F800000
  let other : W32 × W32 :=
    match Config.vfuncOver n x with
    | some neg => (sign32 neg ||| 0x7F800000, fOf ||| fNx)
    | none =>
      let r := Config.vfunc n x
      (r, if Config.vfuncExact n x then 0 else if r.extractLsb' 0 31 < 0x800000#31 then fNx ||| fUf else fNx)
  match num32 x with
  | .nan a => (qnan, snanFlag [.nan a])
  | .inf a =>
    if n = 0 ∨ n = 2 then (if a then 0 else x, 0)
    else if n = 1 ∨ n = 3 then (if a then (qnan, fNv) else (x, 0))
    else if n = 4 then (sign32 a ||| one, 0)
    else if n = 5 then (if a then 0 else one, 0)
    else if n = 6 ∨ n = 7 then (if a then 0x80000000 else x, 0)
    else if n = 8 ∨ n = 9 then (qnan, fNv)
    else if n = 10 then (sign32 a, 0)
    else if a then (qnan, fNv) else (0, 0)
  | .fin a m _ =>
    if m = 0 then
      if n = 0 ∨ n = 2 then (one, 0)
      else if n = 1 ∨ n = 3 then (0xFF800000, fDz)
      else if n = 5 then (0x3F000000, 0)
      else if n = 9 then (one, 0)
      else if n = 10 ∨ n = 11 then (sign32 a ||| 0x7F800000, fDz)
      else (x, 0)
    else if (n = 1 ∨ n = 3) ∧ a then (qnan, fNv)
    else if (n = 1 ∨ n = 3) ∧ x = one then (0, 0)
    else if (n = 8 ∨ n = 9) ∧ key32 0x47800000 < (Int.ofNat (x.extractLsb' 0 31).toNat) then (qnan, fNv)
    else if n = 11 ∧ a then (qnan, fNv)
    else other

/-! ## Packing (R34, R35, R240) -/

/-- Codes of a width packed as a little-endian bit string. -/
def packBits (width : Nat) (codes : List Nat) : List W8 :=
  leBytes (codes.length * width / 8) (codes.foldr (fun c n => c + 2 ^ width * n) 0)

/-- `n` codes of a width from a little-endian bit string. -/
def unpackBits (width n : Nat) (bs : List W8) : List Nat :=
  let v := leNat bs
  (List.range n).map fun i => v / 2 ^ (width * i) % 2 ^ width

/-! ## Conversions out of FP32 (R52 to R58, R752) -/

/-- The outcome of one element: a code, or the block scale 0xFF. -/
inductive Narrowed where
  | code (c : Nat)
  | block
  deriving DecidableEq, Repr

/-- One value converted into an element format, in saturate or infinity mode (R54, R752). -/
def narrow (f : Elem) (sat : Bool) (draw : Option W32) (v : Num) : Narrowed × W32 :=
  let signed (neg : Bool) (mag : Nat) : Nat :=
    if f.tops = .int8 then (if neg ∧ mag ≠ 0 then 256 - mag else mag)
    else if neg then 2 ^ (f.width - 1) + mag else mag
  match v with
  | .nan sg =>
    let s := if sg then fNv else 0
    match f.tops with
    | .ieee => (.code (f.maxMag + 1 + 2 ^ (f.mb - 1)), s)
    | .e4m3 => (.code 0x7F, s)
    | _ => (.block, fMxn ||| s)
  | .inf neg =>
    if sat then (.code (signed neg f.maxMag), fSat)
    else match f.tops with
    | .ieee => (.code (signed neg (f.maxMag + 1)), 0)
    | .e4m3 => (.code 0x7F, fNv)
    | _ => (.block, fNv ||| fMxn)
  | .fin neg m e =>
    if m = 0 then (.code (signed neg 0), 0)
    else
      let g := if f.tops = .int8 then
          (if -6 ≤ e then (m * 2 ^ (e + 6).toNat, (-6 : Int), false)
           else
            let r := match draw with
              | none => rneShift m (-6 - e).toNat
              | some d => srShift d m (-6 - e).toNat
            (r.1, (-6 : Int), r.2))
        else toGrid (f.mb + 1) (1 - f.bias - f.mb) draw m e
      let mag := if f.tops = .int8 then g.1 else (g.2.1 - (1 - f.bias - f.mb)).toNat * 2 ^ f.mb + g.1
      if f.maxMag < mag then
        if sat ∨ f.tops = .none ∨ f.tops = .int8 then (.code (signed neg f.maxMag), fOf ||| fSat ||| fNx)
        else if f.tops = .ieee then (.code (signed neg (f.maxMag + 1)), fOf ||| fNx)
        else (.code 0x7F, fOf ||| fNv ||| fNx)
      else
        let tiny : Bool := if f.tops = .int8 then mag = 0 else mag < 2 ^ f.mb
        (.code (signed neg mag), if g.2.2 then (if tiny then fNx ||| fUf else fNx) else 0)

/-- floor(log2 |v|) of the nonzero finite values of a list, the largest; none without one. -/
def maxLog2 (vs : List Num) : Option Int :=
  vs.foldl (fun acc v => match v with
    | .fin _ m e => if m = 0 then acc else
        let l := Int.ofNat (Nat.log2 m) + e
        match acc with
        | none => some l
        | some a => some (max a l)
    | _ => acc) none

/-- 32 values converted into one MX block: the scale byte, the codes, the flags (R56, R57, R752). `draws` holds one draw an
element in stochastic rounding, and is empty otherwise. -/
def mxBlock (f : Elem) (sat : Bool) (draws : List W32) (vs : List Num) : Nat × List Nat × W32 :=
  let zeros := List.replicate 32 0
  if vs.any Num.isNan then (0xFF, zeros, fMxn ||| snanFlag vs)
  else if !sat && (f.tops = .none || f.tops = .int8) && vs.any (fun v => v = .inf false ∨ v = .inf true) then
    (0xFF, zeros, fNv ||| fMxn)
  else
    let big (v : Num) : Num := match v with
      | .inf neg => if sat then .fin neg (2 ^ 24 - 1) 104 else v
      | _ => v
    let x : Int := match maxLog2 (vs.map big) with
      | none => -127
      | some l => max (-127) (min 127 (l - f.emax))
    let out := (List.range 32).map fun i =>
      let v := vs.getD i (.fin false 0 0)
      match v, sat with
      | .inf _, true => ((narrow f true (draws[i]?) v).1, fSat)
      | _, _ => narrow f sat (draws[i]?) (v.scale (-x))
    ((x + 127).toNat, out.map (fun o => match o.1 with | .code c => c | .block => 0),
      out.foldl (fun a o => a ||| o.2) 0)

/-- The next generator state, which is also the draw (R61). -/
def srNext (s : W32) : W32 :=
  let s := s ^^^ (s <<< 13)
  let s := s ^^^ (s >>> 17)
  s ^^^ (s <<< 5)

/-- `n` draws, with the state after them. -/
def srDraws : Nat → W32 → List W32 × W32
  | 0, s => ([], s)
  | n + 1, s => let s' := srNext s; let r := srDraws n s'; (s' :: r.1, r.2)

/-- What a conversion of a row of FP32 values writes: the codes, one scale byte a block (MX only), the value that each code
represents (R241), and the flags. -/
structure Converted where
  codes : List Nat
  scales : List Nat
  values : List Num
  flags : W32
  deriving DecidableEq, Repr

/-- FP32 values converted into a format (R36, R52 to R57): `tscale` is the per-tensor scale of OFP8. The values fill whole
blocks of 32. -/
def convert (code tscale : Nat) (sat : Bool) (draws : List W32) (vs : List Num) : Converted :=
  let f := elemOf code
  if isMx code then
    let blocks := (List.range (vs.length / 32)).map fun b =>
      mxBlock f sat ((draws.drop (32 * b)).take 32) ((vs.drop (32 * b)).take 32)
    let vals := blocks.flatMap fun b => b.2.1.map fun c =>
      if b.1 = 0xFF then .nan false else (f.decode c).scale (Int.ofNat b.1 - 127)
    ⟨blocks.flatMap (·.2.1), blocks.map (·.1), vals, blocks.foldl (fun a b => a ||| b.2.2) 0⟩
  else if isOfp8 code && tscale = 0xFF then
    ⟨vs.map fun _ => if code = 0x10 then 0x7F else 0x7E, [], vs.map fun _ => .nan false, fNv⟩
  else
    let x : Int := if isOfp8 code then Int.ofNat tscale - 127 else 0
    let out := (List.range vs.length).map fun i => narrow f sat (draws[i]?) ((vs.getD i (.fin false 0 0)).scale (-x))
    let codes := out.map fun o => match o.1 with | .code c => c | .block => 0
    ⟨codes, [], codes.map fun c => (f.decode c).scale x, out.foldl (fun a o => a ||| o.2) 0⟩

/-- A value widened to FP32 exactly; a magnitude of 2^128 or more becomes the infinity of its sign and sets `of`, and `nx` as
a finite value that overflows to infinity does (R51, R239, R752). -/
def widen (v : Num) : W32 × W32 :=
  match v with
  | .nan sg => (qnan, if sg then fNv else 0)
  | .inf a => (sign32 a ||| 0x7F800000, 0)
  | .fin a m e => if m ≠ 0 ∧ 128 ≤ Int.ofNat (Nat.log2 m) + e then (sign32 a ||| 0x7F800000, fOf ||| fNx)
    else ((round32 a m e).1, 0)

/-! ## Block sums (R37 to R46) -/

/-- The block sum of 32 pairs of element values with two scale bytes, and the flags it sets. -/
def blockSum (as bs : List Num) (sa sb : Nat) : W32 × W32 :=
  let ps := (as.zip bs).map fun p => numMul p.1 p.2
  let pos := ps.any (·.1 = .inf false)
  let neg := ps.any (·.1 = .inf true)
  let fl := snanFlag (as ++ bs) ||| (if ps.any (·.2) || (pos && neg) then fNv else 0)
  if sa = 0xFF ∨ sb = 0xFF ∨ ps.any (·.1.isNan) ∨ (pos && neg) then (qnan, fl)
  else if pos then (0x7F800000, fl)
  else if neg then (0xFF800000, fl)
  else match maxLog2 (ps.map (·.1)) with
    | none => (0, fl)
    | some e =>
      let lo := e - 105
      let ts := ps.map fun p => match p.1 with
        | .fin s m g =>
          let n := if lo ≤ g then m * 2 ^ (g - lo).toNat else m / 2 ^ (lo - g).toNat
          (if s then -(Int.ofNat n) else Int.ofNat n, decide (g < lo ∧ m % 2 ^ (lo - g).toNat ≠ 0))
        | _ => ((0 : Int), false)
      let sum := ts.foldl (fun a t => a + t.1) 0
      let r := (⟨sum, lo + (Int.ofNat sa - 127) + (Int.ofNat sb - 127)⟩ : Dy).round false
      (r.1, fl ||| r.2 ||| (if ts.any (·.2) then fNx else 0))

end Sys2Proof.Machine
end

