-- ==== Sys2Proof/Machine/Operands.lean ====
section
/-! DEFINITION. The operands of the DTI instructions and the frame in which every one of them runs: registers and predicates
(R176, R177, R191 to R193), issue (R95, R114, R129), completion and loop ends (R262, R762), exceptions (R194 to R196), and
the journal (R211 to R215). -/

namespace Sys2Proof.Machine

/-! ## Registers of a context (R176, R177) -/

section Regs
variable (k : Context)

/-- A scalar register; s0 reads as zero. -/
def Context.sget (i : BitVec 5) : W64 := if i = 0 then 0 else Tbl.get 0 k.s i
/-- A scalar register written; a write to s0 is discarded. -/
def Context.sset (i : BitVec 5) (w : W64) : Context := if i = 0 then k else { k with s := Tbl.set k.s i w }
/-- An address register. -/
def Context.aget (i : BitVec 4) : W64 := Tbl.get 0 k.a i
/-- An address register written, sign-extended from bit 56. -/
def Context.aset (i : BitVec 4) (w : W64) : Context := { k with a := Tbl.set k.a i (sext57 w) }
/-- Lane `i` of a predicate register; p0 reads as all ones. -/
def Context.plane (r : BitVec 3) (i : Nat) : Bool := if r = 0 then true else (Tbl.get [] k.p r).getD i false
/-- A predicate register written; a write to p0 is discarded. -/
def Context.pset (r : BitVec 3) (v : List Bool) : Context := if r = 0 then k else { k with p := Tbl.set k.p r v }
/-- Lane `i` of a vector register. -/
def Context.vlane (r : BitVec 5) (i : Nat) : W32 := (Tbl.get [] k.v r).getD i 0
/-- A vector register written. -/
def Context.vset (r : BitVec 5) (v : List W32) : Context := { k with v := Tbl.set k.v r v }
/-- A tile descriptor register. -/
def Context.tget (i : BitVec 3) : TileDesc := Tbl.get {} k.t i
/-- A tile descriptor register written. -/
def Context.tset (i : BitVec 3) (d : TileDesc) : Context := { k with t := Tbl.set k.t i d }
/-- A staging slot. -/
def Context.slot (i : BitVec 4) : Slot := Tbl.get {} k.slots i
/-- A staging slot written. -/
def Context.setSlot (i : BitVec 4) (x : Slot) : Context := { k with slots := Tbl.set k.slots i x }
/-- astat with flags raised (R64, R66). -/
def Context.raiseFlags (fl : W32) : Context := { k with astat := k.astat ||| fl }
/-- The predicate of an instruction in lane `i` (R191). -/
def Context.pred (pn : Bool) (pg : BitVec 3) (i : Nat) : Bool := k.plane pg i != pn

end Regs

/-- 512 lanes from a function of the lane. -/
def lanes {α : Type} (g : Nat → α) : List α := (List.range 512).map g

/-! ## The current committed copy (R199 to R203) -/

/-- The address of committed copy 0 or 1 of a context. -/
def copyBase (c : Cx) (second : Bool) : Nat := snapBase c + (if second then 0x7800 else 0)
/-- Whether copy 1 is current: the copy whose epoch is the larger (R203). -/
def State.currentIsSecond (s : State) (c : Cx) : Bool :=
  (s.peek64 (copyBase c false)).toNat < (s.peek64 (copyBase c true)).toNat
/-- The epoch of the current committed copy. -/
def State.epoch (s : State) (c : Cx) : W64 := s.peek64 (copyBase c (s.currentIsSecond c))

/-! ## Exceptions (R194 to R196) -/

/-- The code of an exception (R194). -/
def Exc.code : Exc → W8
  | .illegal => 0x01 | .descInvalid => 0x02 | .shape => 0x03 | .format => 0x04 | .align => 0x05 | .access => 0x06
  | .addr => 0x07 | .poison => 0x08 | .notStaged => 0x09 | .operandFail => 0x0A | .weightOwner => 0x0B
  | .operandCheck => 0x0C | .chainReject => 0x0D | .journalFull => 0x0E | .replayDiverge => 0x0F | .commitMask => 0x10
  | .loopDepth => 0x11 | .tierError => 0x12 | .facetFail => 0x13 | .brk => 0x14

/-- The state that a core's list gives one of its streams. -/
def Core.setStream (k : Core) (id : W32) (st : StreamSt) : Core :=
  { k with streams := k.streams.map fun x => if x.id = id then { x with st := st } else x }

/-- A stream of a core. -/
def Core.stream (k : Core) (id : W32) : Option Stream := k.streams.find? (·.id = id)

/-- Queues an event record of a context's stream (R173). -/
def State.event (s : State) (c : Cx) (code : W8) (pc data detail : W64) : State :=
  match (s.ctx c).stream.bind (s.core c.lc).stream with
  | none => s
  | some x => s.updCore c.lc fun k => { k with events := k.events ++
      [⟨code, c.ix, x, pc, data, s.now c.lc, s.epoch c, detail⟩] }

/-- Taking an exception: the context enters `STOPPED` with its registers and pc as they stand, keeps its context, and writes
an event record with the exception's code (R195, R196). Passes that have issued go on; no younger instruction has an
effect. -/
def State.raise (s : State) (c : Cx) (e : Exc) (pc data detail : W64) : State :=
  let s := s.event c e.code pc data detail
  let s := match (s.ctx c).stream with
    | none => s
    | some id => s.updCore c.lc (·.setStream id .stopped)
  let s := s.updCore c.lc fun k => if k.blockedBy = some c.ix then
    { k with blockedBy := none, ocMiss := none, missBuf := [], arrived := none } else k
  s.updCtx c fun k => { k with st := .stopped, wait := none, parked := false, readyAt := none }

/-! ## Issue -/

/-- Whether a logical core takes steps: its unit is in Q0, no stop sequence has halted it, and no takeover holds it
(R607, R633, R565). -/
def State.coreUp (s : State) (l : LC) : Bool :=
  s.fget (rg .unitStatus l.val) 2 0 = 0 && s.fget (rg .unitStatus l.val) 5 5 = 0 && !(s.core l).halted &&
    (match (s.core l).takeover with | some (.waking _) => false | _ => true)

/-- Whether a context is able to run an instruction: it holds a stream that is neither stopped nor parked, has no request
outstanding, no commit under way and no replay due. -/
def State.canIssue (s : State) (c : Cx) : Bool :=
  let k := s.ctx c
  k.stream.isSome && (k.st = .issuing || k.st = .waiting) && !k.parked && k.await.isNone && k.commit.isNone &&
    !k.replayDue && s.coreUp c.lc

/-- What keeps the scalar issue unit from issuing for a context, if anything, by the precedence of R95: a droop gate
(R145), an empty step (R149), a load of the unit that has not ended (R114), or the slot taken by another context or its turn
there (R129, R130). -/
def State.gate (s : State) (c : Cx) : Option Wait :=
  let k := s.core c.lc
  if (s.die (LC.die c.lc)).gateStart.isSome then some .droop
  else if k.empty then some .pace
  else if k.ocMiss.isSome || (k.blockedBy.isSome && k.blockedBy ≠ some c.ix) then some .ocmiss
  else if k.slot.isSome || (k.turns.head?.getD c.ix ≠ c.ix) then some .issue
  else none

/-- The effect of an instruction on its context. -/
inductive Eff where
  /-- It completes and the pc moves on (R262). -/
  | done (s : State)
  /-- It completes by taking a branch. -/
  | jump (s : State) (pc : W64)
  /-- It cannot issue in this step; the cause is charged (R95). -/
  | hold (s : State) (w : Wait)
  /-- It has issued and its context waits for it to end. -/
  | pend (s : State) (w : Wait)
  /-- It raises an exception, with words 2 and 5 of the event record. -/
  | exc (s : State) (e : Exc) (data detail : W64)
  /-- It ends in a recovery that has already changed its context (R106). -/
  | stop (s : State)

/-- The loop stack and the next pc after an instruction at `e` completes without taking a branch (R262). -/
def loopEnd (e : W64) : List LoopLevel → List LoopLevel × W64
  | [] => ([], e + 8)
  | l :: t =>
    if l.last = e then
      if l.count - 1 ≠ 0 then ({ l with count := l.count - 1 } :: t, l.start) else loopEnd e t
    else (l :: t, e + 8)

/-- The context after the instruction at its pc completes without taking a branch. -/
def Context.advance (k : Context) : Context :=
  { k with loops := (loopEnd k.pc k.loops).1, pc := (loopEnd k.pc k.loops).2, st := .issuing, wait := none,
           readyAt := none }

/-- The context after a taken branch. -/
def Context.branch (k : Context) (pc : W64) : Context :=
  { k with pc := pc, st := .issuing, wait := none, readyAt := none }

/-- The issue slot taken and the instruction counted in `issued`, with its step in `steps` (R129, R154, R155). -/
def State.issued (s : State) (c : Cx) : State :=
  ((s.updCore c.lc fun k => { k with slot := some c.ix, lastIssued := c.ix, turns := [] }).count c 0 1).count c 1 1

/-- A context that waits for a cause. -/
def State.waits (s : State) (c : Cx) (w : Wait) : State :=
  s.updCtx c fun k => { k with st := .waiting, wait := some w }

/-- A context whose instruction turns out not to be ready gives up its turn at the issue slot (R129). -/
def State.yield (s : State) (c : Cx) : State :=
  s.updCore c.lc fun k => if k.turns.head? = some c.ix then { k with turns := k.turns.drop 1 } else k

/-- What an effect leaves. -/
def State.settle (c : Cx) : Eff → State
  | .done s => (s.updCtx c Context.advance).issued c
  | .jump s pc => (s.updCtx c (·.branch pc)).issued c
  | .hold s w => (s.waits c w).yield c
  | .pend s w => (s.waits c w).issued c
  | .exc s e data detail => (s.raise c e (s.ctx c).pc data detail).yield c
  | .stop s => s

/-- The code of a wait cause (R95). -/
def Wait.code : Wait → Nat
  | .droop => 1 | .pace => 2 | .front => 3 | .ocmiss => 4 | .act => 5 | .chain => 6 | .wgt => 7 | .array => 8
  | .issue => 9 | .sync => 10

/-- An instruction of a context whose turn at the slot has not come: it is charged what it waits for in any case, where R95 puts
that ahead of `W_ISSUE`, and else `W_ISSUE`. -/
def State.behind (s : State) (c : Cx) : Eff → State
  | .hold t w => if w.code < 9 ∧ w ≠ .ocmiss then t.waits c w else s.waits c .issue
  | _ => s.waits c .issue

/-- The frame of every DTI instruction: a context that cannot run ignores it; a gate is charged (R95); an instruction that
breaks R188 raises `ILLEGAL` with its word (R280); one whose lane-0 predicate is false has no effect and is counted (R193);
otherwise its own effect follows. -/
def dti (c : Cx) (word : W64) (legal lane0 : Bool) (body : State → Eff) (s : State) : State :=
  if !s.canIssue c then s
  else match s.gate c with
    | some .issue => if legal && lane0 then s.behind c (body s) else s.waits c .issue
    | some w => s.waits c w
    | none =>
      if !legal then s.raise c .illegal (s.ctx c).pc 0 word
      else if !lane0 then State.settle c (.done s)
      else State.settle c (body s)

/-- An S-form instruction that uses the predicate of lane 0 (R193). -/
def dtiS (maj min : W8) (c : Cx) (f : SForm) (body : State → Eff) (s : State) : Out :=
  .next (dti c (f.word maj min) (f.legal maj.toNat min.toNat) ((s.ctx c).pred f.pn f.pg 0) body s)
/-- An S-form instruction whose lanes are predicated each (R192). -/
def dtiV (maj min : W8) (c : Cx) (f : SForm) (body : State → Eff) (s : State) : Out :=
  .next (dti c (f.word maj min) (f.legal maj.toNat min.toNat) true body s)
/-- An I-form instruction. -/
def dtiI (maj min : W8) (c : Cx) (f : IForm) (body : State → Eff) (s : State) : Out :=
  .next (dti c (f.word maj min) (f.legal maj.toNat min.toNat) ((s.ctx c).pred f.pn f.pg 0) body s)
/-- An M-form instruction; `vec` for one whose lanes are predicated each. -/
def dtiM (maj : W8) (min : BitVec 4) (vec : Bool) (c : Cx) (f : MForm) (body : State → Eff) (s : State) : Out :=
  .next (dti c (f.word maj min) (f.legal maj.toNat min.toNat) (vec || (s.ctx c).pred f.pn f.pg 0) body s)
/-- A T-form instruction. -/
def dtiT (maj : W8) (min : BitVec 4) (c : Cx) (f : TForm) (body : State → Eff) (s : State) : Out :=
  .next (dti c (f.word maj min) (f.legal maj.toNat min.toNat) ((s.ctx c).pred f.pn f.pg 0) body s)
/-- A B-form instruction. -/
def dtiB (maj : W8) (min : BitVec 4) (c : Cx) (f : BForm) (body : State → Eff) (s : State) : Out :=
  .next (dti c (f.word maj min) (f.legal maj.toNat min.toNat) ((s.ctx c).pred f.pn f.pg 0) body s)

/-- An instruction that only changes its context's registers. -/
def onCtx (c : Cx) (g : Context → Context) (s : State) : Eff := .done (s.updCtx c g)

/-- The effective address of an M-form instruction: a[a] plus off32, wrapping at 2^64. -/
def Context.ea (k : Context) (f : MForm) : W64 := k.aget f.a + f.off32.signExtend 64

/-- The hint of an M-form field (R190). -/
def hintOf (h : BitVec 3) : Hint :=
  if h = 1 then .stream else if h = 2 then .keep else if h = 3 then .last else .normal

/-! ## The journal (R201, R211 to R215) -/

/-- The address of a journal entry. -/
def jAddr (c : Cx) (i : Nat) : Nat := snapBase c + 0xF010 + 16 * i
/-- The number of entries in a context's journal. -/
def State.jCount (s : State) (c : Cx) : Nat := bits (s.peek64 (snapBase c + 0xF000)) 31 0
/-- The kind of a journal entry. -/
def State.jKind (s : State) (c : Cx) (i : Nat) : Nat := bits (s.peek64 (jAddr c i)) 3 0
/-- How many entries have kinds 0x1 to 0x8, and how many kind 0x9. -/
def State.jCounts (s : State) (c : Cx) : Nat × Nat :=
  let n := s.jCount c
  let nine := ((List.range n).filter fun i => s.jKind c i = 9).length
  (n - nine, nine)

/-- Appends a journal entry (R212). -/
def State.jAppend (s : State) (c : Cx) (kind slot : Nat) (pc value : W64) : State :=
  let n := s.jCount c
  let w0 := kind + slot * 2 ^ 8 + (if kind = 9 then 0 else pc.toNat % 2 ^ 48) * 2 ^ 16
  let s := (s.poke64 (jAddr c n) (BitVec.ofNat 64 w0)).poke64 (jAddr c n + 8) value
  s.poke (snapBase c + 0xF000) (leBytes 4 (n + 1))

/-- What the journal says to a journaled instruction. -/
inductive Journal where
  /-- It runs and will write an entry. -/
  | fresh (s : State)
  /-- A replay returns the recorded value without running it. -/
  | recorded (s : State) (v : W64)
  /-- A replay finds another entry: its word 0 (R215). -/
  | diverge (w : W64)
  /-- A 192nd entry (R213): the detail word. -/
  | full (w : W64)

/-- The entry that a journaled instruction of a kind meets at its pc (R213, R215). -/
def State.journal (s : State) (c : Cx) (kind : Nat) : Journal :=
  let fresh (s : State) : Journal :=
    let n := s.jCounts c
    if 191 ≤ n.1 then .full (BitVec.ofNat 64 (n.1 + n.2 * 2 ^ 8)) else .fresh s
  match (s.ctx c).replayNext with
  | none => fresh s
  | some i =>
    match ((List.range (s.jCount c)).drop i).find? fun j => s.jKind c j ≠ 9 with
    | none => fresh (s.updCtx c fun k => { k with replayNext := none })
    | some j =>
      let w0 := s.peek64 (jAddr c j)
      if bits w0 3 0 = kind ∧ bits w0 63 16 = (s.ctx c).pc.toNat % 2 ^ 48 then
        .recorded (s.updCtx c fun k => { k with replayNext := some (j + 1) }) (s.peek64 (jAddr c j + 8))
      else .diverge w0

/-- A journaled instruction: `run` where it executes, `again` where a replay returns a recorded value. -/
def journaled (c : Cx) (kind : Nat) (run : State → Eff) (again : State → W64 → Eff) (s : State) : Eff :=
  match s.journal c kind with
  | .fresh s => run s
  | .recorded s v => again s v
  | .diverge w => .exc s .replayDiverge 0 w
  | .full w => .exc s .journalFull 0 w

end Sys2Proof.Machine
end

