-- ==== Sys2Proof/Machine/RegRead.lean ====
section
/-! DEFINITION. Reading registers (R14, R16, R719, R720): the value of every register, computed where another part of the
state holds the fact, and the effect of a read on RC fields and on the mailbox. -/

namespace Sys2Proof.Machine

/-- The state code of a context, as in `CORE_CTX_STATUS` (R135). -/
def CtxSt.code : CtxSt → Nat
  | .idle => 0 | .issuing => 1 | .waiting => 2 | .stopped => 3

/-- The four contexts of a logical core. -/
def ctxsOf (l : LC) : List Cx := [⟨l, 0⟩, ⟨l, 1⟩, ⟨l, 2⟩, ⟨l, 3⟩]

/-- A register's value with the fields that other parts of the state hold: contexts and streams of a core (R135), die-local
time (R165), pending faults (R417), error records held and the degraded summary (R598), ledger entries waiting, key slots
(R656), telemetry (R712). -/
def State.regView (s : State) (r : Reg) : W64 :=
  let w := s.reg r
  let lc : LC := Fin.ofNat 192 r.i
  match r.kind with
  | .coreStatus =>
    let k := s.core lc
    let act := (ctxsOf lc).foldl (fun n c => if (s.ctx c).stream.isSome then n + 2 ^ c.ix.val else n) 0
    withBits (withBits (withBits w 7 7 (if k.front.isSome then 1 else 0)) 15 8 k.streams.length) 19 16 act
  | .coreCtxStatus => (ctxsOf lc).foldl (fun w c =>
      let k := s.ctx c
      let i := 16 * c.ix.val
      withBits (withBits w (i + 1) i k.st.code) (i + 7) (i + 4) ((k.wait.map Wait.code).getD 0)) 0
  | .pmuTime => s.time (Fin.ofNat 17 r.i)
  | .xltStatus => (List.range 4).foldl (fun w b =>
      withBits w (8 * b + 6) (8 * b) (s.faults.filter fun x => bits x.opener.va 31 30 = b).length) w
  | .errStatus =>
    let w := withBits w 24 16 s.errHeld.length
    withBits w 0 0 (if bits w 6 1 = 0 then 0 else 1)
  | .errLedger => withBits w 14 8 (min s.ledgerPending.length 64)
  | .secSlots => BitVec.ofNat 64 ((List.range 64).foldl (fun n i =>
      if (Tbl.get none s.sec.slots i).isSome then n + 2 ^ i else n) 0)
  | .mbTelem =>
    let hot := (List.range 17).foldl (fun m d => let t := (BitVec.ofNat 16 (s.fget (rg .therm d) 15 0)).toInt
      if m < t then t else m) (-32768)
    let w := withBits w 12 0 (s.fget (rg .capStatus) 12 0)
    let w := withBits w 31 16 (BitVec.ofInt 16 hot).toNat
    let w := withBits w 32 32 (s.fget (rg .bootStatus) 4 4)
    let w := withBits w 33 33 (if s.fget (rg .errStatus) 6 1 = 0 then 0 else 1)
    let w := withBits w 34 34 (s.fget (rg .capStatus) 32 32)
    let w := withBits w 35 35 (s.fget (rg .capStatus) 36 36)
    withBits w 36 36 (if s.fget (rg .trip) 1 0 = 0 then 0 else 1)
  | _ => w

/-- What a read returns: WO and reserved bits read as zero (R14, R16). -/
def RegKind.readMask (k : RegKind) : W64 := k.maskOf [.rw, .ro, .w1c, .w1s, .rc, .rwl]

/-- The RC bits that a read of the given bits of a register clears: the fields that lie wholly within them (R719). -/
def RegKind.cleared (k : RegKind) (m : W64) : W64 :=
  k.fields.foldl (fun a f => if f.ty = .rc ∧ f.mask &&& m = f.mask then a ||| f.mask else a) 0

/-- The path by which an agent reaches the mailbox (R704). -/
def Agent.path : Agent → MbPath
  | .bar0 => .pcie
  | _ => .harts

/-- The number of a path (R704). -/
def MbPath.code : MbPath → Nat
  | .harts => 0 | .pcie => 1 | .i3c => 2 | .smbus => 3

/-- Whether the mailbox is busy. -/
def State.mbBusy (s : State) : Bool := s.fget (rg .mbStatus) 0 0 = 1

/-- The interrupt that falling busy or a change of telemetry raises (R702). -/
def State.mgtAlert (s : State) : State :=
  match s.mgt with
  | .i3c _ => s.emit .inbandInterrupt
  | .smbus => { s with pins := { s.pins with mgtAlert := true } }

/-- A cause of degraded operation, bits 1 to 6 of `ERR_STATUS`, set or cleared. A change of degraded raises the interrupt of the
management target (R598, R702). -/
def State.setDegraded (s : State) (n : Nat) (on : Bool) : State :=
  let r := rg .errStatus
  let s' := s.fset r n n (if on then 1 else 0)
  if (s.fget r 6 1 = 0) = (s'.fget r 6 1 = 0) then s' else s'.mgtAlert

/-- The current mailbox command ends with a result: busy falls (R702, R709). -/
def State.mbEnd (s : State) (result : Nat) : State :=
  let r := rg .mbStatus
  let s := ((((s.fset r 0 0 0).fset r 1 1 0).fset r 15 8 result).fset r 26 16 0).fset r 55 32 0
  { s with mb := { s.mb with input := [], output := [] } }.mgtAlert

/-- A read of `MB_DATA` over a path: the next output word, consumed; zero with underrun while none is waiting; zero and
nothing consumed from another path than the owner's (R705, R707). Reading the last word ends the command (log entry 24). -/
def State.mbRead (s : State) (p : MbPath) : State × W32 :=
  let r := rg .mbStatus
  if s.mbBusy && p ≠ s.mb.owner then (s, 0)
  else
    let s := { s with mb := { s.mb with lastAt := s.time hd } }
    match s.mb.output with
    | [] => (s.fset r 3 3 1, 0)
    | w :: t =>
      let s := { s with mb := { s.mb with output := t } }
      if t.isEmpty then (s.mbEnd 0, w) else (s.fset r 55 32 t.length, w)

/-- A read of a register over `m` of its bits: the value, and the state with the RC fields that lie in those bits cleared
(R14, R17, R719). -/
def State.regRead (s : State) (g : Agent) (r : Reg) (m : W64) : State × W64 :=
  match r.kind with
  | .mbData => let x := s.mbRead (Agent.path g); (x.1, x.2.setWidth 64)
  | _ =>
    let v := s.regView r &&& r.kind.readMask &&& m
    let c := r.kind.cleared m
    (if c = 0 then s else s.setReg r (s.reg r &&& ~~~c), v)

/-- What a register access of a size at a local address reaches (R715, R716, R719): a register with the bits accessed and
their shift, an offset that names none, an access that ends as one to a hole, or one of a wrong size or alignment. -/
inductive RegAcc where
  | reg (r : Reg) (m : W64) (shift : Nat)
  | nothing
  | hole
  | badSize
  deriving DecidableEq, Repr

/-- The register access that an address and a size in bytes make. -/
def regAccess (a size : Nat) : RegAcc :=
  match regTarget (a - 0xE0000000000) with
  | .hole => .hole
  | .nothing => if (size = 8 ∧ a % 8 = 0) ∨ (size = 4 ∧ a % 4 = 0) then .nothing else .badSize
  | .reg r =>
    if r.kind = .mbData then (if size = 4 ∧ a % 8 = 0 then .reg r 0xFFFFFFFF 0 else .badSize)
    else if size = 8 ∧ a % 8 = 0 then .reg r (BitVec.allOnes 64) 0
    else if size = 4 ∧ a % 8 = 0 then .reg r 0xFFFFFFFF 0
    else if size = 4 ∧ a % 8 = 4 then .reg r 0xFFFFFFFF00000000 32
    else .badSize

/-- Whether a lock keeps the RWL fields of a register from being written (R15). A spare map is locked by map_lock of its stack
(R437, R456). -/
def State.locked (s : State) (r : Reg) : Bool :=
  match r.kind with
  | .jsSpareMap => s.fget (rg .jsCtl r.i) 41 41 = 1
  | k => s.reg r &&& k.lockMask ≠ 0

/-- A write of `m` of the bits of a register by the types of its fields: RW fields take the value, RWL fields while they are not
locked, and W1C fields lose the bits written with 1 (R14, R15). -/
def State.regStore (s : State) (r : Reg) (m v : W64) : State :=
  let k := r.kind
  let w := (k.maskOf [.rw] ||| (if s.locked r then 0 else k.maskOf [.rwl])) &&& m
  let c := k.maskOf [.w1c] &&& m &&& v
  s.setReg r (((s.reg r &&& ~~~w) ||| (v &&& w)) &&& ~~~c)

/-- Whether an agent may reach a register block: the `SEC_` and `BOOT_` blocks take accesses from harts and management
cores only (R655, R688, R726); engines reach none (R722), and no other vertex does (R721). -/
def agentMay (g : Agent) (k : RegKind) : Bool :=
  match g with
  | .hart _ | .mgmt => true
  | .engine | .remote => false
  | .bar0 | .port _ | .dti _ => !(k ∈ [.secStatus, .secCmd, .secAddr, .secArg, .secResult, .secSlots, .secNonce, .bootStatus,
      .bootStraps, .bootReset, .bootCtl, .bootFwCtl, .bootFwStatus])

/-- An address of the `SEC_` and `BOOT_` pages of HD, named register or not, is a hole to every agent but a hart and a management
core (R655, R688, R726). -/
def pageShut (g : Agent) (a : Nat) : Bool :=
  !agentMay g .secStatus && decide (0xE00080C0000 ≤ a ∧ a < 0xE00080E0000)

end Sys2Proof.Machine
end

