-- ==== Sys2Proof/Machine/Home.lean ====
section
/-! DEFINITION. The homes (R323, R324, R360 to R369), the memory-side cache and the stripe buffer (R423, R427 to R429, R440
to R451), the lower tiers (R400, R412 to R416) and the access counters (R405 to R408): how the value of a line is read and
written at its point of coherence. -/

namespace Sys2Proof.Machine

/-! ## Placement (R323, R423, R441) -/

/-- Bits [hi:lo] of a local address. -/
def abits (a hi lo : Nat) : Nat := a / 2 ^ lo % 2 ^ (hi + 1 - lo)

/-- The home slice of an address (R323). -/
def homeOf (a : Nat) : Slice :=
  Fin.ofNat 64 ((abits a 12 7 ^^^ abits a 18 13 ^^^ abits a 24 19 ^^^ abits a 30 25 ^^^ abits a 36 31 ^^^ abits a 42 37)
    ^^^ abits a 43 43)

/-- The die of the home of an address. -/
def homeDie (a : Nat) : Die := BDie.die (Slice.bdie (homeOf a))

/-- The stripe position, stack, group and data channel index of a T1 address (R423). -/
def t1Place (a : Nat) : Nat × Stack × Nat × Nat :=
  let q := abits a 18 12 ^^^ abits a 25 19 ^^^ abits a 32 26 ^^^ abits a 39 33 ^^^ abits a 43 40
  (abits a 43 19, Fin.ofNat 16 (q / 8), q % 8, abits a 11 8 ^^^ abits a 15 12 ^^^ abits a 22 19)

/-- The set of a line in its cache slice (R441). -/
def mscSet (a : Nat) : Nat := abits a 24 13 ^^^ abits a 36 25

/-- The tier of a local address (R400); 0 for none. -/
def tierOf (a : Nat) : Nat := match regionOf a with | .t1 => 1 | .t2 => 2 | .t3 => 3 | _ => 0

/-! ## The stripe buffer (R427 to R429) -/

/-- A line of an entry list. -/
def lineIn (a : LAddr) (l : List (LAddr × List W8)) : Option (List W8) := (l.find? (·.1 = a)).map (·.2)

/-- A line held in the stripe buffer of its stack (R428). -/
def State.stripeLine (s : State) (a : LAddr) : Option (List W8) :=
  let p := t1Place a.toNat
  ((s.stack p.2.1).stripes.find? fun e => e.pos = p.1 ∧ e.group = p.2.2.1).bind fun e => lineIn a e.lines

/-- An entry retired: its lines are in the stack (R429). -/
def State.retire (s : State) (j : Stack) (e : StripeEntry) : State :=
  let s := e.lines.foldl (fun s l => s.poke l.1.toNat l.2) s
  s.setStack j { s.stack j with stripes := (s.stack j).stripes.filter (· ≠ e) }

/-- A written line enters the stripe buffer; with 256 entries in use and none for its stripe, the oldest entry retires
first (R427, R429; which entry makes room: log entry 14). -/
def State.stripeWrite (s : State) (a : LAddr) (d : List W8) : State :=
  let p := t1Place a.toNat
  let j := p.2.1
  let t := s.time (BDie.die (Stack.bdie j))
  let mine (e : StripeEntry) : Bool := e.pos = p.1 ∧ e.group = p.2.2.1
  let k := s.stack j
  if (k.stripes.any mine) then
    s.setStack j { k with stripes := k.stripes.map fun e =>
      if (mine e) then { e with lines := (e.lines.filter (·.1 ≠ a)) ++ [(a, d)], at_ := t } else e }
  else
    let s := if k.stripes.length < 256 then s else
      match k.stripes with
      | [] => s
      | e :: _ => s.retire j e
    s.setStack j { s.stack j with stripes := (s.stack j).stripes ++ [⟨p.2.2.1, p.1, [(a, d)], t⟩] }

/-! ## The memory-side cache (R440 to R451) -/

/-- A line held in its cache slice. -/
def State.mscFind (s : State) (a : LAddr) : Option MscLine := (s.mscOf (homeOf a.toNat)).find? (·.line = a)

/-- A line of the cache replaced. -/
def State.mscPut (s : State) (l : MscLine) : State :=
  let h := homeOf l.line.toNat
  s.setMsc h ((s.mscOf h).map fun x => if x.line = l.line then l else x)

/-- A line of the cache dropped without write-back. -/
def State.mscDrop (s : State) (a : LAddr) : State :=
  let h := homeOf a.toNat
  s.setMsc h ((s.mscOf h).filter (·.line ≠ a))

/-- Whether requests to a slice are served as `stream`: the cache is bypassed or its bank is off (R454, R456). -/
def State.mscOff (s : State) (h : Slice) : Bool :=
  s.fget (rg .mscCtl (Slice.bdie h).val) 12 12 = 1 || s.fget (rg .unitStatus (208 + h.val / 4)) 2 0 ≥ 3

/-- The hint that an access is served with. -/
def State.mscHint (s : State) (a : LAddr) (h : Hint) : Hint := if s.mscOff (homeOf a.toNat) then .stream else h

/-- Lines aged until one is of age 3 (R113, R443). -/
def ageUp (l : List (Nat × Nat)) : List (Nat × Nat) :=
  let m := l.foldl (fun m x => max m x.2) 0
  if l.isEmpty then [] else l.map fun x => (x.1, x.2 + (3 - m))

/-- The lowest-numbered way of age 3. -/
def oldest (l : List (Nat × Nat)) : Option Nat :=
  l.foldl (fun m x => if x.2 < 3 then m else match m with | none => some x.1 | some w => some (min w x.1)) none

/-- The way that a new line takes in a set of a slice, and the set's lines after ageing (R443); none when no way is
enabled. -/
def State.mscVictim (s : State) (h : Slice) (set : Nat) : Option Nat × List MscLine :=
  let en := s.fget (rg .mscWays h.val) 25 0
  let here := (s.mscOf h).filter (·.set = set)
  let ways := (List.range 26).filter fun w => en / 2 ^ w % 2 = 1
  match ways.find? fun w => !here.any (·.way = w) with
  | some w => (some w, here)
  | none =>
    let pool := here.filter fun l => !l.keep
    let pool := if pool.isEmpty then here else pool
    let aged := ageUp (pool.map fun l => (l.way, l.age))
    (oldest aged, here.map fun l => match aged.find? (·.1 = l.way) with | some x => { l with age := x.2 } | none => l)

/-- A line allocated in the cache; a dirty victim goes to the stripe buffer (R443, R445). -/
def State.mscAlloc (s : State) (a : LAddr) (age : Nat) (keep dirty last : Bool) (d : List W8) : State :=
  let h := homeOf a.toNat
  let set := mscSet a.toNat
  match s.mscVictim h set with
  | (none, _) => if dirty then s.stripeWrite a d else s
  | (some w, here) =>
    let out := here.find? (·.way = w)
    let kept := (here.filter fun l => l.keep ∧ l.way ≠ w).length
    let keep := keep && decide (kept < s.fget (rg .mscCtl (Slice.bdie h).val) 4 0)
    let s := s.setMsc h ((s.mscOf h).filter (·.set ≠ set) ++ here.filter (·.way ≠ w) ++
      [⟨set, w, a, age, keep, dirty, last, d⟩])
    match out with
    | some l => if l.dirty then s.stripeWrite l.line l.data else s
    | none => s

/-- A T1 read that the cache or the stripe buffer serves, with its effect on the cache; none for a miss (R428, R444,
R446). `held` says that a host cache holds the line (R448). -/
def State.t1Hit (s : State) (a : LAddr) (h : Hint) (held : Bool) : Option (State × List W8) :=
  let h := s.mscHint a (if held && h = .last then .normal else h)
  match s.mscFind a with
  | some l =>
    let s := s.bump (rg .mscCount (homeOf a.toNat).val) 31 0 1
    if l.last || h = .last then some (s.mscDrop a, l.data)
    else match h with
      | .stream => some (s, l.data)
      | .keep => some (s.mscPut { l with age := 0, keep := true }, l.data)
      | _ => some (s.mscPut { l with age := 0 }, l.data)
  | none => match s.stripeLine a with
    | some d => some (s, d)
    | none => none

/-- A T1 line that has come from the stack enters the cache as its hint asks (R444). -/
def State.t1Fill (s : State) (a : LAddr) (h : Hint) (d : List W8) : State :=
  match s.mscHint a h with
  | .normal => s.mscAlloc a 1 false false false d
  | .keep => s.mscAlloc a 0 true false false d
  | _ => s

/-- A T1 line written as its hint asks (R442, R444, R447). -/
def State.t1Store (s : State) (a : LAddr) (h : Hint) (d : List W8) : State :=
  let h := s.mscHint a h
  match s.mscFind a with
  | some l => (s.bump (rg .mscCount (homeOf a.toNat).val) 31 0 1).mscPut { l with
      data := d, dirty := true, last := h = .last, keep := l.keep || h = .keep, age := if h = .stream then 3 else 0 }
  | none => match h with
    | .normal => s.mscAlloc a 1 false true false d
    | .keep => s.mscAlloc a 0 true true false d
    | .last => s.mscAlloc a 1 false true true d
    | .stream => s.stripeWrite a d

/-! ## Values at the point of coherence -/

/-- Whether a line holds poison (R368): a poison code of T1, T2 or T3, or an uncorrectable word of a scratchpad. -/
def State.poisoned (s : State) (a : LAddr) : Bool :=
  match regionOf a.toNat with
  | .window => (s.spdBad a.toNat 128).isSome
  | _ => a.toNat ∈ s.poison

/-- A line poisoned in the store that holds it (R368); cached copies of it are dropped. -/
def State.poisonLine (s : State) (a : LAddr) : State :=
  match regionOf a.toNat with
  | .window => { s with badWords := (s.badWords ++ (List.range 16).map (a.toNat / 8 + ·)).dedup }
  | .t1 =>
    let p := t1Place a.toNat
    let k := s.stack p.2.1
    let s := (s.mscDrop a).setStack p.2.1 { k with stripes := k.stripes.map fun e =>
      { e with lines := e.lines.filter (·.1 ≠ a) } }
    { s with poison := (a.toNat :: s.poison).dedup }
  | _ => { s with poison := (a.toNat :: s.poison).dedup }

/-- The bytes of a line at its home: in the memory-side cache, the stripe buffer, or the memory behind. -/
def State.lineData (s : State) (a : LAddr) : List W8 :=
  match regionOf a.toNat with
  | .t1 => match s.mscFind a with
    | some l => l.data
    | none => (s.stripeLine a).getD (s.peek a.toNat 128)
  | _ => s.peek a.toNat 128

/-- `n` bytes at a local address as their homes hold them. -/
def State.homeBytes (s : State) (a n : Nat) : List W8 :=
  (List.range n).map fun i => (s.lineData (BitVec.ofNat 44 (lineOf (a + i)))).getD ((a + i) % 128) 0

/-- The status of a lower tier that is known beforehand: 0x03 where no DIMM or HDM decoder backs the address, 0x02 where
the expander link is lost (R413, R713, R496); none where the tier answers. -/
def State.tierStatus (s : State) (a : Nat) : Option W8 :=
  match regionOf a with
  | .t2 => if a - 0x10000000000 < s.host.ddrBytes then none else some 0x03
  | .t3 => match s.host.hdm.find? fun r => decide (r.1.toNat ≤ a) && decide (a < r.1.toNat + r.2.1) with
    | none => some 0x03
    | some r => if r.2.2 ∈ s.host.lostPorts then some 0x02 else none
  | _ => none

/-- Whether the scratchpad domain of a window address is powered (R125, R603). -/
def State.windowUp (s : State) (a : Nat) : Bool := s.fget (rg .unitStatus (windowOf a).1) 2 0 ≠ 4

/-- Whether an access to a line ends with an address error: a hole, device space, a window tail, a window whose scratchpad
is off, or a write to a snapshot region (R122, R125, R200, R714). -/
def State.badAddr (s : State) (a : Nat) (write : Bool) : Bool :=
  match regionOf a with
  | .t1 | .t2 | .t3 => false
  | .window => 0x600000 ≤ (windowOf a).2 || !s.windowUp a || (write && 0x5C0000 ≤ (windowOf a).2)
  | _ => true

/-! ## Writes at the point of coherence -/

/-- A whole line stored at its home. A scratchpad line is written into the scratchpad (R324). -/
def State.storeLine (s : State) (a : LAddr) (h : Hint) (d : List W8) : State :=
  match regionOf a.toNat with
  | .t1 => s.t1Store a h d
  | .window => s.spdWrite a.toNat d
  | _ => s.poke a.toNat d

/-- The lines that `n` bytes from an address touch, each with its offset and length. -/
def linesOf (a n : Nat) : List (Nat × Nat × Nat) :=
  if n = 0 then [] else
    (List.range ((a + n - 1) / 128 - a / 128 + 1)).map fun i =>
      let base := lineOf a + 128 * i
      let lo := max a base
      (base, lo - base, min (a + n) (base + 128) - lo)

/-- Bytes written at their homes from a local address; a line that has no home or whose tier does not answer takes none, and
a partial write of a poisoned line is discarded (R122, R324, R360, R369). -/
def State.homeWrite (s : State) (a : Nat) (bs : List W8) : State :=
  (linesOf a bs.length).foldl (fun s l =>
    let ln : LAddr := BitVec.ofNat 44 l.1
    let d := (bs.drop (l.1 + l.2.1 - a)).take l.2.2
    if s.badAddr l.1 true || (s.tierStatus l.1).isSome then s
    else match regionOf l.1 with
    | .window => s.spdWrite (l.1 + l.2.1) d
    | _ =>
      if s.poisoned ln && l.2.2 < 128 then s
      else { s with poison := s.poison.filter (· ≠ l.1) }.storeLine ln .normal (patch (s.lineData ln) l.2.1 d)) s

/-- Bytes written at a physical address: at their homes, or sent to their vertex (R370). -/
def State.physWrite (s : State) (pa : PAddr) (bs : List W8) : State :=
  if s.isLocal pa then s.homeWrite (PAddr.loc pa).toNat bs
  else (linesOf pa.toNat bs.length).foldl (fun s l =>
    let d := (bs.drop (l.1 + l.2.1 - pa.toNat)).take l.2.2
    s.emit (.remoteWrite (BitVec.ofNat 56 l.1) (maskOf128 l.2.1 l.2.2) (patch (List.replicate 128 0) l.2.1 d))) s

/-! ## Access counters (R405 to R408) -/

/-- Whether the event queue takes another record (R393). -/
def State.eqRoom (s : State) : Bool :=
  s.fget (rg .xltEqBase) 63 63 = 1 &&
    ((BitVec.ofNat 32 (s.fget (rg .xltEqHead) 31 0)) - (BitVec.ofNat 32 (s.fget (rg .xltEqTail) 31 0))).toNat <
      2 ^ (s.fget (rg .xltEqBase) 3 0 + 6)

/-- A 64-byte record written into a queue in memory: at its slot, then the count, then the interrupt (R393, R596). -/
def State.queueRecord (s : State) (base head tail msi : Reg) (bs : List W8) : State :=
  let n := s.fget head 31 0
  let pa := bits (s.reg base) 55 12 * 4096 + 64 * (n % 2 ^ (s.fget base 3 0 + 6))
  let s := s.physWrite (BitVec.ofNat 56 pa) bs
  (s.fset head 31 0 (n + 1)).msi (s.reg msi) (BitVec.ofNat 32 (s.fget tail 63 32))

/-- A record into the event queue. -/
def State.eqRecord (s : State) (bs : List W8) : State :=
  s.queueRecord (rg .xltEqBase) (rg .xltEqHead) (rg .xltEqTail) (rg .xltEqMsi) bs

/-- The address of the counter word of a region (R406). -/
def State.cntAddr (s : State) (region : Nat) : Nat := bits (s.reg (rg .tierCntBase)) 43 23 * 2 ^ 23 + 2 * region

/-- The word of a region's counter as its home slice holds it. -/
def State.cntWord (s : State) (region : Nat) : Nat :=
  match s.cntCache.find? (·.1 = region) with
  | some x => x.2
  | none => leNat (s.homeBytes (s.cntAddr region) 2)

/-- A served request counted (R405, R406), with the hot record that reaching the tier's threshold writes (R408). -/
def State.countAccess (s : State) (a : LAddr) : State :=
  let t := tierOf a.toNat
  if t = 0 || s.fget (rg .tierCntBase) 0 0 = 0 then s
  else
    let region := abits a.toNat 42 21
    let v := min (s.cntWord region + 1) 0xFFFF
    let old := s.cntWord region
    let s := { s with cntCache := Tbl.set s.cntCache region v }
    let th := s.fget (rg .tierHotThresh) (16 * t - 1) (16 * t - 16)
    if th = 0 ∨ v ≠ th ∨ old = v then s
    else if !s.eqRoom then s.bump (rg .xltStatus) 55 48 1
    else
      let d := homeDie a.toNat
      s.eqRecord (leBytes 8 (v + t * 2 ^ 32 + d.val * 2 ^ 43 + 2 * 2 ^ 60) ++
        leBytes 8 ((mkPA s.vertex a).toNat / 2 ^ 21 * 2 ^ 21) ++ leBytes 8 0 ++ leBytes 8 (s.time d).toNat ++
        leBytes 32 0)

/-! ## Serving a transaction -/

/-- The new word of an atomic (R248, R360). -/
def amoNew (op : AmoOp) (w : Nat) (old v : W64) : W64 :=
  let o := (old.setWidth w).signExtend 64
  let x := (v.setWidth w).signExtend 64
  match op with
  | .add => old + v
  | .and => old &&& v
  | .or => old ||| v
  | .xor => old ^^^ v
  | .min => if o.slt x then old else v
  | .max => if o.slt x then v else old
  | .minu => if (old.setWidth w).ult (v.setWidth w) then old else v
  | .maxu => if (old.setWidth w).ult (v.setWidth w) then v else old
  | .swap => v
  | .cas cmp => if old.setWidth w = cmp.setWidth w then v else old

/-- A line as a transaction reads it: its bytes, with the effect of the read on the memory-side cache and on the error
state of a scratchpad. `fromStack` is a line that has come from the stack. -/
def State.loadLine (s : State) (a : LAddr) (h : Hint) (held fromStack : Bool) : State × List W8 :=
  match regionOf a.toNat with
  | .t1 => match s.t1Hit a h held with
    | some r => r
    | none =>
      let d := s.peek a.toNat 128
      (if fromStack then s.t1Fill a h d else s, d)
  | .window => (s.spdTouch a.toNat 128, s.peek a.toNat 128)
  | _ => (s, s.peek a.toNat 128)

/-- A line that a hart's private cache has given back needs no flush any more (R496). -/
def State.flushed (s : State) (a : LAddr) : State :=
  { s with host := { s.host with flushing := s.host.flushing.filter (· ≠ a) } }

/-- Status codes of a home's response: 0 done, 0x01 to 0x05 a status of R413, 0x10 an address error, 0x20 a partial write
that poison discarded (R369). -/
def stAddr : W8 := 0x10
/-- A write discarded by poison. -/
def stDiscarded : W8 := 0x20

/-- Whether a transaction on a T1 line needs the stack: a read, a partial write or an atomic of a line that neither the
memory-side cache nor the stripe buffer holds (R442). -/
def State.needsStack (s : State) (a : LAddr) (q : HomeReq) : Bool :=
  match q.kind with
  | .wrLine _ | .evict _ => false
  | _ => regionOf a.toNat = .t1 && (s.mscFind a).isNone && (s.stripeLine a).isNone

/-- A transaction performed on its line once its data is at hand: the home's response, the state after it (R360, R369). -/
def State.perform (s : State) (a : LAddr) (q : HomeReq) (held : Bool) : State × TxnPhase :=
  let s := match q.kind with | .evict _ => s | _ => s.countAccess a
  let s := if s.needsStack a q then s.bump (rg .mscCount (homeOf a.toNat).val) 63 32 1 else s
  let bad := s.poisoned a
  match q.kind with
  | .rdOnce | .rdShared | .rdUnique =>
    let r := s.loadLine a q.h held true
    let l := r.1.line a
    let l := match q.kind with
      | .rdShared => { l with sharers := (q.r :: l.sharers).dedup }
      | .rdUnique => { l with owner := some q.r, sharers := [] }
      | _ => l
    (if bad then r.1 else r.1.setLine a l, .respond 0 0 r.2 bad)
  | .wrLine d =>
    let s := { s with poison := s.poison.filter (· ≠ a.toNat) }
    (s.storeLine a q.h (fit 128 d), .respond 0 0 [] false)
  | .wrPart m d =>
    match regionOf a.toNat with
    | .window =>
      let runs := (List.range 16).filter fun w => m.extractLsb' (8 * w) 8 ≠ 0
      let lost := runs.any fun w => a.toNat / 8 + w ∈ s.badWords ∧ m.extractLsb' (8 * w) 8 ≠ 0xFF
      let s := runs.foldl (fun s w =>
        if a.toNat / 8 + w ∈ s.badWords ∧ m.extractLsb' (8 * w) 8 ≠ 0xFF then s
        else s.spdWrite (a.toNat + 8 * w) (((merge128 m (s.peek a.toNat 128) d).drop (8 * w)).take 8)) s
      (s, .respond (if lost then stDiscarded else 0) 0 [] false)
    | _ =>
      if bad then (s, .respond stDiscarded 0 [] false)
      else
        let old := match s.mscFind a with
          | some l => l.data
          | none => s.lineData a
        (s.storeLine a q.h (merge128 m old d), .respond 0 0 [] false)
  | .atomic op off dbl v =>
    if bad then (s, .respond 0 0 [] true)
    else
      let n := if dbl then 8 else 4
      let d := s.lineData a
      let old := leWord ((d.drop off).take n)
      let new := amoNew op (8 * n) old v
      (s.storeLine a q.h (patch d off (leBytes n new.toNat)), .respond 0 old [] false)
  | .evict d =>
    let l := s.line a
    let s := (s.setLine a { l with
      owner := if l.owner = some q.r then none else l.owner
      sharers := l.sharers.filter (· ≠ q.r) }).flushed a
    (match d with
      | some d => if l.owner = some q.r then s.storeLine a .normal (fit 128 d) else s
      | none => s, .respond 0 0 [] false)

/-- The holders that must give up their copies before a transaction runs: every other holder for a write, an atomic or
`RdUnique`; the owner alone for a read (R324, R360). -/
def Line.recalls (l : Line) (q : HomeReq) : List Requester :=
  let own := match l.owner with | some o => if o = q.r then [] else [o] | none => []
  match q.kind with
  | .rdOnce | .rdShared => own
  | .evict _ => []
  | _ => own ++ l.sharers.filter (· ≠ q.r)

/-- A home starts a transaction: it holds the line busy and recalls what it must, ends it with an address error, sends it to
the lower tier or the stack, or performs it (R361, R362, R366). -/
def State.startTxn (s : State) (a : LAddr) (q : HomeReq) : State :=
  let l := s.line a
  let now := s.time (homeDie a.toNat)
  let set (s : State) (p : TxnPhase) : State := s.setLine a { s.line a with txn := some ⟨q, p, now⟩ }
  let isWrite := match q.kind with | .rdOnce | .rdShared | .rdUnique => false | _ => true
  if s.badAddr a.toNat isWrite then set s (.respond stAddr 0 [] false)
  else
    let rs := l.recalls q
    if !rs.isEmpty then set s (.recall rs [])
    else match regionOf a.toNat with
      | .t2 | .t3 => set s (.tier false)
      | _ =>
        if s.needsStack a q then set s .stack
        else let r := s.perform a q (!l.sharers.isEmpty || l.owner.isSome); set r.1 r.2

/-- A transaction whose recalls have been answered goes on. -/
def State.afterRecall (s : State) (a : LAddr) (q : HomeReq) : State :=
  let now := s.time (homeDie a.toNat)
  let set (s : State) (p : TxnPhase) : State := s.setLine a { s.line a with txn := some ⟨q, p, now⟩ }
  match regionOf a.toNat with
  | .t2 | .t3 => set s (.tier false)
  | _ =>
    if s.needsStack a q then set s .stack
    else
      let l := s.line a
      let r := s.perform a q (!l.sharers.isEmpty || l.owner.isSome)
      set r.1 r.2

/-- A request reaches its home: it waits behind a busy line, or starts (R361, R363). -/
def State.arrive (s : State) (a : LAddr) (q : HomeReq) : State :=
  let l := s.line a
  if l.txn.isSome then s.setLine a { l with waiting := l.waiting ++ [q] } else s.startTxn a q

/-- The line is free; the next request that waits starts (R361 to R363). -/
def State.release (s : State) (a : LAddr) : State :=
  let l := s.line a
  match l.waiting with
  | [] => s.setLine a { l with txn := none }
  | q :: t => (s.setLine a { l with txn := none, waiting := t }).startTxn a q

/-! ## Accesses of engines, walkers and fills

An engine's read or write of a line goes through the same home. It is performed at once when the line is free and no
recall is needed; otherwise the engine waits, and the command that needs the line changes nothing (log entry 15). -/

/-- What an engine's access to a line meets. -/
inductive EngRes where
  | data (d : List W8)
  | poison
  | status (x : W8)
  | addr
  /-- The vertex is absent or cannot be reached (R370). -/
  | unreach
  | blocked
  deriving DecidableEq, Repr

/-- An engine's read of a line. -/
def State.engRead (s : State) (r : Requester) (a : LAddr) (h : Hint) : State × EngRes :=
  let l := s.line a
  let q : HomeReq := ⟨r, s.vertex, h, .rdOnce, s.time (homeDie a.toNat)⟩
  if s.badAddr a.toNat false then (s, .addr)
  else match s.tierStatus a.toNat with
    | some x => (s, .status x)
    | none =>
      if l.txn.isSome || !(l.recalls q).isEmpty then (s, .blocked)
      else match s.perform a q (!l.sharers.isEmpty || l.owner.isSome) with
        | (s, .respond _ _ d p) => (s, if p then .poison else .data d)
        | (s, _) => (s, .blocked)

/-- An engine's write of bytes within a line. -/
def State.engWrite (s : State) (r : Requester) (a : LAddr) (h : Hint) (m : BitVec 128) (d : List W8) : State × EngRes :=
  let l := s.line a
  let kind : TxnKind := if m = BitVec.allOnes 128 then .wrLine d else .wrPart m d
  let q : HomeReq := ⟨r, s.vertex, h, kind, s.time (homeDie a.toNat)⟩
  if s.badAddr a.toNat true then (s, .addr)
  else match s.tierStatus a.toNat with
    | some x => (s, .status x)
    | none =>
      if l.txn.isSome || !(l.recalls q).isEmpty then (s, .blocked)
      else match s.perform a q false with
        | (s, .respond x _ _ _) => (s, if x = stDiscarded then .poison else .data [])
        | (s, _) => (s, .blocked)

end Sys2Proof.Machine
end

