-- ==== Sys2Proof/Machine/Translate.lean ====
section
/-! DEFINITION. Translation: page-table walks, TLBs, and the waits of accelerator-side requesters (R375 to R399). -/

namespace Sys2Proof.Machine

/-! ## Roots and translations -/

/-- The mode of a root in the layout of `satp`: 9 for Sv48, 10 for Sv57 (R167, R398). -/
def rootMode (root : W64) : BitVec 4 := root.extractLsb' 60 4
/-- The ASID of a root. -/
def rootAsid (root : W64) : W16 := root.extractLsb' 44 16
/-- The PPN of a root. -/
def rootPpn (root : W64) : Nat := bits root 43 0

/-- The code of an access (R398): 0 read, 1 write, 2 atomic, 3 instruction fetch. -/
abbrev Acc := BitVec 2

/-- Whether a leaf's low byte allows an access (R377); a write needs D = 1 as well when `usable` asks whether a cached
translation may be used (R379). -/
def permOk (p : W8) (acc : Acc) (usable : Bool) : Bool :=
  p.getLsbD 4 && (match acc with
    | 0 => p.getLsbD 1
    | 1 => p.getLsbD 2 && (!usable || p.getLsbD 7)
    | 2 => p.getLsbD 1 && p.getLsbD 2 && (!usable || p.getLsbD 7)
    | _ => p.getLsbD 3)

/-- Whether a cached translation serves an access (R384). -/
def Trans.serves (t : Trans) (root va : W64) (acc : Acc) : Bool :=
  decide (t.va.toNat ≤ va.toNat % 2 ^ 57) && decide (va.toNat % 2 ^ 57 < t.va.toNat + t.size) && t.mode = rootMode root &&
    (t.global || t.asid = rootAsid root) && permOk t.perms acc true

/-- The physical address that a translation gives. -/
def Trans.at_ (t : Trans) (va : W64) : PAddr := t.pa + BitVec.ofNat 56 (va.toNat % 2 ^ 57 - t.va.toNat)

/-- The die whose shared TLB serves a requester (R383). -/
def tlbDie : Requester → Die
  | .ctx c => LC.die c.lc
  | .copyEngine e => if e.val < 32 then Fin.ofNat 17 (12 + e.val / 8) else hd
  | .collective b => BDie.die b
  | .walker b _ => BDie.die b
  | _ => hd

/-- A translation found in the core TLB of a context or the shared TLB of its die. -/
def State.tlbFind (s : State) (r : Requester) (root va : W64) (acc : Acc) : Option Trans :=
  let shared := (s.die (tlbDie r)).tlb
  let own := match r with | .ctx c => (s.core c.lc).tlb | _ => []
  (own ++ shared).find? (·.serves root va acc)

/-- A translation installed; a full TLB loses one entry of its own choice (log entry 6). -/
def tlbAdd (cap : Nat) (draw : Nat) (t : Trans) (l : List Trans) : List Trans :=
  if l.length < cap then l ++ [t] else l.eraseIdx (Config.tlbVictim draw % cap) ++ [t]

/-! ## The walk -/

/-- How a walk ends. -/
inductive WalkEnd where
  /-- A leaf: the translation, the address of the entry, its value as read and with A and D set as needed (R379). -/
  | leaf (t : Trans) (pte : PAddr) (old value : W64)
  /-- A translation fault: cause, level and entry (R398). -/
  | fault (cause : BitVec 3) (level : BitVec 2) (entry : W64)
  deriving DecidableEq, Repr

/-- A page-table entry at its home; none when the read ends with poison, a tier error or an address error (R397). The
entries of another vertex are not in this state, and read as a free value (log entry 1). -/
def State.pteRead (s : State) (pa : PAddr) (lvl : Nat) : Option W64 :=
  if !s.isLocal pa then some (Config.freeValue (s.draws + lvl))
  else
    let a := PAddr.loc pa
    let ln : LAddr := BitVec.ofNat 44 (lineOf a.toNat)
    if s.badAddr a.toNat false || s.poisoned ln || (s.tierStatus a.toNat).isSome then none
    else some (leWord (s.homeBytes a.toNat 8))

/-- The size of a leaf at a level. -/
def levelSize (lvl : Nat) : Nat := 2 ^ (12 + 9 * lvl)

/-- The level of a fault record: 0 for 4 KiB, 1 for 2 MiB, 2 for 1 GiB or above. -/
def faultLevel (lvl : Nat) : BitVec 2 := if lvl = 0 then 0 else if lvl = 1 then 1 else 2

/-- Whether entry `j` of the line of 16 entries continues the run whose requested entry is `i` (R382). -/
def runMember (es : List W64) (i j : Nat) : Bool :=
  let e := es.getD i 0
  let x := es.getD j 0
  bits x 0 0 = 1 && bits x 3 1 ≠ 0 && bits x 7 0 = bits e 7 0 && bits x 6 6 = 1 && bits x 7 7 = 1 &&
    bits x 63 61 = bits e 63 61 && decide ((bits x 53 10 : Int) - bits e 53 10 = 512 * ((j : Int) - i))

/-- The first and the last entry of the longest run that contains entry `i`. -/
def runOf (es : List W64) (i : Nat) : Nat × Nat :=
  if !runMember es i i then (i, i)
  else
    let down := ((List.range (i + 1)).map (i - ·)).takeWhile (runMember es i)
    let up := ((List.range (16 - i)).map (i + ·)).takeWhile (runMember es i)
    (i + 1 - down.length, i + up.length - 1)

/-- The leaf's translation (R381, R382), with A and D as the access needs. -/
def State.leafEnd (s : State) (root va : W64) (acc : Acc) (lvl : Nat) (pa : PAddr) (e : W64) : WalkEnd :=
  let ppn := bits e 53 10
  let v := va.toNat % 2 ^ 57
  let w : Bool := acc = 1 ∨ acc = 2
  let e' := e ||| (if w then 0xC0 else 0x40)
  let mk (base size pbase : Nat) : Trans :=
    ⟨BitVec.ofNat 64 base, size, BitVec.ofNat 56 pbase, rootAsid root, rootMode root, bits e 5 5 = 1,
      e'.setWidth 8, e.extractLsb' 61 2⟩
  if bits e 63 63 = 1 then .leaf (mk (v / 2 ^ 16 * 2 ^ 16) (2 ^ 16) (ppn / 16 * 16 * 4096)) pa e e'
  else if lvl = 1 then
    let i := bits va 24 21
    let line := (pa.toNat / 128) * 128
    let es := (List.range 16).map fun j =>
      if j = i then e' else (s.pteRead (BitVec.ofNat 56 (line + 8 * j)) 1).getD 0
    let r := runOf es i
    .leaf (mk ((v / 2 ^ 21 - (i - r.1)) * 2 ^ 21) ((r.2 - r.1 + 1) * 2 ^ 21) ((ppn - 512 * (i - r.1)) * 4096)) pa e e'
  else .leaf (mk (v / levelSize lvl * levelSize lvl) (levelSize lvl) (ppn * 4096)) pa e e'

/-- The base die whose walkers serve a requester with a root: its own, that of its compute die (R19), and for HD the die
BD(ASID mod 4) (R383). -/
def walkDie (r : Requester) (root : W64) : BDie :=
  match r with
  | .ctx c => ⟨c.lc.val / 48, by omega⟩
  | .copyEngine e => if e.val < 32 then Fin.ofNat 4 (e.val / 8) else Fin.ofNat 4 (rootAsid root).toNat
  | .collective b => b
  | .walker b _ => b
  | _ => Fin.ofNat 4 (rootAsid root).toNat

/-- A cached non-leaf entry of a level: the next table's physical page (R383, R384). -/
def State.walkCached (s : State) (b : BDie) (root va : W64) (lvl : Nat) : Option Nat :=
  (s.walkCache.find? fun e => e.b = b ∧ (e.global ∨ e.asid = rootAsid root) ∧ e.mode = rootMode root ∧ e.level = lvl ∧
    e.va = va.toNat % 2 ^ 57 / levelSize lvl).map (·.ppn)

/-- One level of a walk: the table at physical page `ppn` (R376 to R381). The walk ends here, or goes on at the next table with
the non-leaf entry read; a level whose entry the walk cache holds is not read. -/
def State.walkLevel (s : State) (b : BDie) (root va : W64) (acc : Acc) (lvl ppn : Nat) :
    Sum WalkEnd (Nat × List WalkEntry) :=
  let pa : PAddr := BitVec.ofNat 56 (ppn * 4096 + 8 * (va.toNat / 2 ^ (12 + 9 * lvl) % 512))
  let fl := faultLevel lvl
  let cached := if lvl = 0 then none else s.walkCached b root va lvl
  if cached.isSome then .inr (cached.getD 0, [])
  else match s.pteRead pa lvl with
    | none => .inl (.fault 5 fl 0)
    | some e =>
      let leaf : Bool := bits e 3 1 ≠ 0
      if bits e 0 0 = 0 then .inl (.fault 1 fl e)
      else if bits e 60 54 ≠ 0 ∨ bits e 62 61 = 3 ∨ (bits e 2 2 = 1 ∧ bits e 1 1 = 0) then .inl (.fault 3 fl e)
      else if bits e 63 63 = 1 ∧ ¬(leaf ∧ lvl = 0 ∧ bits e 13 10 = 8) then .inl (.fault 3 fl e)
      else if leaf then
        if 3 ≤ lvl then .inl (.fault 3 fl e)
        else if bits e 53 10 % 2 ^ (9 * lvl) ≠ 0 ∧ bits e 63 63 = 0 then .inl (.fault 4 fl e)
        else if !permOk (e.setWidth 8) acc false then .inl (.fault 2 fl e)
        else .inl (s.leafEnd root va acc lvl pa e)
      else if lvl = 0 then .inl (.fault 3 fl e)
      else .inr (bits e 53 10,
        [⟨b, rootAsid root, rootMode root, bits e 5 5 = 1, lvl, va.toNat % 2 ^ 57 / levelSize lvl, bits e 53 10⟩])

/-- The levels of a walk from a level down to 0: how it ends, and the non-leaf entries read. -/
def State.walkFrom (s : State) (b : BDie) (root va : W64) (acc : Acc) : Nat → Nat → WalkEnd × List WalkEntry
  | 0, ppn => match s.walkLevel b root va acc 0 ppn with
    | .inl e => (e, [])
    | .inr _ => (.fault 3 0 0, [])
  | n + 1, ppn => match s.walkLevel b root va acc (n + 1) ppn with
    | .inl e => (e, [])
    | .inr next =>
      let r := s.walkFrom b root va acc n next.1
      (r.1, next.2 ++ r.2)

/-- A whole walk (R376, R378). -/
def State.walkAll (s : State) (b : BDie) (root va : W64) (acc : Acc) : WalkEnd × List WalkEntry :=
  if rootMode root = 9 ∧ bits va 56 47 ≠ 0 ∧ bits va 56 47 ≠ 2 ^ 10 - 1 then (.fault 6 2 0, [])
  else s.walkFrom b root va acc (if rootMode root = 9 then 3 else 4) (rootPpn root)

/-- How a walk ends. -/
def State.walk (s : State) (b : BDie) (root va : W64) (acc : Acc) : WalkEnd := (s.walkAll b root va acc).1

/-- The walker's compare-and-swap of A and D at the entry's home (R379). -/
def State.setAD (s : State) (pa : PAddr) (old new : W64) : State :=
  if old = new then s
  else if !s.isLocal pa then s.emit (.remoteAtomic pa (.cas old) true new)
  else
    let a := (PAddr.loc pa).toNat
    let ln : LAddr := BitVec.ofNat 44 (lineOf a)
    s.storeLine ln .normal (patch (s.lineData ln) (a - lineOf a) (leBytes 8 new.toNat))

/-! ## Requests for translation -/

/-- The root of a context's stream. -/
def State.rootOf (s : State) (c : Cx) : W64 :=
  match (s.ctx c).stream with
  | none => 0
  | some id => match (s.core c.lc).stream id with
    | some x => x.root
    | none => 0

/-- Adds the walk that an access needs, once. -/
def State.askWalk (s : State) (w : Walk) : State :=
  if s.walks.any fun x => x.r = w.r ∧ x.root = w.root ∧ x.va.toNat / 4096 = w.va.toNat / 4096 ∧ x.acc = w.acc ∧
      x.background = w.background then s
  else { s with walks := s.walks ++ [w] }

/-- The walks of a requester dropped: it has left its record (R397). -/
def State.dropWalks (s : State) (r : Requester) : State :=
  { s with walks := s.walks.filter (·.r ≠ r), failedWalks := s.failedWalks.filter (·.r ≠ r) }

/-- A walk that `XLT_RESOLVE` has failed, for a background access of a requester to a page: its record, and the state in which
the access has learnt of it (R395). -/
def State.takeFailed (s : State) (r : Requester) (va : W64) : Option (W32 × State) :=
  match s.failedWalks.find? fun w => w.r = r ∧ w.va.toNat / 4096 = va.toNat / 4096 with
  | some w => some (w.record.getD 0, { s with failedWalks := s.failedWalks.filter (· ≠ w) })
  | none => none

/-- The translations of the pages that `n` bytes at `va` touch: the physical address of each page part, or the first page
that no TLB holds. A range crosses at most `n / 4096 + 2` pages. -/
def State.pages (s : State) (r : Requester) (root va : W64) (n : Nat) (acc : Acc) : List (W64 × Nat × Option Trans) :=
  if n = 0 then [] else
    (List.range ((va.toNat % 4096 + n - 1) / 4096 + 1)).map fun i =>
      let start := if i = 0 then 0 else 4096 * i - va.toNat % 4096
      let stop := min n (4096 * (i + 1) - va.toNat % 4096)
      let v := va + BitVec.ofNat 64 start
      (v, stop - start, s.tlbFind r root v acc)

/-- A translated range: its parts with their physical addresses, and whether a page has PBMT NC or IO (R378); or the
virtual address that needs a walk. -/
inductive Ranges where
  | ok (parts : List (PAddr × Nat)) (io : Bool)
  | miss (va : W64)
  deriving DecidableEq, Repr

/-- Translates a range. -/
def State.translate (s : State) (r : Requester) (root va : W64) (n : Nat) (acc : Acc) : Ranges :=
  let ps := s.pages r root va n acc
  match ps.find? (·.2.2.isNone) with
  | some p => .miss p.1
  | none => .ok (ps.filterMap fun p => p.2.2.map fun t => (t.at_ p.1, p.2.1))
      (ps.any fun p => match p.2.2 with | some t => t.pbmt = 1 ∨ t.pbmt = 2 | none => false)

/-- The line parts of a translated range: physical line address, offset in the line, length. -/
def partLines (parts : List (PAddr × Nat)) : List (PAddr × Nat × Nat) :=
  parts.flatMap fun p => (linesOf p.1.toNat p.2).map fun l => (BitVec.ofNat 56 l.1, l.2.1, l.2.2)

end Sys2Proof.Machine
end

