-- ==== Sys2Proof/Machine/Load.lean ====
section
/-! DEFINITION. Ordinary loads and the operand cache (R109 to R116, R244 to R246, R254, R326, R331, R335 to R338). -/

namespace Sys2Proof.Machine

/-! ## Where an access of a context goes -/

/-- A part of an access within one line: the line's physical address, the offset and length in it, and where its bytes lie
in the access. -/
structure Part where
  line : PAddr
  off : Nat
  len : Nat
  dst : Nat
  deriving DecidableEq, Repr

/-- The physical address of a part's first byte. -/
def Part.pa (p : Part) : PAddr := p.line + BitVec.ofNat 56 p.off

/-- The places an access can reach. -/
inductive Place where
  /-- The context's own scratchpad, at a local address (R338). -/
  | own (a : Nat)
  /-- Coherent memory of this vertex. -/
  | home (a : LAddr)
  /-- Coherent memory of another vertex (R370). -/
  | remote
  | regs (a : Nat)
  | mmio (a : Nat)
  /-- An address error (R194: `ADDR`). -/
  | bad
  deriving DecidableEq, Repr

/-- The checking level of a context's stream (R577). -/
def State.levelOf (s : State) (c : Cx) : Nat :=
  match (s.ctx c).stream with
  | none => 0
  | some id => match (s.core c.lc).stream id with
    | some x => x.level.toNat
    | none => 0

/-- Whether an offset of the own window is a window tail for the context's stream (R122, R582). -/
def State.ownTail (s : State) (c : Cx) (off : Nat) : Bool :=
  decide (0x600000 ≤ off) || (decide (2 ≤ s.levelOf c) && decide (0x2E0000 ≤ off) && decide (off < 0x5C0000))

/-- Where an access at a physical address goes (R122, R200, R370, R713, R714, R721). -/
def State.place (s : State) (c : Cx) (pa : PAddr) (write : Bool) : Place :=
  let a := (PAddr.loc pa).toNat
  if !s.isLocal pa then
    (if !(regionOf a).coherent || !s.canReach (PAddr.vertex pa) ||
        (regionOf a = .window && decide (0x600000 ≤ (windowOf a).2)) then .bad else .remote)
  else match regionOf a with
    | .hole => .bad
    | .regs => .regs a
    | .mmio => .mmio a
    | .window =>
      if (windowOf a).1 = c.lc.val then
        (if s.ownTail c (windowOf a).2 || (write && decide (0x5C0000 ≤ (windowOf a).2)) then .bad else .own a)
      else if s.badAddr a write then .bad else .home (PAddr.loc pa)
    | _ => .home (PAddr.loc pa)

/-- The parts of an access: pieces (offset, length) from a virtual address, translated (R326); or the virtual address that
needs a walk. -/
def State.plan (s : State) (c : Cx) (va : W64) (acc : Acc) : List (Nat × Nat) → Except W64 (List Part × Bool)
  | [] => .ok ([], false)
  | (o, n) :: t =>
    match s.translate (.ctx c) (s.rootOf c) (va + BitVec.ofNat 64 o) n acc with
    | .miss v => .error v
    | .ok parts io =>
      match s.plan c va acc t with
      | .error v => .error v
      | .ok r =>
        let ls := partLines parts
        let here := (ls.foldl (fun (x : List Part × Nat) l => (x.1 ++ [⟨l.1, l.2.1, l.2.2, x.2⟩], x.2 + l.2.2)) ([], o)).1
        .ok (here ++ r.1, io || r.2)

/-- The physical address of a part's first byte as `ADDR` reports it (R280). -/
def addrDetail (p : Part) : W64 := (PAddr.loc p.pa).setWidth 64

/-! ## The operand cache (R109 to R116) -/

/-- A line held in a core's operand cache, unless the cache is bypassed. -/
def State.ocFind (s : State) (l : LC) (line : PAddr) : Option OcLine :=
  if s.fget (rg .coreOcCtl l.val) 24 24 = 1 then none else (s.core l).oc.find? (·.line = line)

/-- A hit sets a line's age to 0 (R112). -/
def State.ocTouch (s : State) (l : LC) (line : PAddr) : State :=
  s.updCore l fun k => { k with oc := k.oc.map fun x => if x.line = line then { x with age := 0 } else x }

/-- A line filled into the cache at an age (R112, R113). -/
def State.ocInstall (s : State) (l : LC) (line : PAddr) (age : Nat) (d : List W8) : State :=
  let ctl := rg .coreOcCtl l.val
  if s.fget ctl 24 24 = 1 then s
  else
    let set := line.toNat / 128 % 256
    let k := s.core l
    let here := k.oc.filter (·.set = set)
    let ways := (List.range 8).filter fun w => s.fget ctl 7 0 / 2 ^ w % 2 = 0
    let rest := k.oc.filter (·.set ≠ set)
    match ways.find? fun w => !here.any (·.way = w) with
    | some w => s.setCore l { k with oc := rest ++ here ++ [⟨set, w, line, age, d⟩] }
    | none =>
      let aged := ageUp (here.map fun x => (x.way, x.age))
      match oldest aged with
      | none => s
      | some w => s.setCore l { k with oc := rest ++ ((here.filter (·.way ≠ w)).map fun x =>
          { x with age := ((aged.find? (·.1 = x.way)).map (·.2)).getD x.age }) ++ [⟨set, w, line, age, d⟩] }

/-- The operand cache of a core emptied (R337). -/
def State.ocEmpty (s : State) (l : LC) : State := s.updCore l fun k => { k with oc := [] }

/-- A store's bytes in a line of the cache that already holds the address (R115). -/
def State.ocStore (s : State) (l : LC) (line : PAddr) (m : BitVec 128) (d : List W8) : State :=
  s.updCore l fun k => { k with oc := k.oc.map fun x =>
    if x.line = line then { x with data := merge128 m x.data d } else x }

/-- A line's bytes with the stores of the core that are in its store buffer (R331). -/
def State.forward (s : State) (l : LC) (line : PAddr) (d : List W8) : List W8 :=
  (s.core l).sb.foldl (fun d e => if e.line = line then merge128 e.mask d e.data else d) d

/-- The age at which a fill enters (R112, R244). -/
def fillAge (h : Hint) : Nat := if h = .stream ∨ h = .last then 3 else 1

/-! ## Loads -/

/-- What an ordinary load gives: the bytes of its parts, a wait, or an exception. -/
inductive LoadRes where
  | ok (s : State) (data : List (Nat × List W8))
  | hold (s : State) (w : Wait)
  | exc (s : State) (e : Exc) (va detail : W64)

/-- The exception of a failed line of a load, from the response of its home (R369, R415). -/
def lineError (line : PAddr) (status : W8) (poison : Bool) : Option (Exc × W64) :=
  if poison then some (.poison, line.setWidth 64)
  else if status = stAddr then some (.addr, (PAddr.loc line).setWidth 64)
  else if status ≠ 0 then
    some (.tierError, BitVec.ofNat 64 (tierOf (PAddr.loc line).toNat + status.toNat * 2 ^ 8))
  else none

/-- A miss: the line is asked of its home and the scalar issue unit is blocked (R114). -/
def State.ocMissed (s : State) (c : Cx) (line : PAddr) (h : Hint) (alloc : Bool) : State :=
  let s := s.updCore c.lc fun k => { k with ocMiss := some (line, h, alloc), blockedBy := some c.ix, arrived := none }
  if s.isLocal line then
    s.arrive (PAddr.loc line) ⟨.ctx c, s.vertex, h, .rdOnce, s.time (homeDie (PAddr.loc line).toNat)⟩
  else s.emit (.remoteRead line)

/-- The bytes of each part in turn: from the own scratchpad, the operand cache, or a line that has arrived. A line at no
hand is asked for. -/
def loadParts (c : Cx) (va : W64) (h : Hint) (io : Bool) : List Part → State → List (Nat × List W8) → LoadRes
  | [], s, acc => .ok s acc
  | p :: t, s, acc =>
    let v := va + BitVec.ofNat 64 p.dst
    match s.place c p.pa false with
    | .bad => .exc s .addr v (addrDetail p)
    | .regs _ | .mmio _ => .exc s .align v (BitVec.ofNat 64 p.len)
    | .own a =>
      let s' := s.spdTouch a p.len
      match s.spdBad a p.len with
      | some w => .exc s' .poison v ((mkPA s.vertex (BitVec.ofNat 44 (8 * w))).setWidth 64)
      | none => loadParts c va h io t s' (acc ++ [(p.dst, s'.peek a p.len)])
    | .home _ | .remote =>
      let k := s.core c.lc
      let take (d : List W8) : List W8 := ((s.forward c.lc p.line d).drop p.off).take p.len
      match k.missBuf.find? (·.1 = p.line) with
      | some l => loadParts c va h io t s (acc ++ [(p.dst, take l.2)])
      | none =>
        let failed := match k.arrived with
          | some (l, st, _, po) => if l = p.line then lineError p.line st po else none
          | none => none
        match failed with
        | some (e, det) => .exc s e v det
        | none =>
          match if io then none else s.ocFind c.lc p.line with
          | some l => loadParts c va h io t (s.ocTouch c.lc p.line) (acc ++ [(p.dst, take l.data)])
          | none => .hold (s.ocMissed c p.line h (!io)) .ocmiss

/-- An ordinary load of pieces from a virtual address. -/
def State.load (s : State) (c : Cx) (va : W64) (pieces : List (Nat × Nat)) (h : Hint) : LoadRes :=
  match s.plan c va 0 pieces with
  | .error v => .hold (s.askWalk ⟨.ctx c, v, 0, s.rootOf c, false, none, false⟩) .ocmiss
  | .ok (parts, io) =>
    match parts.find? fun p => s.place c p.pa false = .bad with
    | some p => .exc s .addr (va + BitVec.ofNat 64 p.dst) (addrDetail p)
    | none => loadParts c va h io parts s []

/-- The load has been performed: the scalar issue unit is free again (R114). -/
def State.loaded (s : State) (c : Cx) : State :=
  s.updCore c.lc fun k => if k.blockedBy = some c.ix then { k with blockedBy := none, missBuf := [], arrived := none } else k

/-- The bytes of an access of `n` bytes from its parts. -/
def assemble (n : Nat) (data : List (Nat × List W8)) : List W8 :=
  data.foldl (fun bs p => patch bs p.1 p.2) (List.replicate n 0)

/-- A load that ends with an effect of its bytes. -/
def loadThen (c : Cx) (va : W64) (n : Nat) (pieces : List (Nat × Nat)) (h : Hint) (g : State → List W8 → Eff)
    (s : State) : Eff :=
  match s.load c va pieces h with
  | .ok s d => g (s.loaded c) (assemble n d)
  | .hold s w => .hold s w
  | .exc s e v det => .exc s e v det

/-- The bytes that a size code names (R245). -/
def sizeOf4 (z : BitVec 4) : Nat := 2 ^ z.toNat

/-- The single device-space address that an access of `n` bytes reaches, if it reaches device space: register space or PCIe
MMIO. -/
def State.deviceAt (s : State) (c : Cx) (va : W64) (n : Nat) (acc : Acc) : Option (Nat × Bool) :=
  match s.plan c va acc [(0, n)] with
  | .ok ([p], _) => match s.place c p.pa false with
    | .regs a => some (a, true)
    | .mmio a => some (a, false)
    | _ => none
  | _ => none

/-- A read of device space by a context: a register's value with the read's effect on it (R719, R720), or a free value from
PCIe MMIO (log entry 29); an access of a wrong size raises `ALIGN`, one to a hole `ADDR`. -/
def State.deviceRead (s : State) (c : Cx) (a n : Nat) (isReg : Bool) (va : W64) : Except Eff (State × W64) :=
  if isReg then
    if pageShut (.dti c) a then .error (.exc s .addr va (BitVec.ofNat 64 a))
    else match regAccess a n with
    | .hole => .error (.exc s .addr va (BitVec.ofNat 64 a))
    | .badSize => .error (.exc s .align va (BitVec.ofNat 64 n))
    | .nothing => .ok (s, 0)
    | .reg r m sh =>
      if !agentMay (.dti c) r.kind then .error (.exc s .addr va (BitVec.ofNat 64 a))
      else let x := s.regRead (.dti c) r m; .ok (x.1, x.2 >>> sh)
  else .ok ((s.emit (.mmioRead (BitVec.ofNat 44 a) n)).drawn, s.freeVal &&& BitVec.ofNat 64 (2 ^ (8 * n) - 1))

/-- A scalar load into s[d] through an extension of its bytes. -/
def scalarLoad (min : BitVec 4) (ext : Nat → W64 → W64) (c : Cx) (f : MForm) (s : State) : Out :=
  dtiM 0x20 min false c f (fun s =>
    let va := (s.ctx c).ea f
    let n := sizeOf4 f.size
    match s.deviceAt c va n 0 with
    | some (a, isReg) => match s.deviceRead c a n isReg va with
      | .error e => e
      | .ok (s, v) => onCtx c (fun k => k.sset f.d (ext n v)) s
    | none => loadThen c va n [(0, n)] (hintOf f.hint) (fun s bs => onCtx c (fun k => k.sset f.d (ext n (leWord bs))) s) s) s

/-- `ld`: zero-extended (R245). -/
def execLd (c : Cx) (f : MForm) (s : State) : Out := scalarLoad 0x0 (fun _ v => v) c f s

/-- `lds`: sign-extended (R245). -/
def execLds (c : Cx) (f : MForm) (s : State) : Out :=
  scalarLoad 0x1 (fun n v => ((v.setWidth (8 * n)).signExtend 64)) c f s

/-! ## Vector loads (R246) -/

/-- The maximal runs (start, length) of true values in a list, counted from `i`. -/
def trueRuns (i : Nat) : List Bool → List (Nat × Nat)
  | [] => []
  | b :: t =>
    match trueRuns (i + 1) t with
    | (j, n) :: r => if b ∧ j = i + 1 then (i, n + 1) :: r else if b then (i, 1) :: (j, n) :: r else (j, n) :: r
    | [] => if b then [(i, 1)] else []

/-- The pieces of a vector access of `n` lanes from lane `base`: the bytes of the lanes whose predicate is true (R192). -/
def Context.lanePieces (k : Context) (f : MForm) (base n : Nat) : List (Nat × Nat) :=
  (trueRuns 0 ((List.range n).map fun i => k.pred f.pn f.pg (base + i))).map fun r => (4 * r.1, 4 * r.2)

/-- The register with `n` lanes from `base` taken from bytes where the predicate is true. -/
def Context.setLanes (k : Context) (f : MForm) (base n : Nat) (bs : List W8) : Context :=
  k.vset f.d (lanes fun i =>
    if base ≤ i ∧ i < base + n ∧ k.pred f.pn f.pg i then
      BitVec.ofNat 32 (leNat ((bs.drop (4 * (i - base))).take 4)) else k.vlane f.d i)

/-- A vector load of `n` lanes into v[d] from lane `base`. -/
def vectorLoad (min : BitVec 4) (base : Nat) (n : Nat) (c : Cx) (f : MForm) (s : State) : Out :=
  dtiM 0x21 min true c f (fun s =>
    let k := s.ctx c
    let va := k.ea f
    if va.toNat % 4 ≠ 0 then .exc s .align va (BitVec.ofNat 64 (4 * n))
    else loadThen c va (4 * n) (k.lanePieces f base n) (hintOf f.hint)
      (fun s bs => onCtx c (fun k => k.setLanes f base n bs) s) s) s

/-- The lanes of a packed transfer, by its size code (R246). -/
def packedLanes (z : BitVec 4) : Nat := if z = 1 then 64 else if z = 2 then 96 else if z = 3 then 128 else 256

/-- `vld`: 2 KiB into v[d] (R246). -/
def execVld (c : Cx) (f : MForm) (s : State) : Out := vectorLoad 0x0 0 512 c f s

/-- `vld.p`: packed elements into the low lanes of v[d] (R246). -/
def execVldP (c : Cx) (f : MForm) (s : State) : Out := vectorLoad 0x2 0 (packedLanes f.size) c f s

/-- `vld.s`: 16 bytes into lanes 384 to 387 (R246). -/
def execVldS (c : Cx) (f : MForm) (s : State) : Out := vectorLoad 0x4 384 4 c f s

/-! ## Tile descriptor loads (R183, R254) -/

/-- The format codes of R182. -/
def formatCode (n : Nat) : Bool := n = 0x00 || n = 0x01 || narrowCode n

/-- The scale mode that a format code requires (R182). -/
def requiredScale (n : Nat) : Nat := if isMx n then 1 else if isOfp8 n then 2 else 0

/-- The causes of R183 found in each word of a descriptor: [0] reserved bit, [1] format code, [2] scale_mode,
[3] alignment. -/
def TileDesc.causes (d : TileDesc) : List Nat :=
  let code := bits d.w5 5 0
  let scale := bits d.w5 7 6 = 1
  let chk := bits d.w5 21 21 = 1
  let b (p : Bool) (n : Nat) : Nat := if p then n else 0
  [ b (bits d.w0 63 57 ≠ 0) 1 + b (bits d.w0 56 0 % 64 ≠ 0) 8,
    b (bits d.w1 63 57 ≠ 0) 1 + b (scale && bits d.w1 56 0 % 8 ≠ 0) 8,
    b (bits d.w2 63 57 ≠ 0) 1 + b (chk && bits d.w2 56 0 % 4 ≠ 0) 8,
    b (bits d.w3 63 32 % 64 ≠ 0) 8,
    b ((scale && bits d.w4 31 0 % 8 ≠ 0) || (chk && bits d.w4 63 32 % 4 ≠ 0)) 8,
    b (bits d.w5 63 23 ≠ 0) 1 + b (!formatCode code) 2 + b (formatCode code && bits d.w5 7 6 ≠ requiredScale code) 4 ]

/-- The detail word of `DESC_INVALID`, or none for a good descriptor (R183, R280). -/
def TileDesc.invalid (d : TileDesc) : Option W64 :=
  let cs := d.causes
  match (List.range 6).find? fun i => cs.getD i 0 ≠ 0 with
  | none => none
  | some i =>
    let all := cs.foldl (fun a x => a ||| x) 0
    let w := [d.w0, d.w1, d.w2, d.w3, d.w4, d.w5].getD i 0
    some (BitVec.ofNat 64 (all + i * 2 ^ 4 + w.toNat % 2 ^ 56 * 2 ^ 8))

/-- A descriptor from its 48 bytes. -/
def TileDesc.ofBytes (bs : List W8) : TileDesc :=
  let w (i : Nat) : W64 := leWord ((bs.drop (8 * i)).take 8)
  ⟨w 0, w 1, w 2, w 3, w 4, w 5⟩

/-- The 48 bytes of a descriptor. -/
def TileDesc.bytes (d : TileDesc) : List W8 := wordsBytes [d.w0, d.w1, d.w2, d.w3, d.w4, d.w5]

/-- `tld`: loads a tile descriptor with the checks of R183 (R254). -/
def execTld (c : Cx) (f : MForm) (s : State) : Out :=
  dtiM 0x24 0x0 false c f (fun s =>
    let va := (s.ctx c).ea f
    if va.toNat % 8 ≠ 0 then .exc s .align va 48
    else loadThen c va 48 [(0, 48)] (hintOf f.hint) (fun s bs =>
      let d := TileDesc.ofBytes bs
      match d.invalid with
      | some det => .exc s .descInvalid va det
      | none => onCtx c (fun k => k.tset (f.d.setWidth 3) d) s) s) s

/-! ## The arrival of a line, and invalidation -/

/-- `OC_LINE_FILL`: the line that the scalar issue unit waits for arrives. It enters the operand cache with the core's own
stores merged, and the unit resumes; a line that came with an error stays at hand for the load to raise it (R112 to R114,
R331). A remote line's bytes are free values (log entry 26). -/
def execOcLineFill (l : LC) (s : State) : Out :=
  .next <|
    let k := s.core l
    match k.ocMiss with
    | none => s
    | some (line, h, alloc) =>
      let put (s : State) (d : List W8) : State :=
        let d := s.forward l line d
        let s := if alloc then s.ocInstall l line (fillAge h) d else s
        s.updCore l fun k => { k with ocMiss := none, arrived := none, missBuf := k.missBuf ++ [(line, d)] }
      if !s.isLocal line then
        let d := wordsBytes ((List.range 16).map fun i => Config.freeValue (s.draws + i))
        put { s with draws := s.draws + 16 } d
      else match k.arrived with
        | some (line', st, d, po) =>
          if line' ≠ line then s
          else if st ≠ 0 || po then s.setCore l { k with ocMiss := none }
          else put s d
        | none => s

/-- `OC_INVALIDATE`: every line of the operand cache is invalidated (R135, R337). -/
def execOcInvalidate (l : LC) (s : State) : Out := .next (s.ocEmpty l)

end Sys2Proof.Machine
end

