-- ==== Sys2Proof/Machine/Takeover.lean ====
section
/-! DEFINITION. What survives a failure and how it comes back: committed copies (R199 to R210, R757), accumulator and chain
rollback (R75, R285), the return to a commit point (R106, R214), and the retirement of a physical core (R564 to R572). -/

namespace Sys2Proof.Machine

/-! ## The own scratchpad by offset -/

/-- Bytes of a context's own scratchpad. -/
def State.spd (s : State) (c : Cx) (off n : Nat) : List W8 := s.peek (windowBase c.lc + off) n
/-- A little-endian number in a context's own scratchpad. -/
def State.spdN (s : State) (c : Cx) (off n : Nat) : Nat := leNat (s.spd c off n)
/-- Bytes written into a context's own scratchpad. -/
def State.spdPut (s : State) (c : Cx) (off : Nat) (bs : List W8) : State := s.spdWrite (windowBase c.lc + off) bs

/-! ## Accumulator and statistic maps (R75, R271, R284, R285) -/

/-- A byte of a map of (cur, dirty) pairs at a commit point: cur := cur xor dirty, dirty := 0 (R75). -/
def mapCommit (b : W8) : W8 := (b ^^^ (b >>> 1)) &&& 0x55
/-- A byte of such a map at a rollback: dirty := 0 (R75). -/
def mapRollback (b : W8) : W8 := b &&& 0x55

/-- A map in the own scratchpad changed byte by byte. -/
def State.mapUpd (s : State) (c : Cx) (off n : Nat) (g : W8 → W8) : State := s.spdPut c off ((s.spd c off n).map g)

/-- The current copy, 0 or 1, that a pair of map bits names, given the byte and the pair's position in it. -/
def curCopy (b : W8) (pair : Nat) : Nat :=
  let cur := if b.getLsbD (2 * pair) then 1 else 0
  if b.getLsbD (2 * pair + 1) then 1 - cur else cur

/-- The copy that a write goes to (R75). -/
def nextCopy (b : W8) (pair : Nat) : Nat := if b.getLsbD (2 * pair) then 0 else 1

/-- The status word of a chain rewritten from its current state copy (R285). -/
def State.chainStatus (s : State) (c : Cx) (desc stat : Nat) : State :=
  let cp := curCopy (BitVec.ofNat 8 (s.spdN c (stat + 0x80) 1)) 0
  s.spdPut c desc (s.spd c (stat + 0x40 * cp) 8)

/-- The maps of every accumulator tile and chain that the context has written since its last commit point, changed for a
commit or a rollback (R209, R214, R272, R285). -/
def State.mapsUpd (s : State) (c : Cx) (g : W8 → W8) : State :=
  let k := s.ctx c
  let s := k.accs.foldl (fun s off => (s.mapUpd c off 64 g).mapUpd c (off + 0x40) 1 g) s
  let s := k.stats.foldl (fun s x =>
    ((s.mapUpd c (x.2.1 + 0x80) 1 g).mapUpd c (x.2.1 + 0x100) ((x.2.2 + 3) / 4) g).chainStatus c x.1 x.2.1) s
  s.updCtx c fun k => { k with accs := [], stats := [] }

/-! ## Committed copies (R202, R757) -/

/-- The two words of a staging slot entry (R757). -/
def Slot.word (x : Slot) : W64 :=
  let st := match x.st with | .empty => 0 | .filling => 1 | .resident => 2 | .failed => 3
  BitVec.ofNat 64 (st + x.status.toNat * 2 ^ 8 + x.base.toNat * 2 ^ 16 + x.len.toNat * 2 ^ 32)

/-- A staging slot from its entry (R757). -/
def Slot.ofWord (w : W64) : Slot :=
  ⟨(match bits w 1 0 with | 0 => .empty | 1 => .filling | 2 => .resident | _ => .failed), w.extractLsb' 8 8,
    w.extractLsb' 16 16, w.extractLsb' 32 16⟩

/-- A list of Booleans as bytes, lane 0 in the lowest bit. -/
def boolBytes (v : List Bool) : List W8 :=
  (List.range 64).map fun i => (List.range 8).foldl (fun (b : W8) j =>
    if v.getD (8 * i + j) false then b ||| (1 <<< j) else b) 0

/-- The lanes that 64 bytes give. -/
def bytesBool (bs : List W8) : List Bool := lanes fun i => (bs.getD (i / 8) 0).getLsbD (i % 8)

/-- The claim's descriptor, or the whole-zero descriptor for none. -/
def regsOf {n : Nat} (f : BitVec n → W64) (m : Nat) : List W8 := wordsBytes ((List.range m).map fun i => f (BitVec.ofNat n i))

/-- The state of a context as a committed copy holds it past the epoch word: offsets and bytes (R202, R757). -/
def Context.copySegs (k : Context) (mask : W32) : List (Nat × List W8) :=
  let id := (k.stream.getD 0).toNat
  let ls := k.loops.reverse
  let level (i : Nat) : List W64 := match ls[i]? with | some l => [l.count, l.start, l.last] | none => [0, 0, 0]
  let vs := (List.range 32).filter fun i => mask.getLsbD i
  [(0x008, leBytes 8 k.pc.toNat), (0x010, leBytes 4 k.astat.toNat ++ leBytes 4 k.srstate.toNat),
    (0x018, leBytes 4 mask.toNat ++ leBytes 4 id), (0x020, leBytes 8 ls.length),
    (0x040, regsOf (n := 5) k.sget 32), (0x140, regsOf (n := 4) k.aget 16),
    (0x1C0, (List.range 8).flatMap fun i => boolBytes (lanes fun j => k.plane (BitVec.ofNat 3 i) j)),
    (0x3C0, (List.range 8).flatMap fun i => TileDesc.bytes (k.tget (BitVec.ofNat 3 i))),
    (0x540, TileDesc.bytes k.live ++ TileDesc.bytes k.shadow),
    (0x5E0, (List.range 16).flatMap fun i => leBytes 16 (Slot.word (k.slot (BitVec.ofNat 4 i))).toNat),
    (0x6E0, wordsBytes ((List.range 4).flatMap level))] ++
  (List.range vs.length).map fun i =>
    (0x800 + 2048 * i, (lanes fun j => k.vlane (BitVec.ofNat 5 (vs.getD i 0)) j).flatMap fun w => leBytes 4 w.toNat)

/-- A context's state written into a committed copy, all but the epoch (R205). -/
def State.writeCopy (s : State) (k : Context) (base : Nat) (mask : W32) : State :=
  (k.copySegs mask).foldl (fun s x => s.spdWrite (base + x.1) x.2) s

/-- The registers of R176 loaded from a committed copy; vector registers outside its mask are +0 (R214 step 2). -/
def State.readCopy (s : State) (base : Nat) (k : Context) : Context :=
  let w (o : Nat) : W64 := s.peek64 (base + o)
  let mask : W32 := (w 0x18).setWidth 32
  let vs := (List.range 32).filter fun i => mask.getLsbD i
  let depth := bits (w 0x20) 2 0
  { k with
    pc := w 0x08
    astat := (w 0x10).setWidth 32
    srstate := (w 0x10).extractLsb' 32 32
    s := (List.range 32).map fun i => (BitVec.ofNat 5 i, w (0x40 + 8 * i))
    a := (List.range 16).map fun i => (BitVec.ofNat 4 i, sext57 (w (0x140 + 8 * i)))
    p := (List.range 8).map fun i => (BitVec.ofNat 3 i, bytesBool (s.peek (base + 0x1C0 + 64 * i) 64))
    t := (List.range 8).map fun i => (BitVec.ofNat 3 i, TileDesc.ofBytes (s.peek (base + 0x3C0 + 48 * i) 48))
    live := TileDesc.ofBytes (s.peek (base + 0x540) 48)
    shadow := TileDesc.ofBytes (s.peek (base + 0x570) 48)
    slots := (List.range 16).map fun i => (BitVec.ofNat 4 i, Slot.ofWord (w (0x5E0 + 16 * i)))
    loops := ((List.range (min depth 4)).map fun i =>
      ⟨w (0x6E0 + 24 * i), w (0x6E8 + 24 * i), w (0x6F0 + 24 * i)⟩).reverse
    v := (List.range vs.length).map fun i => (BitVec.ofNat 5 (vs.getD i 0),
      lanes fun j => BitVec.ofNat 32 (leNat (s.peek (base + 0x800 + 2048 * i + 4 * j) 4))) }

/-- A slot's new state written into a committed copy (R210, R758). -/
def State.copySlot (s : State) (base : Nat) (slot : BitVec 4) (value : W64) : State :=
  let a := base + 0x5E0 + 16 * slot.toNat
  let w := s.peek64 a
  s.spdWrite a (leBytes 8 (withBits (withBits w 1 0 (bits value 1 0)) 15 8 (bits value 15 8)).toNat)

/-! ## Return to the last commit point (R106, R214) -/

/-- A core whose weight loads of a context are dropped: a tile of its in the shadow copy is given up, a front of its that has begun
leaves no tile in the live copy, and live weights of its have no owner (R83, R214 step 6). -/
def Core.dropLoads (q : Core) (i : CtxIx) : Core :=
  let mine : Bool := q.front.any (·.c = i)
  { q with
    front := if mine then none else q.front
    live := if mine && q.front.any (·.steps < 128) then none else q.live
    shadow := q.shadow.without i
    owner := if q.owner = some i then none else q.owner }

/-- A context as a commit point saves it while a swap of its is pending: with the claims that the swap leaves, so that a replay
does not lose the swap (DEDUCED from R216; log entry 83). -/
def State.swapDone (s : State) (c : Cx) (k : Context) : Context :=
  if !k.swap then k
  else
    let d := if bits k.shadow.w5 5 0 ≠ 0 then k.shadow
      else match (s.core c.lc).shadow.tile with | some t => t.desc | none => k.live
    { k with live := d, shadow := {} }

/-- A context is to be restored from its last commit point: its accumulators roll back and it waits for `REPLAY_RESTORE`
(R214). Work that it had under way in the core is dropped; lines that it has asked for still come. -/
def State.rollback (s : State) (c : Cx) (why : ReplayWhy) : State :=
  let s := (s.mapsUpd c mapRollback).dropWalks (.ctx c)
  let s := s.updCore c.lc fun k => { (k.dropLoads c.ix) with
    passes := k.passes.filter (·.c ≠ c.ix)
    drain := match k.drain with | some d => if d.c = c.ix then none else some d | none => none
    blockedBy := if k.blockedBy = some c.ix then none else k.blockedBy
    ocMiss := if k.blockedBy = some c.ix then none else k.ocMiss
    missBuf := if k.blockedBy = some c.ix then [] else k.missBuf
    bg := k.bg.filter (·.c ≠ c.ix) }
  s.updCtx c fun k => { k with
    st := .waiting, wait := some .sync, replayDue := true, replayWhy := some why, commit := none, parked := false
    epi := [], pro := none, rowfix := none, rowfixed := false, sends := [], chains := [], swap := false, swapLost := false
    reacq := false, fills := []
    bgFail := none, check := none, readyAt := none }

/-- What CHECK_RECOVERY does besides the context's own rollback (R106 steps 3 to 6): the record, the operand cache, the
owner of the live weights. -/
def State.recover (s : State) (c : Cx) (r : ErrRec) (why : ReplayWhy) : State :=
  let s := (s.logErr (LC.die c.lc) r).ocEmpty c.lc
  let s := s.updCore c.lc fun k => { k with owner := none }
  (s.bump (rg .coreCksCount c.lc.val) 63 48 1).rollback c why

/-! ## Retirement and takeover (R564 to R572) -/

/-- The physical core that runs a logical core (R135). -/
def State.physOf (s : State) (l : LC) : MC := Fin.ofNat 18 (s.fget (rg .coreStatus l.val) 4 0)

/-- The field of `ERR_SPARES` that counts the spare cores of a die set from the state (R598). -/
def State.countSpares (s : State) (d : CDie) : State :=
  let n := ((List.finRange 18).filter fun m => (s.mc d m).role = .spare).length
  s.fset (rg .errSpares) (2 * d.val + 1) (2 * d.val) (min n 3)

/-- The logical cores of a compute die. -/
def lcsOf (d : CDie) : List LC := (List.range 16).map fun i => Fin.ofNat 192 (16 * d.val + i)

/-- The state of a core that was in its core logic is gone: weights, passes, operand cache, TLB (R70, R565). -/
def State.loseLogic (s : State) (l : LC) : State :=
  s.updCore l fun k => { k with
    live := none
    owner := none
    shadow := .empty
    front := none
    flip := none
    passes := []
    drain := none
    oc := []
    ocMiss := none
    missBuf := []
    blockedBy := none
    tlb := []
    slot := none
    turns := [] }

/-- Every stream of a logical core that holds a context is to be restored (R565 step 4). -/
def State.replayAll (s : State) (l : LC) (why : ReplayWhy) : State :=
  (ctxsOf l).foldl (fun s c =>
    match (s.ctx c).stream with
    | some id => ((s.rollback c why).updCtx c fun k => { k with tookOver := true }).updCore l (·.setStream id .running)
    | none => s) s

/-- The physical core of a die that hosts the fewest logical cores, lowest number first, among those in use (R570). -/
def State.leastLoaded (s : State) (d : CDie) : Option MC :=
  ((List.finRange 18).filter fun m => (s.mc d m).role = .active).foldl (fun b m => match b with
    | none => some m
    | some x => if (s.mc d m).hosts.length < (s.mc d x).hosts.length then some m else some x) none

/-- The stream with the fewest steps since its last commit point among the running ones of a core (R572). -/
def State.fewest (s : State) (ls : List LC) : Option Cx :=
  ((ls.flatMap ctxsOf).filter fun c => (s.ctx c).stream.isSome && (s.ctx c).st ≠ .stopped).foldl (fun b c => match b with
    | none => some c
    | some x => if (s.ctx c).sinceCommit < (s.ctx x).sinceCommit then some c else some x) none

/-- A logical core placed on another physical core of its die (R570, R572): `sliced` is set for every logical core of the
host, one of its running streams returns to its commit point for each stream placed, and the placed streams restore. -/
def State.placeDegraded (s : State) (l : LC) (start : W64) : State :=
  let d := LC.cdie l
  match s.leastLoaded d with
  | none => s
  | some m =>
    let old := (s.mc d m).hosts
    let s := s.setMc d m { s.mc d m with hosts := old ++ [l] }
    let s := (old ++ [l]).foldl (fun s x => s.fset (rg .coreStatus x.val) 6 6 1) s
    let s := (s.fset (rg .coreStatus l.val) 4 0 m.val).setDegraded 1 true
    let n := ((ctxsOf l).filter fun c => (s.ctx c).stream.isSome).length
    let s := (List.range n).foldl (fun s _ => match s.fewest old with
      | none => s
      | some c =>
        if (s.ctx c).replayDue then s
        else s.rollback c .restart) s
    let s := s.updCore l fun k => { k with takeover := some .catching, detectAt := some start }
    s.replayAll l .takeover

/-- The logical core that runs the check streams of another: LC(n xor 1), or the next of the die whose physical core differs and
that is in no takeover (R580). -/
def State.checkLc (s : State) (l : LC) : LC :=
  let n := l.val
  let first := Fin.ofNat 192 (n ^^^ 1)
  let fits (x : LC) : Bool := s.physOf x ≠ s.physOf l && (s.core x).takeover.isNone
  if fits first then first
  else
    (((List.range 15).map fun i => (Fin.ofNat 192 (n / 16 * 16 + (n % 16 + 1 + i) % 16) : LC)).find? fits).getD first

/-- The checked streams whose check stream runs on one of some logical cores return to their last commit point and run the
interval again (R569). -/
def State.restartChecked (s : State) (ls : List LC) : State :=
  match ls.head? with
  | none => s
  | some l0 =>
    let prim := ((lcsOf (LC.cdie l0)).filter fun l => l ∉ ls && s.checkLc l ∈ ls).flatMap ctxsOf
    prim.foldl (fun s c => if (s.ctx c).check.isSome && !(s.ctx c).replayDue then s.rollback c .restart else s) s

/-- The logical cores that lose their physical core when it fails: those that it hosts, and those that wait for it to wake. -/
def State.hostedBy (s : State) (d : CDie) (m : MC) : List LC :=
  (s.mc d m).hosts ++ (lcsOf d).filter fun l => match (s.core l).takeover with | some (.waking x) => x = m | _ => false

/-- Retirement of a physical core (R564, R565, R569, R570): its ledger entry, its error record with the action taken, and for
each logical core that it hosted a spare that wakes or a place in degraded operation. -/
def State.retireCore (s : State) (d : CDie) (m : MC) (r : ErrRec) (start : W64) (source : BitVec 4 := 3) : State :=
  let k := s.mc d m
  if k.role = .retired then s
  else
    let ls := s.hostedBy d m
    let spare := (List.finRange 18).find? fun x => (s.mc d x).role = .spare && x ≠ m
    let sole := ls.length ≤ 1
    let act : W8 := if ls.isEmpty || (spare.isSome && sole) then 0x03 else 0x04
    let seq := (s.die (CDie.die d)).errSeq
    let s := s.logErr (CDie.die d) { r with action := act }
    let s := s.ledger ⟨0x01, BitVec.ofNat 5 d.val, BitVec.ofNat 16 m.val, 0, 1, source, 0, s.flash.coldStarts,
      s.time (CDie.die d), seq⟩
    let s := s.restartChecked ls
    let s := s.setMc d m { k with role := .retired, coreOk := false, hosts := [], screening := none, leaving := false }
    let s := ls.foldl (fun s l => s.loseLogic l) s
    match if sole && !ls.isEmpty then spare else none with
    | some x =>
      let s := s.setMc d x { s.mc d x with role := .waking, screening := none }
      let s := ls.foldl (fun s l => (s.updCore l fun q => { q with
        takeover := some (.waking x), detectAt := some start }).replayAll l .takeover) s
      s.countSpares d
    | none => (ls.foldl (fun s l => s.placeDegraded l start) s).countSpares d

/-- The start of detection of a core's failure: its last step boundary is the last moment the uncore saw of it (R565). -/
def State.detectStart (s : State) (l : LC) : W64 := ((s.core l).detectAt).getD (s.now l)

/-- A checksum mismatch or operand-check failure of a pass, or a parity error, at instruction `pc` (R106 to R108, R563,
R755): a replay, the retirement of the core when the replay meets it again in the same pass, `POISON` when it meets the same
uncorrectable word again, `OPERAND_CHECK` when the operand check fails again after a takeover. -/
def State.checkFailed (s : State) (c : Cx) (r : ErrRec) (pc : W64) (word : Option Nat) (opchk : Bool) (va : W64)
    (detail : W64) : State :=
  let s := if opchk then s.bump (rg .coreCksCount c.lc.val) 31 16 1 else s.bump (rg .coreCksCount c.lc.val) 15 0 1
  let k := s.ctx c
  let r := { r with
    index := if r.cls = 0x01 then r.index else BitVec.ofNat 16 c.lc.val
    stream := k.stream.getD 0
    pc := if r.cls = 0x01 then 0 else pc
    action := 0x02
    requester := Requester.code (.ctx c) }
  if opchk && r.cls ≠ 0x01 && word.isNone && k.tookOver then
    (s.logErr (LC.die c.lc) { r with action := 0x07 }).raise c .operandCheck pc va detail
  else match k.replayWhy with
    | some (.check pc' word') =>
      if pc' = pc || r.cls = 0x01 then
        if word.isSome && word' = word then
          (s.logErr (LC.die c.lc) { r with action := 0x07 }).raise c .poison pc va
            ((mkPA s.vertex (BitVec.ofNat 44 (8 * word.getD 0))).setWidth 64)
        else s.retireCore (LC.cdie c.lc) (s.physOf c.lc) r (s.now c.lc)
      else s.recover c r (.check pc word)
    | _ => s.recover c r (.check pc word)

end Sys2Proof.Machine
end

