-- ==== Sys2Proof/Machine/Streams.lean ====
section
/-! DEFINITION. Streams: launch, resume, restart and end (R166 to R172, R761), event records (R173 to R175), the choice of
contexts and time-slicing (R131 to R134, R210), checked intervals (R578, R579, R581), commit points (R204 to R210) and the
restore of a context (R214). -/

namespace Sys2Proof.Machine

/-! ## Memory by physical and by virtual address, for the core's own engines -/

/-- Bytes read at a physical address; those of another vertex are free values (log entry 26). -/
def State.physRead (s : State) (pa : PAddr) (n : Nat) : List W8 :=
  if s.isLocal pa then s.homeBytes (PAddr.loc pa).toNat n
  else (wordsBytes ((List.range ((n + 7) / 8)).map fun i => Config.freeValue (s.draws + i))).take n

/-- The base die whose walkers serve a logical core. -/
def LC.walkDie (l : LC) : BDie := ⟨l.val / 48, by omega⟩

/-- The physical addresses of the pages of a page-aligned range, when walks of all of them end in a leaf. -/
def State.mapPages (s : State) (b : BDie) (root va : W64) (n : Nat) (acc : Acc) : Option (List PAddr) :=
  (List.range n).foldl (fun l i =>
    let v := va + BitVec.ofNat 64 (4096 * i)
    match l, s.walk b root v acc with
    | some l, .leaf t _ _ _ => some (l ++ [t.at_ v])
    | _, _ => none) (some [])

/-- The physical address of a virtual one, by a walk. -/
def State.mapOne (s : State) (b : BDie) (root va : W64) (acc : Acc) : Option PAddr :=
  match s.walk b root va acc with
  | .leaf t _ _ _ => some (t.at_ va)
  | _ => none

/-- The size of a save area in use: one committed copy (R202, R210). -/
def copySize : Nat := 0x7800

/-- A committed copy written to a save area whose pages are given. -/
def State.savePut (s : State) (ps : List PAddr) (bs : List W8) : State :=
  (List.range 8).foldl (fun s i => s.physWrite (ps.getD i 0) ((bs.drop (4096 * i)).take 4096)) s

/-- A committed copy read from a save area whose pages are given. -/
def State.saveGet (s : State) (ps : List PAddr) : List W8 :=
  ((List.range 8).flatMap fun i => s.physRead (ps.getD i 0) (min 4096 (copySize - 4096 * i)))

/-! ## Checked intervals (R577 to R581) -/

/-- Whether Bronze selects the interval of an epoch (R579). -/
def State.selected (s : State) (id : W32) (epoch : W64) : Bool :=
  let h := (crc32c (leBytes 4 id.toNat ++ leBytes 8 epoch.toNat)).toNat % 256
  let seed := s.fget (rg .errCheckCtl) 15 8
  decide ((h ^^^ seed) < s.fget (rg .errCheckCtl) 5 2 + 1)

/-- The free scratchpads of a die: in service and belonging to no logical core (R553). -/
def State.freeSpds (s : State) (d : CDie) : Nat :=
  let owned := (lcsOf d).length
  let ok := ((List.finRange 18).filter fun m => (s.mc d m).spdOk && (s.mc d m).screening.isNone).length
  ok - owned

/-- The check images that Bronze streams of a die use. -/
def State.imagesUsed (s : State) (d : CDie) : Nat :=
  (((lcsOf d).flatMap ctxsOf).filter fun c => (s.ctx c).check.isSome && s.levelOf c = 1).length

/-- The interval that starts at the current committed copy opens: checked under Steel, and under Bronze where R579 selects
it and a free scratchpad is at hand; otherwise it counts as skipped (R581). -/
def State.openInterval (s : State) (c : Cx) : State :=
  let fresh : CheckRun := ⟨[], 0, [], false⟩
  let put (s : State) (k : Option CheckRun) : State := s.updCtx c fun x => { x with check := k }
  let d := LC.cdie c.lc
  match s.levelOf c with
  | 0 => put s none
  | 1 =>
    let id := (s.ctx c).stream.getD 0
    if !s.selected id (s.epoch c) then put s none
    else if s.freeSpds d ≤ s.imagesUsed d then
      put ((s.bump (rg .errCheckStats) 39 24 1).fset (rg .errStatus) 7 7 1) none
    else put s (some fresh)
  | _ => put s (some fresh)

/-- The bytes of a write of a checked primary enter its digest: address, size, data (R586). -/
def State.digest (s : State) (c : Cx) (va : W64) (bs : List W8) : State :=
  match (s.ctx c).check with
  | none => s
  | some k => s.updCtx c fun x => { x with check := some { k with
      log := k.log ++ leBytes 8 va.toNat ++ leBytes 8 bs.length ++ bs } }

/-- An operation that another agent can act on: in a checked interval it waits until the digests agree at it (R587). -/
def guardOp (c : Cx) (body : State → Eff) (s : State) : Eff :=
  match (s.ctx c).check with
  | none => body s
  | some k =>
    if k.agreed then body (s.updCtx c fun x => { x with check := some { k with agreed := false } })
    else .hold s .sync

/-! ## Contexts for streams (R131, R132, R166, R571, R578) -/

/-- The logical cores that share the physical core of a logical core. -/
def State.sharers (s : State) (l : LC) : List LC :=
  let hs := (s.mc (LC.cdie l) (s.physOf l)).hosts
  if l ∈ hs then hs else [l]

/-- Whether a context of a logical core may take a stream of a checking level: it is enabled and empty, context 3 runs only
check streams under Bronze and Steel, and a shared physical core has four contexts in all. -/
def State.ctxFree (s : State) (c : Cx) (level : Nat) : Bool :=
  (s.ctx c).stream.isNone && s.fget (rg .coreCtl c.lc.val) 3 0 / 2 ^ c.ix.val % 2 = 1 &&
    (level = 0 || c.ix.val < 3) &&
    (((s.sharers c.lc).flatMap ctxsOf).filter fun x => (s.ctx x).stream.isSome).length < 4

/-- The lowest-numbered context of a logical core that may take a stream. -/
def State.freeCtx (s : State) (l : LC) (level : Nat) : Option Cx := (ctxsOf l).find? fun c => s.ctxFree c level

/-- A stream takes a context whose region's copy 0 holds its state: copy 1 is marked invalid, the journal is empty with the
epoch of copy 0, and issue starts at the saved pc (R133, R168, R210). The record of its start is queued when it first takes a
context (R173; log entry 84). -/
def State.enter (s : State) (c : Cx) (x : Stream) (copy : List W8) : State :=
  let base := copyBase c false
  let s := s.spdWrite base (fit copySize copy)
  let s := s.spdWrite (copyBase c true) (leBytes 8 0)
  let s := s.spdWrite (snapBase c + 0xF000) (leBytes 4 0 ++ leBytes 4 (leNat (copy.take 4)))
  let failed := (s.core c.lc).sendFails.find? (·.1 = x.id)
  let k : Context := { (s.readCopy base {}) with
    stream := some x.id
    st := .issuing
    since := s.now c.lc
    bgFail := failed.map fun f => (.facetFail, f.2.1, f.2.2) }
  let s := s.setCtx c k
  let s := if x.started then s else s.updCore c.lc fun q => { q with
    streams := q.streams.map fun y => if y.id = x.id then { y with started := true } else y
    events := q.events ++ [⟨0x80, c.ix, x, k.pc, 0, s.now c.lc, 1, x.descAddr.setWidth 64⟩] }
  let s := s.updCore c.lc fun q => { (q.setStream x.id .running) with
    queue := q.queue.filter (· ≠ x.id)
    sendFails := q.sendFails.filter (·.1 ≠ x.id)
    owner := if q.owner = some c.ix then none else q.owner }
  s.openInterval c

/-- A `READY` stream takes a context from its save area; one whose area faults stays where it is (log entry 36). -/
def State.takeFrom (s : State) (c : Cx) (id : W32) : State :=
  match (s.core c.lc).stream id with
  | none => s
  | some x => match s.mapPages (LC.walkDie c.lc) x.root x.saveBase 8 0 with
    | none => s
    | some ps => s.enter c x (s.saveGet ps)

/-- Free contexts of a logical core, and of those that share its physical core, take the streams that wait, in queue order
(R131, R571; log entry 25). -/
def State.schedule (s : State) (l : LC) : State :=
  (l :: (s.sharers l).filter (· ≠ l)).foldl (fun s l =>
    (s.core l).queue.foldl (fun s id =>
      let lvl := match (s.core l).stream id with | some x => x.level.toNat | none => 0
      match s.freeCtx l lvl with
      | some c => s.takeFrom c id
      | none => s) s) s

/-- A stream leaves its context: the context is empty and idle. -/
def State.leave (s : State) (c : Cx) : State :=
  let s := s.updCore c.lc fun q => q.dropLoads c.ix
  (s.dropWalks (.ctx c)).setCtx c {}

/-- A stream is `ENDED`: it is removed with its posted receives and pending sends, and its context goes to a stream that waits
(R169; log entry 53). -/
def State.remove (s : State) (l : LC) (id : W32) : State :=
  let s := match (ctxsOf l).find? fun c => (s.ctx c).stream = some id with
    | some c => s.leave c
    | none => s
  (s.updCore l fun q => { q with
    streams := q.streams.filter (·.id ≠ id)
    queue := q.queue.filter (· ≠ id)
    recvs := q.recvs.filter (·.stream ≠ id)
    sends := q.sends.filter (·.stream ≠ id)
    sendFails := q.sendFails.filter (·.1 ≠ id) }).schedule l

/-- A stream returns to the waiting queue: its current copy, with the entries of kind 0x9 applied, goes to its save area
(R132, R210). It stays when the area faults (log entry 36). -/
def State.evictStream (s : State) (c : Cx) : State :=
  match (s.ctx c).stream.bind (s.core c.lc).stream with
  | none => s
  | some x => match s.mapPages (LC.walkDie c.lc) x.root x.saveBase 8 1 with
    | none => s
    | some ps =>
      let base := copyBase c (s.currentIsSecond c)
      let n := s.jCount c
      let s' := ((List.range n).filter fun i => s.jKind c i = 9).foldl (fun s i =>
        s.copySlot base (BitVec.ofNat 4 (bits (s.peek64 (jAddr c i)) 11 8)) (s.peek64 (jAddr c i + 8))) s
      let s := s'.savePut ps (s'.peek base copySize)
      let s := (s.updCore c.lc fun q => { (q.setStream x.id .ready) with queue := q.queue ++ [x.id] }).leave c
      s.bump (rg .coreSlice c.lc.val) 63 32 1

/-- The replacement at a commit point: a context disabled, or a stream that waits once the quantum has passed (R132, R135). -/
def State.slicePoint (s : State) (c : Cx) : State :=
  match (s.ctx c).stream.bind (s.core c.lc).stream with
  | none => s
  | some _ =>
    let held := (s.now c.lc - (s.ctx c).since).toNat
    let waiting := (s.sharers c.lc).any fun l => !(s.core l).queue.isEmpty
    let off := s.fget (rg .coreCtl c.lc.val) 3 0 / 2 ^ c.ix.val % 2 = 0
    if off || (waiting && decide (1000 * s.fget (rg .coreSlice c.lc.val) 15 0 ≤ held)) then
      (s.evictStream c).schedule c.lc
    else s

/-! ## Commit points (R204 to R210) -/

/-- Whether every condition of R204 holds for a context. -/
def State.drained (s : State) (c : Cx) : Bool :=
  let k := s.ctx c
  let q := s.core c.lc
  !q.passes.any (·.c = c.ix) && q.drain.all (·.c ≠ c.ix) && !q.sb.any (·.c = c.ix) && !q.copyQ.any (·.c = c.ix) &&
    !q.bg.any (·.c = c.ix) && k.bcpOuts.isEmpty && k.epi.isEmpty && k.pro.isNone && k.rowfix.isNone && k.sends.isEmpty && k.fills.isEmpty

/-- `COMMIT_COPY_WRITE`: once R204 holds, the context's state as it stands after the commit is written into the copy that
is not current, all but its epoch (R205, R208; log entry 19). A failed background write is raised instead (R227). -/
def execCommitCopyWrite (c : Cx) (s : State) : Out :=
  .next <|
    let k := s.ctx c
    match k.commit with
    | none => s
    | some j =>
      if j.entries.isSome || !s.drained c || !s.coreUp c.lc then s
      else match k.bgFail with
        | some (e, va, det) =>
          (s.updCtx c fun k => { k with commit := none, bgFail := none }).raise c e k.pc va det
        | none =>
          let s := s.writeCopy (s.swapDone c k).advance (copyBase c (!s.currentIsSecond c)) j.mask
          let s := s.digest c 0 (s.peek (copyBase c (!s.currentIsSecond c) + 8) (copySize - 8))
          s.updCtx c fun k => { k with commit := some { j with entries := some (s.jCounts c).2 } }

/-- The journal after a commit: the entries of kind 0x9 beyond the first `seen` are carried, every other is dropped (R209
step 3). -/
def State.carryJournal (s : State) (c : Cx) (seen : Nat) (epoch : W64) : State :=
  let nine := (List.range (s.jCount c)).filter fun i => s.jKind c i = 9
  let keep := (nine.drop seen).map fun i => s.peek (jAddr c i) 16
  let s := s.spdWrite (jAddr c 0) (keep.flatMap id)
  s.spdWrite (snapBase c + 0xF000) (leBytes 4 keep.length ++ leBytes 4 (epoch.toNat % 2 ^ 32))

/-- `COMMIT_FINALIZE`: the epoch, the accumulator maps and the journal in one sequence; then the context goes on after its
commit, a `halt` or an end command that waits ends its stream, else the stream may be replaced (R208 to R210, R263, R172). In a checked interval it waits
until the digests agree (R587). -/
def execCommitFinalize (c : Cx) (s : State) : Out :=
  .next <|
    let k := s.ctx c
    match k.commit with
    | none => s
    | some j => match j.entries with
      | none => s
      | some seen =>
        if k.check.any (!·.agreed) then s
        else
          let base := copyBase c (!s.currentIsSecond c)
          let e := s.epoch c + 1
          let s := (s.spdWrite base (leBytes 8 e.toNat)).mapsUpd c mapCommit
          let s := s.carryJournal c seen e
          let s := if k.check.isSome then s.bump (rg .errCheckStats) 23 0 1 else s
          let s := s.updCtx c fun k => { k.advance with
            v := k.v.filter fun x => j.mask.getLsbD x.1.toNat
            commit := none
            sinceCommit := 0
            tookOver := false
            replayWhy := none
            replayNext := none }
          if j.halts || ((k.stream.bind (s.core c.lc).stream).elim false (·.ending)) then
            let s := s.event c 0x81 k.pc 0 e
            match k.stream with
            | some id => s.remove c.lc id
            | none => s
          else (s.openInterval c).slicePoint c

/-! ## Replay (R214) -/

/-- The kind 0x9 entries of a valid journal applied to the slots, in journal order (R214 step 5). -/
def State.applyFills (s : State) (c : Cx) : State :=
  (List.range (s.jCount c)).foldl (fun s i =>
    if s.jKind c i = 9 then
      let slot := BitVec.ofNat 4 (bits (s.peek64 (jAddr c i)) 11 8)
      let v := s.peek64 (jAddr c i + 8)
      s.updCtx c fun k => k.setSlot slot { (k.slot slot) with
        st := (Slot.ofWord v).st
        status := (Slot.ofWord v).status }
    else s) s

/-- `REPLAY_RESTORE`: the context is loaded from its current copy and its journal and resumes at the saved pc, once no
finalization is under way and its core takes steps (R214, R565). The operand cache of the core is emptied. It waits for the
response of an atomic or arrival that is under way, whose entry the journal gets first (R212; log entry 47). After a takeover the
time without a core is counted in `lost_ns` (R568). A checked interval that a disagreement has returned goes on with the runs that
it has counted (R588). -/
def execReplayRestore (c : Cx) (s : State) : Out :=
  .next <|
    let k := s.ctx c
    let owed := match k.await with | some w => w.kind = .amo || w.kind = .arrival | none => false
    if !k.replayDue || k.stream.isNone || !s.coreUp c.lc || owed then s
    else
      let base := copyBase c (s.currentIsSecond c)
      let lost := if k.replayWhy = some .takeover then (s.now c.lc - (s.core c.lc).detectAt.getD (s.now c.lc)).toNat else 0
      let s := ((s.ocEmpty c.lc).count c 14 lost).setCtx c { (s.readCopy base k) with
        st := .issuing, wait := none, replayDue := false, await := none, sinceCommit := 0, parked := false }
      let valid := bits (s.peek64 (snapBase c + 0xF000)) 63 32 = (s.epoch c).toNat % 2 ^ 32
      let s := if valid then s.applyFills c
        else s.spdWrite (snapBase c + 0xF000) (leBytes 4 0 ++ leBytes 4 ((s.epoch c).toNat % 2 ^ 32))
      let s := s.updCtx c fun k => { k with
        replayNext := if valid then some 0 else none
        replayWhy := if k.replayWhy.isSome then k.replayWhy else some .restart }
      if k.check.isSome then s else s.openInterval c

/-! ## Stream commands (R167 to R172, R198, R761) -/

/-- Whether a stream descriptor breaks a rule of R761. -/
def descBad (w : Nat → W64) : Bool :=
  let mode := bits (w 1) 63 60
  bits (w 2) 63 57 ≠ 0 || bits (w 3) 7 0 ≠ 0 || bits (w 3) 63 57 ≠ 0 || bits (w 4) 63 57 ≠ 0 || bits (w 6) 63 32 ≠ 0 ||
    bits (w 7) 63 33 ≠ 0 || bits (w 7) 31 0 = 0 || (mode ≠ 9 && mode ≠ 10) || bits (w 0) 2 0 ≠ 0 ||
    bits (w 2) 11 0 ≠ 0 || bits (w 4) 2 0 ≠ 0

/-- The stream that a descriptor describes, at a checking level. -/
def streamOf (desc : PAddr) (w : Nat → W64) (level : Nat) : Stream :=
  { id := (w 7).setWidth 32
    st := .ready
    descAddr := desc
    root := w 1
    saveBase := w 2
    ringBase := BitVec.ofNat 64 (bits (w 3) 56 12 * 4096)
    ringLog2 := (w 3).extractLsb' 8 4
    countAddr := w 4
    msiAddr := w 5
    msiData := (w 6).setWidth 32
    tierStall := (w 7).getLsbD 32
    ending := false
    level := BitVec.ofNat 2 level }

/-- The checking level in force: 0b11 acts as Steel (R577, R598). -/
def State.level (s : State) : Nat := min (s.fget (rg .errCheckCtl) 1 0) 2

/-- The bytes of the state in which a stream starts, as committed copy 0 with epoch 1 (R168). -/
def startCopy (entry : W64) (id : W32) : List W8 :=
  let k : Context := { stream := some id, pc := entry, srstate := 1 }
  (k.copySegs 0).foldl (fun bs x => patch bs x.1 x.2) (patch (List.replicate copySize 0) 0 (leBytes 8 1))

/-- The status of a stream command (R170). -/
def State.sqDone (s : State) (l : LC) (action result : Nat) (id : W32) : State :=
  s.setReg (rg .sqStatus l.val) (BitVec.ofNat 64 (action + result * 2 ^ 8 + id.toNat * 2 ^ 32))

/-- A launch (R167, R168, R761): the descriptor is read and checked, and the stream takes a context or waits with its state
in its save area. -/
def State.doLaunch (s : State) (l : LC) (desc : PAddr) : State :=
  let a := (PAddr.loc desc).toNat
  let bad := s.isLocal desc && (s.badAddr a false || s.poisoned (BitVec.ofNat 44 (lineOf a)) || (s.tierStatus a).isSome)
  let bs := s.physRead desc 64
  let w (i : Nat) : W64 := leWord ((bs.drop (8 * i)).take 8)
  let s := if s.isLocal desc then s else { s with draws := s.draws + 8 }
  let id : W32 := (w 7).setWidth 32
  let k := s.core l
  if bad || descBad w then s.sqDone l 1 0x03 (if bad then 0 else id)
  else if (k.stream id).isSome then s.sqDone l 1 0x01 id
  else if 255 ≤ k.streams.length then s.sqDone l 1 0x04 id
  else
    let x := streamOf desc w s.level
    let copy := startCopy (w 0) id
    let s := s.setCore l { k with streams := k.streams ++ [x] }
    let s := match s.freeCtx l x.level.toNat with
      | some c => s.enter c x copy
      | none =>
        let s := s.updCore l fun q => { q with queue := q.queue ++ [id] }
        match s.mapPages (LC.walkDie l) x.root x.saveBase 8 1 with
        | some ps => s.savePut ps copy
        | none => s
    s.sqDone l 1 0x00 id

/-- The context that holds a stream. -/
def State.holder (s : State) (l : LC) (id : W32) : Option Cx := (ctxsOf l).find? fun c => (s.ctx c).stream = some id

/-- A resume: a `STOPPED` stream runs its stopped instruction again from the state it holds (R198). -/
def State.doResume (s : State) (l : LC) (id : W32) : State :=
  match (s.core l).stream id, s.holder l id with
  | none, _ => s.sqDone l 2 0x02 id
  | some x, some c =>
    if x.st ≠ .stopped then s.sqDone l 2 0x05 id
    else ((s.updCtx c fun k => { k with st := .issuing, wait := none }).updCore l (·.setStream id .running)).sqDone l 2 0 id
  | some _, none => s.sqDone l 2 0x05 id

/-- A restart: a `STOPPED` stream rolls back to its last commit point, as a replay does (R198). -/
def State.doRestart (s : State) (l : LC) (id : W32) : State :=
  match (s.core l).stream id, s.holder l id with
  | none, _ => s.sqDone l 3 0x02 id
  | some x, some c =>
    if x.st ≠ .stopped then s.sqDone l 3 0x05 id
    else ((s.rollback c .restart).updCore l (·.setStream id .running)).sqDone l 3 0 id
  | some _, none => s.sqDone l 3 0x05 id

/-- The record of the end of a stream that an end command removes at once: with the pc at which it stands and the epoch of its final
committed copy, read from its save area where it holds no context (R173, R280; log entry 89). -/
def State.endEvent (s : State) (l : LC) (x : Stream) : State :=
  match s.holder l x.id with
  | some c => s.event c 0x81 (s.ctx c).pc 0 (s.epoch c)
  | none =>
    let copy := (s.mapPages (LC.walkDie l) x.root x.saveBase 8 0).map s.saveGet
    let word (i o : Nat) : W64 := match copy with
      | some bs => leWord ((bs.drop o).take 8)
      | none => Config.freeValue (s.draws + i)
    ({ s with draws := s.draws + 3 }).updCore l fun q => { q with events := q.events ++
      [(⟨0x81, Fin.ofNat 4 s.freeVal.toNat, x, word 1 8, 0, s.now l, word 2 0, word 2 0⟩ : EventRec)] }

/-- An end: a `READY` or `STOPPED` stream is removed at once, a `RUNNING` one at its next commit point (R172). -/
def State.doEnd (s : State) (l : LC) (id : W32) : State :=
  match (s.core l).stream id with
  | none => s.sqDone l 4 0x02 id
  | some x =>
    let s := if x.st = .running then s.updCore l fun q => { q with
        streams := q.streams.map fun y => if y.id = id then { y with ending := true } else y }
      else (s.endEvent l x).remove l id
    s.sqDone l 4 0 id

/-- A value of `CORE_SQ_CMD` performed: other actions have no effect, and an end, resume or restart with a nonzero bit in
[55:38] names no stream (R170). -/
def State.sqPerform (s : State) (l : LC) (w : W64) : State :=
  let id : W32 := w.extractLsb' 6 32
  let odd := bits w 55 38 ≠ 0
  match bits w 2 0 with
  | 1 => s.doLaunch l (BitVec.ofNat 56 (bits w 55 6 * 64))
  | 2 => if odd then s.sqDone l 2 0x02 id else s.doResume l id
  | 3 => if odd then s.sqDone l 3 0x02 id else s.doRestart l id
  | 4 => if odd then s.sqDone l 4 0x02 id else s.doEnd l id
  | _ => s

/-- Whether a logical core takes stream commands now; otherwise they are held in the register path: until the package is ready, below
Q0, in the switch phase of an entry, while it shuts down, and in a takeover (R171, R610, R612, R676). -/
def State.sqReady (s : State) (l : LC) : Bool :=
  s.fget (rg .bootStatus) 4 4 = 1 && s.fget (rg .unitStatus l.val) 2 0 = 0 && s.fget (rg .unitStatus l.val) 5 5 = 0 &&
    !(s.fget (rg .unitStatus l.val) 4 4 = 1 && (s.unit (Fin.castLE (by omega) l)).byDisable) && (s.core l).sqHeld.isEmpty && !(s.core l).halted &&
    (match (s.core l).takeover with | none => true | some (.probing _) => true | _ => false)

/-- A write of `CORE_SQ_CMD`. It abandons the entry of the core into a lower state that is in its prepare phase (R605, R612). -/
def State.sqCommand (s : State) (l : LC) (w : W64) : State :=
  if s.sqReady l then (s.fset (rg .unitStatus l.val) 4 4 0).sqPerform l w
  else (s.updCore l fun k => { k with sqHeld := k.sqHeld ++ [w] }).fset (rg .sqStatus l.val) 16 16 1

/-- The commands held in the register path are performed in order (R171, R610). -/
def State.sqDrain (s : State) (l : LC) : State :=
  let ws := (s.core l).sqHeld
  ws.foldl (fun s w => s.sqPerform l w)
    ((s.updCore l fun k => { k with sqHeld := [] }).fset (rg .sqStatus l.val) 16 16 0)

/-- `LAUNCH` (R761). -/
def execLaunch (lc : LC) (desc : PAddr) (s : State) : Out :=
  .next (s.sqCommand lc (BitVec.ofNat 64 (1 + desc.toNat / 64 * 64)))

/-- `RESUME` (R198). -/
def execResume (lc : LC) (stream : W32) (s : State) : Out :=
  .next (s.sqCommand lc (BitVec.ofNat 64 (2 + stream.toNat * 64)))

/-- `RESTART` (R198). -/
def execRestart (lc : LC) (stream : W32) (s : State) : Out :=
  .next (s.sqCommand lc (BitVec.ofNat 64 (3 + stream.toNat * 64)))

/-- `END` (R172). -/
def execEndStream (lc : LC) (stream : W32) (s : State) : Out :=
  .next (s.sqCommand lc (BitVec.ofNat 64 (4 + stream.toNat * 64)))

/-! ## Event records (R173 to R175) -/

/-- The 64 bytes of an event record (R173). -/
def EventRec.bytes (e : EventRec) (lc : LC) : List W8 :=
  wordsBytes [BitVec.ofNat 64 (e.code.toNat + lc.val * 2 ^ 8 + e.ctx.val * 2 ^ 16 + lc.val / 16 * 2 ^ 18 +
    e.of_.id.toNat * 2 ^ 32), e.pc, e.data, e.time, e.epoch, e.detail, 0, 0]

/-- `EVENT_RECORD_WRITE`: the oldest record of the core is written into its stream's ring once the ring has room, the
written count rises, and the interrupt is sent (R174, R175). A ring that does not translate keeps it waiting (R197). -/
def execEventRecordWrite (lc : LC) (s : State) : Out :=
  .next <|
    match (s.core lc).events with
    | [] => s
    | e :: rest =>
      let x := e.of_
      match s.mapOne (LC.walkDie lc) x.root x.countAddr 1 with
      | none => s
      | some cp =>
        let written := leWord (s.physRead cp 8)
        let consumed := leWord (s.physRead (cp + 8) 8)
        let size := 2 ^ (x.ringLog2.toNat + 4)
        if (written - consumed).toNat = size then s
        else match s.mapOne (LC.walkDie lc) x.root (x.ringBase + BitVec.ofNat 64 (64 * (written.toNat % size))) 1 with
          | none => s
          | some rp =>
            let s := (s.physWrite rp (e.bytes lc)).physWrite cp (leBytes 8 (written + 1).toNat)
            (s.updCore lc fun k => { k with events := rest }).msi x.msiAddr x.msiData

end Sys2Proof.Machine
end

