-- ==== Sys2Proof/Machine/Control.lean ====
section
/-! DEFINITION. Branches and loops (R261, R262, R762), undefined instructions (R188), fences (R255 to R257, R342 to R345),
`commit` and `halt` (R204, R206, R207, R263) and the slot instructions (R275). -/

namespace Sys2Proof.Machine

/-! ## Branches (R261) -/

/-- The target of a branch: its own address plus 8 × off38. -/
def branchTo (pc : W64) (f : BForm) : W64 := pc + 8 * f.off38.signExtend 64

/-- A conditional branch on s[x] and s[y]. -/
def branchOp (min : BitVec 4) (g : W64 → W64 → Bool) (c : Cx) (f : BForm) (s : State) : Out :=
  dtiB 0x40 min c f (fun s =>
    let k := s.ctx c
    if g (k.sget f.x) (k.sget f.y) then .jump s (branchTo k.pc f) else .done s) s

/-- `beq` (R261). -/
def execBeq (c : Cx) (f : BForm) (s : State) : Out := branchOp 0x0 (fun x y => x = y) c f s

/-- `bne` (R261). -/
def execBne (c : Cx) (f : BForm) (s : State) : Out := branchOp 0x1 (fun x y => x ≠ y) c f s

/-- `blt` (R261). -/
def execBlt (c : Cx) (f : BForm) (s : State) : Out := branchOp 0x2 (fun x y => x.slt y) c f s

/-- `bge` (R261). -/
def execBge (c : Cx) (f : BForm) (s : State) : Out := branchOp 0x3 (fun x y => !x.slt y) c f s

/-- `bltu` (R261). -/
def execBltu (c : Cx) (f : BForm) (s : State) : Out := branchOp 0x4 (fun x y => x.ult y) c f s

/-- `bgeu` (R261). -/
def execBgeu (c : Cx) (f : BForm) (s : State) : Out := branchOp 0x5 (fun x y => !x.ult y) c f s

/-- `jal`: s[x] := pc + 8, always taken (R261). -/
def execJal (c : Cx) (f : BForm) (s : State) : Out :=
  dtiB 0x40 0x6 c f (fun s =>
    .jump (s.updCtx c fun k => k.sset f.x (k.pc + 8)) (branchTo (s.ctx c).pc f)) s

/-- `jr`: pc := s[x] with bits [2:0] cleared (R261). -/
def execJr (c : Cx) (f : BForm) (s : State) : Out :=
  dtiB 0x40 0x7 c f (fun s => .jump s ((s.ctx c).sget f.x &&& ~~~7)) s

/-- `brk`: raises `BREAK` with off38[15:0] (R261, R280). -/
def execBrk (c : Cx) (f : BForm) (s : State) : Out :=
  dtiB 0x40 0xF c f (fun s => .exc s .brk 0 (f.off38.setWidth 64 &&& 0xFFFF)) s

/-! ## Loops (R262, R762) -/

/-- `loop`: skips the body for a zero count, raises `LOOP_DEPTH` at four levels, else pushes a level (R262). -/
def execLoop (c : Cx) (f : BForm) (s : State) : Out :=
  dtiB 0x41 0x0 c f (fun s =>
    let k := s.ctx c
    let n := k.sget f.x
    if n = 0 then .jump s (branchTo k.pc f + 8)
    else if 4 ≤ k.loops.length then .exc s .loopDepth 0 0
    else onCtx c (fun k => { k with loops := ⟨n, k.pc + 8, branchTo k.pc f⟩ :: k.loops }) s) s

/-- `lbreak`: leaves the innermost loop; `ILLEGAL` at depth 0 (R262). -/
def execLbreak (c : Cx) (f : BForm) (s : State) : Out :=
  dtiB 0x41 0x1 c f (fun s =>
    match (s.ctx c).loops with
    | [] => .exc s .illegal 0 (f.word 0x41 0x1)
    | l :: t => .jump (s.updCtx c fun k => { k with loops := t }) (l.last + 8)) s

/-- A word that stands for no instruction raises `ILLEGAL` (R188). A word that does stand for one is not this event. -/
def execIllegalInstruction (c : Cx) (w : W64) (s : State) : Out :=
  .next (match decodeDti c w with
    | some _ => s
    | none => dti c w false true .done s)

/-! ## Fences (R255 to R257) -/

/-- Whether every older write of a context has been accepted, the background writes and the epilogue writes of its issued
passes included (R257). -/
def State.writesDone (s : State) (c : Cx) : Bool :=
  let k := s.ctx c
  let q := s.core c.lc
  !q.sb.any (·.c = c.ix) && !q.copyQ.any (·.c = c.ix) && !q.bg.any (·.c = c.ix) && k.bcpOuts.isEmpty &&
    q.drain.all (·.c ≠ c.ix) && k.epi.isEmpty

/-- The scope of a fence: 0 core, 1 chip, 2 sys (R255). -/
def scopeOf (f : IForm) : Nat := f.imm34.toNat % 4

/-- A failed background write is raised, and reported once (R227). -/
def bgRaise (c : Cx) (body : State → Eff) (s : State) : Eff :=
  match (s.ctx c).bgFail with
  | some (e, va, det) => .exc (s.updCtx c fun k => { k with bgFail := none }) e va det
  | none => body s

/-- Whether every tile that the stream of a context has sent has landed (R524). -/
def State.sendsDone (s : State) (c : Cx) : Bool :=
  !(s.core c.lc).sends.any fun x => (s.ctx c).stream = some x.stream && x.c = c.ix

/-- A fence of stores: scope `.core` adds no wait for acceptance, and scope `.sys` waits for tile sends as well (R257, R343 to
R345, R524). -/
def storeFence (c : Cx) (f : IForm) (after : State → State) (s : State) : Eff :=
  bgRaise c (fun s => if scopeOf f = 0 || (s.writesDone c && (scopeOf f = 1 || s.sendsDone c)) then .done (after s)
    else .hold s .sync) s

/-- What a load fence does to the operand cache (R256). -/
def loadFence (c : Cx) (f : IForm) (s : State) : State := if scopeOf f = 0 then s else s.ocEmpty c.lc

/-- `fence.ld` (R256). -/
def execFenceLd (c : Cx) (f : IForm) (s : State) : Out := dtiI 0x30 0x00 c f (fun s => .done (loadFence c f s)) s

/-- `fence.st` (R257). -/
def execFenceSt (c : Cx) (f : IForm) (s : State) : Out := dtiI 0x30 0x01 c f (storeFence c f id) s

/-- `fence.all` (R256, R257). -/
def execFenceAll (c : Cx) (f : IForm) (s : State) : Out := dtiI 0x30 0x02 c f (storeFence c f (loadFence c f)) s

/-! ## Commit and halt (R204, R206, R207, R263) -/

/-- The number of one bits of a mask. -/
def maskCount (m : W32) : Nat := ((List.range 32).filter fun i => m.getLsbD i).length

/-- A commit point starts: its context waits for the copy and the finalization (R204). -/
def startCommit (c : Cx) (mask : W32) (halts : Bool) (s : State) : Eff :=
  bgRaise c (fun s => .pend (s.updCtx c fun k => { k with commit := some ⟨mask, halts, none⟩ }) .sync) s

/-- `commit`: more than 14 mask bits raise `COMMIT_MASK` (R206, R207). -/
def execCommit (c : Cx) (f : IForm) (s : State) : Out :=
  dtiI 0x48 0x00 c f (fun s =>
    let m : W32 := f.imm34.setWidth 32
    if 14 < maskCount m then .exc s .commitMask 0 (m.setWidth 64) else startCommit c m false s) s

/-- `halt`: a commit with an empty mask that ends the stream (R263). -/
def execHalt (c : Cx) (f : IForm) (s : State) : Out := dtiI 0x48 0x01 c f (startCommit c 0 true) s

/-! ## Slots (R275) -/

/-- A slot instruction waits while its slot is `FILLING`. -/
def slotOp (min : BitVec 4) (body : State → Eff) (c : Cx) (f : TForm) (s : State) : Out :=
  dtiT 0x58 min c f (fun s => if ((s.ctx c).slot f.slot).st = .filling then .hold s .sync else body s) s

/-- `slot.def`: the slot's range, and `EMPTY`; a range that reaches 0x5C_0000 raises `ADDR` (R275). -/
def execSlotDef (c : Cx) (f : TForm) (s : State) : Out :=
  slotOp 0x0 (fun s =>
    if 0x5C0000 < 256 * (f.imm16.toNat + f.chain.toNat) then
      .exc s .addr 0 (BitVec.ofNat 64 (windowBase c.lc + 0x5C0000))
    else onCtx c (fun k => k.setSlot f.slot ⟨.empty, 0, f.imm16, f.chain⟩) s) c f s

/-- `slot.mark`: `RESIDENT` (R275, R91). -/
def execSlotMark (c : Cx) (f : TForm) (s : State) : Out :=
  slotOp 0x1 (fun s => onCtx c (fun k => k.setSlot f.slot { k.slot f.slot with st := .resident, status := 0 }) s) c f s

/-- The slot that a tile descriptor names, if it names one. -/
def TileDesc.slotNum (d : TileDesc) : Option (BitVec 4) := if d.w5.getLsbD 20 then some (d.w5.extractLsb' 16 4) else none

/-- Whether an issued weight load or pass of a context, or its drain, still reads or fills a slot (R275). -/
def State.slotInUse (s : State) (c : Cx) (i : BitVec 4) : Bool :=
  let q := s.core c.lc
  q.passes.any (fun p => p.c = c.ix && p.act.slotNum = some i) ||
    (match q.shadow with | .loading d t _ => d = c.ix && t.desc.slotNum = some i | _ => false) ||
    (match q.front with | some x => x.c = c.ix && x.tile.desc.slotNum = some i | none => false) ||
    (match q.drain with | some d => d.c = c.ix && d.out.slotNum = some i | none => false)

/-- `slot.rel`: `EMPTY`, once nothing issued reads the slot (R275). -/
def execSlotRel (c : Cx) (f : TForm) (s : State) : Out :=
  slotOp 0x2 (fun s =>
    if s.slotInUse c f.slot then .hold s .sync
    else onCtx c (fun k => k.setSlot f.slot { k.slot f.slot with st := .empty, status := 0 }) s) c f s

end Sys2Proof.Machine
end

