-- ==== Sys2Proof/Machine/Tiles.lean ====
section
/-! DEFINITION. Tiles: the fields of descriptors (R181, R182), where their bytes lie, how the arrays and the vector engine
read and write them (R33 to R36, R96, R184, R241, R274), and accumulator tiles (R74 to R76, R270 to R272). -/

namespace Sys2Proof.Machine

/-! ## Descriptor fields (R181) -/

section Fields
variable (d : TileDesc)

/-- The number of rows. -/
def TileDesc.rows : Nat := bits d.w3 15 0 + 1
/-- The number of columns. -/
def TileDesc.cols : Nat := bits d.w3 31 16 + 1
/-- Bytes between rows. -/
def TileDesc.stride : Nat := bits d.w3 63 32
/-- The format code. -/
def TileDesc.fmt : Nat := bits d.w5 5 0
/-- The per-tensor scale byte. -/
def TileDesc.tscale : Nat := bits d.w5 15 8
/-- Whether the descriptor names a slot. -/
def TileDesc.slotEn : Bool := d.w5.getLsbD 20
/-- Whether it names a check vector. -/
def TileDesc.chkEn : Bool := d.w5.getLsbD 21
/-- Whether K runs down the columns. -/
def TileDesc.kRows : Bool := d.w5.getLsbD 22
/-- Whether it has a per-block scale array. -/
def TileDesc.scaled : Bool := bits d.w5 7 6 = 1
/-- Whether the descriptor is absent, or a claim none. -/
def TileDesc.absent : Bool := d.fmt = 0
/-- The width of an element in bits. -/
def TileDesc.width : Nat := if d.fmt = 1 then 32 else (elemOf d.fmt).width
/-- The bytes of `n` elements of a row. -/
def TileDesc.elemBytes (n : Nat) : Nat := (d.width * n + 7) / 8
/-- The address of row `r`'s elements. -/
def TileDesc.elemAt (r : Nat) : W64 := sext57 (d.w0 + BitVec.ofNat 64 (r * d.stride))
/-- The address of row `r` of the scale array. -/
def TileDesc.scaleAt (r : Nat) : W64 := sext57 (d.w1 + BitVec.ofNat 64 (r * bits d.w4 31 0))
/-- The address of row `r` of the check vector. -/
def TileDesc.checkAt (r : Nat) : W64 := sext57 (d.w2 + BitVec.ofNat 64 (r * bits d.w4 63 32))

end Fields

/-- `FORMAT`'s detail: code and role, 0 matrix, 1 vector, 2 storage (R280). -/
def formatDetail (d : TileDesc) (role : Nat) : W64 := BitVec.ofNat 64 (d.fmt + role * 2 ^ 8)

/-- `SHAPE`'s detail: found, required, operand, check (R280). -/
def shapeDetail (found required operand check : Nat) : W64 :=
  BitVec.ofNat 64 (found % 2 ^ 16 + required % 2 ^ 16 * 2 ^ 16 + operand * 2 ^ 32 + check * 2 ^ 36)

/-- The format codes that a matrix operand may have (R26). -/
def matrixFormat (n : Nat) : Bool := narrowCode n

/-! ## Reading bytes by virtual address -/

/-- What a read of an engine of the core gives: the bytes, poison at a scratchpad word or a line, an address error, a status
of a lower tier, or a page that needs a walk. -/
inductive VRead where
  | ok (d : List W8)
  | poison (pa : PAddr) (word : Option Nat)
  | addr (pa : PAddr)
  | tier (pa : PAddr) (st : W8)
  | miss (va : W64)
  deriving DecidableEq, Repr

/-- The physical address of a virtual one for a context, from a TLB or else by a walk. -/
def State.vmap (s : State) (c : Cx) (va : W64) (acc : Acc) : Option PAddr :=
  match s.tlbFind (.ctx c) (s.rootOf c) va acc with
  | some t => some (t.at_ va)
  | none => s.mapOne (LC.walkDie c.lc) (s.rootOf c) va acc

/-- A read of bytes that lie in one page. -/
def State.vreadIn (s : State) (c : Cx) (va : W64) (n : Nat) : VRead :=
  match s.vmap c va 0 with
  | none => .miss va
  | some pa =>
    let a := (PAddr.loc pa).toNat
    match s.place c pa false with
    | .bad | .regs _ | .mmio _ => .addr pa
    | .own a => match s.spdBad a n with
      | some w => .poison (mkPA s.vertex (BitVec.ofNat 44 (8 * w))) (some w)
      | none => .ok (s.peek a n)
    | .remote => .ok (s.physRead pa n)
    | .home _ =>
      match (linesOf a n).find? fun l => s.poisoned (BitVec.ofNat 44 l.1) with
      | some l => .poison (mkPA s.vertex (BitVec.ofNat 44 l.1)) none
      | none => match s.tierStatus a with
        | some st => .tier pa st
        | none => .ok (s.homeBytes a n)

/-- A read of `n` bytes at a virtual address, page by page. -/
def State.vread (s : State) (c : Cx) (va : W64) (n : Nat) : VRead :=
  if n = 0 then .ok [] else
    (List.range ((va.toNat % 4096 + n - 1) / 4096 + 1)).foldl (fun r i =>
      match r with
      | .ok d =>
        let start := if i = 0 then 0 else 4096 * i - va.toNat % 4096
        let stop := min n (4096 * (i + 1) - va.toNat % 4096)
        match s.vreadIn c (va + BitVec.ofNat 64 start) (stop - start) with
        | .ok e => .ok (d ++ e)
        | x => x
      | x => x) (.ok [])

/-- Several reads in turn; the first that fails decides. -/
def State.vreads (s : State) (c : Cx) (ps : List (W64 × Nat)) : Except (W64 × VRead) (List (List W8)) :=
  ps.foldl (fun r p => match r with
    | .ok ds => match s.vread c p.1 p.2 with
      | .ok d => .ok (ds ++ [d])
      | x => .error (p.1, x)
    | e => e) (.ok [])

/-- The pieces of a read, page by page. -/
def pagePieces (va : W64) (n : Nat) : List (W64 × Nat) :=
  if n = 0 then [] else
    (List.range ((va.toNat % 4096 + n - 1) / 4096 + 1)).map fun i =>
      let start := if i = 0 then 0 else 4096 * i - va.toNat % 4096
      (va + BitVec.ofNat 64 start, min n (4096 * (i + 1) - va.toNat % 4096) - start)

/-- What reads do to the error state of the scratchpad words they read (R119, R120). -/
def State.vtouch (s : State) (c : Cx) (ps : List (W64 × Nat)) : State :=
  if s.softWords.isEmpty && s.badWords.isEmpty then s
  else (ps.flatMap fun p => pagePieces p.1 p.2).foldl (fun s p => match s.vmap c p.1 0 with
    | some pa => (match s.place c pa false with
      | .own a => s.spdTouch a p.2
      | .home a => if regionOf a.toNat = .window then (linesOf a.toNat p.2).foldl (fun s l => s.spdTouch l.1 128) s else s
      | _ => s)
    | none => s) s

/-- The state after reads that gave a result: nothing is read while a page waits for a walk. -/
def State.vtouched {α : Type} (s : State) (c : Cx) (ps : List (W64 × Nat)) : Except (W64 × VRead) α → State
  | .error (_, .miss _) => s
  | _ => s.vtouch c ps

/-- The effect of a failed read of an instruction that reads its operands itself (R759, R224): the exception with the
address of the read, or a wait for a walk. -/
def readFail (c : Cx) (w : Wait) (s : State) (x : W64 × VRead) : Eff :=
  match x.2 with
  | .ok _ => .hold s w
  | .poison pa _ => .exc s .poison x.1 (pa.setWidth 64)
  | .addr pa => .exc s .addr x.1 ((PAddr.loc pa).setWidth 64)
  | .tier pa st => .exc s .tierError x.1 (BitVec.ofNat 64 (tierOf (PAddr.loc pa).toNat + st.toNat * 2 ^ 8))
  | .miss v => .hold (s.askWalk ⟨.ctx c, v, 0, s.rootOf c, false, none, false⟩) w

/-! ## Rows of narrow values -/

/-- One row of a tile as codes and the scale byte of each block of 32; the scale of a format without per-block scales is
its implied one (R33 to R36). -/
structure TRow where
  codes : List Nat
  scales : List Nat
  deriving DecidableEq, Repr

/-- The reads of row `r` of an activation tile: elements, then scales (R181). -/
def TileDesc.rowReads (d : TileDesc) (r : Nat) : List (W64 × Nat) :=
  [(d.elemAt r, d.elemBytes d.cols)] ++ (if d.scaled then [(d.scaleAt r, (d.cols + 31) / 32)] else [])

/-- The scale byte of a block of a format without per-block scales. -/
def TileDesc.implied (d : TileDesc) : Nat := if isOfp8 d.fmt then d.tscale else 127

/-- A row from the bytes read. -/
def TileDesc.row (d : TileDesc) (bs : List (List W8)) : TRow :=
  let n := d.cols
  ⟨unpackBits d.width n (bs.getD 0 []),
    if d.scaled then (bs.getD 1 []).map (·.toNat) else List.replicate ((n + 31) / 32) d.implied⟩

/-- The value of an element under its scale byte: NaN for the scale 0xFF (R32, R45). -/
def scaledNum (fmt code scale : Nat) : Num :=
  let v := (elemOf fmt).decode code
  if scale = 0xFF then .nan (decide (v = .nan true)) else v.scale (Int.ofNat scale - 127)

/-- The values of a row. -/
def TRow.nums (x : TRow) (fmt : Nat) : List Num :=
  (List.range x.codes.length).map fun i => scaledNum fmt (x.codes.getD i 0) (x.scales.getD (i / 32) 127)

/-- A row widened to FP32, with the flags; an FP32 tile as it is (R51, R239). -/
def TileDesc.widenRow (d : TileDesc) (bs : List (List W8)) : List (W32 × W32) :=
  if d.fmt = 1 then (List.range d.cols).map fun i => (BitVec.ofNat 32 (leNat (((bs.getD 0 []).drop (4 * i)).take 4)), 0)
  else ((d.row bs).nums d.fmt).map widen

/-- The writes of row `r` of an output tile: FP32 values of its columns converted with padding to whole blocks, the elements,
the scales, the check value of each 128 columns, and the flags (R96, R274). -/
def TileDesc.rowWrites (d : TileDesc) (r : Nat) (sat : Bool) (draws : List W32) (vals : List W32) :
    List (W64 × List W8) × W32 :=
  let n := d.cols
  let chk (ns : List Num) : List (W64 × List W8) := if d.chkEn then
    [(d.checkAt r, (List.range ((n + 127) / 128)).flatMap fun g =>
      leBytes 4 (sumRound ((ns.drop (128 * g)).take 128)).toNat)] else []
  if d.fmt = 1 then
    ((d.elemAt r, (List.range n).flatMap fun i => leBytes 4 (vals.getD i 0).toNat) ::
      chk ((List.range n).map fun i => num32 (vals.getD i 0)), 0)
  else
    let m := if isMx d.fmt then (n + 31) / 32 * 32 else n
    let cv := convert d.fmt d.tscale sat draws ((List.range m).map fun i =>
      if i < n then num32 (vals.getD i 0) else .fin false 0 0)
    ([(d.elemAt r, (packBits d.width cv.codes).take (d.elemBytes m))] ++
      (if d.scaled then [(d.scaleAt r, cv.scales.map fun x => BitVec.ofNat 8 x)] else []) ++ chk (cv.values.take n),
      cv.flags)

/-- Draws that one row of a conversion takes (R62; log entry 41). -/
def TileDesc.rowDraws (d : TileDesc) : Nat :=
  if d.fmt = 1 then 0 else if isMx d.fmt then (d.cols + 31) / 32 * 32 else d.cols

/-! ## Background writes (R226, R227) -/

/-- A write of a background instruction on its way from the core. -/
def State.bgPut (s : State) (c : Cx) (tag : WriteTag) (ws : List (W64 × List W8)) : State :=
  s.updCore c.lc fun k => { k with bg := k.bg ++ ws.map fun w => ⟨c.ix, w.1, w.2, .normal, tag⟩ }

/-! ## Accumulator tiles (R74 to R76, R270 to R272) -/

/-- Rows of array `i` in a pass of `rows` rows (R270). -/
def arrayRows (rows i : Nat) : Nat := rows / 4 + (if i < rows % 4 then 1 else 0)
/-- The first row of array `i`. -/
def arrayStart (rows i : Nat) : Nat := ((List.range i).map (arrayRows rows)).foldl (· + ·) 0
/-- The most rows that an array takes. -/
def maxRows (rows : Nat) : Nat := (rows + 3) / 4
/-- The array and the row within it of row `g` of a pass. -/
def arrayOf (rows g : Nat) : Nat × Nat :=
  match (List.range 4).find? fun i => g < arrayStart rows i + arrayRows rows i with
  | some i => (i, g - arrayStart rows i)
  | none => (3, g - arrayStart rows 3)
/-- The scratchpad offset of accumulator tile `i` at a base in KiB (R270). -/
def accTile (base rows i : Nat) : Nat := 1024 * base + i * (2048 + 1024 * maxRows rows)
/-- The end of the four tiles. -/
def accEnd (base rows : Nat) : Nat := accTile base rows 4

/-- The row-map byte of row `r` of the tile at an offset, and the pair within it (R271). -/
def State.rowMap (s : State) (c : Cx) (tile r : Nat) : W8 := BitVec.ofNat 8 (s.spdN c (tile + r / 4) 1)

/-- The offset of copy `k` of row `r`. -/
def rowCopy (tile r k : Nat) : Nat := tile + 0x800 + 1024 * r + 512 * k

/-- The bytes of the current copy of an accumulator row lie at this offset (R75). -/
def State.accAt (s : State) (c : Cx) (tile r : Nat) : Nat := rowCopy tile r (curCopy (s.rowMap c tile r) (r % 4))

/-- 128 FP32 values at an offset of the own scratchpad. -/
def State.spdRow (s : State) (c : Cx) (off : Nat) : List W32 :=
  (List.range 128).map fun i => BitVec.ofNat 32 (s.spdN c (off + 4 * i) 4)

/-- The bytes of FP32 values. -/
def rowBytes (v : List W32) : List W8 := v.flatMap fun w => leBytes 4 w.toNat

/-- The tile's header is among those that a commit point or a rollback changes. -/
def State.accMark (s : State) (c : Cx) (tile : Nat) : State :=
  s.updCtx c fun k => if tile ∈ k.accs then k else { k with accs := k.accs ++ [tile] }

/-- The current value of an accumulator row (R75). -/
def State.accGet (s : State) (c : Cx) (tile r : Nat) : List W32 := s.spdRow c (s.accAt c tile r)

/-- An accumulator row written, as a first or a later write since the last commit point (R75). -/
def State.accPut (s : State) (c : Cx) (tile r : Nat) (v : List W32) : State :=
  let b := s.rowMap c tile r
  let s := s.spdPut c (rowCopy tile r (nextCopy b (r % 4))) (rowBytes v)
  (s.spdPut c (tile + r / 4) [b ||| (2 <<< (2 * (r % 4)))]).accMark c tile

/-- The current checksum-row vector S of a tile (R271, R272). -/
def State.sumGet (s : State) (c : Cx) (tile : Nat) : List W32 :=
  s.spdRow c (tile + 0x200 + 0x200 * curCopy (BitVec.ofNat 8 (s.spdN c (tile + 0x40) 1)) 0)

/-- The checksum-row vector written. -/
def State.sumPut (s : State) (c : Cx) (tile : Nat) (v : List W32) : State :=
  let b : W8 := BitVec.ofNat 8 (s.spdN c (tile + 0x40) 1)
  let s := s.spdPut c (tile + 0x200 + 0x200 * nextCopy b 0) (rowBytes v)
  (s.spdPut c (tile + 0x40) [b ||| 2]).accMark c tile

/-- Whether a pass writes row `r` of the accumulator tile at an offset and has not released it. -/
def Pass.holds (p : Pass) (tile r : Nat) : Bool :=
  (List.range 4).any fun i => accTile p.base p.rows i = tile && decide (p.fed ≤ r) && decide (r < arrayRows p.rows i)

/-- Whether epilogue runs on a row of the accumulator tile at an offset are pending (R303). -/
def EpiJob.holds (j : EpiJob) (tile r : Nat) : Bool :=
  (List.range 4).any fun i => accTile j.base j.rows i = tile && decide (r < arrayRows j.rows i) &&
    decide (4 * j.next ≤ arrayStart j.rows i + r)

/-- The tile base of `vld.acc` and `vst.acc` as a scratchpad offset, or the exception that it raises (R247). -/
def State.accBase (s : State) (c : Cx) (f : MForm) : Except Eff Nat :=
  let va := (s.ctx c).aget f.a
  if va.toNat % 1024 ≠ 0 then .error (.exc s .align va 1024)
  else match s.vmap c va 0 with
    | none => .error (.hold (s.askWalk ⟨.ctx c, va, 0, s.rootOf c, false, none, false⟩) .ocmiss)
    | some pa =>
      let a := (PAddr.loc pa).toNat
      let off := (windowOf a).2
      if !s.isLocal pa || regionOf a ≠ .window || (windowOf a).1 ≠ c.lc.val ||
          0x5C0000 < rowCopy off (f.off32.toNat + 4) 0 then
        .error (.exc s .addr va ((PAddr.loc pa).setWidth 64))
      else .ok off

/-- The wait of an access to four rows of an accumulator tile (R247, R303). -/
def State.accWait (s : State) (c : Cx) (tile r : Nat) : Option Wait :=
  if (s.core c.lc).passes.any fun p => p.c = c.ix && (List.range 4).any fun i => p.holds tile (r + i) then some .array
  else if (s.ctx c).epi.any fun j => (List.range 4).any fun i => j.holds tile (r + i) then some .chain
  else none

/-- The first uncorrectable word of the current copies of four rows. -/
def State.accBad (s : State) (c : Cx) (tile r : Nat) : Option Nat :=
  (List.range 4).findSome? fun i => s.spdBad (windowBase c.lc + s.accAt c tile (r + i)) 512

/-- What reading the current copies of four rows does to the error state of their words (R119, R120). -/
def State.accTouch (s : State) (c : Cx) (tile r : Nat) : State :=
  (List.range 4).foldl (fun t i => t.spdTouch (windowBase c.lc + s.accAt c tile (r + i)) 512) s

/-- `vld.acc`: the current copies of four accumulator rows into v[d] (R247). -/
def execVldAcc (c : Cx) (f : MForm) (s : State) : Out :=
  dtiM 0x21 0x7 true c f (fun s =>
    match s.accBase c f with
    | .error e => e
    | .ok tile =>
      let r := f.off32.toNat
      match s.accWait c tile r with
      | some w => .hold s w
      | none => match s.accBad c tile r with
        | some w => .exc (s.accTouch c tile r) .poison ((s.ctx c).aget f.a) ((mkPA s.vertex (BitVec.ofNat 44 (8 * w))).setWidth 64)
        | none =>
          let v := (List.range 4).flatMap fun i => s.accGet c tile (r + i)
          onCtx c (fun k => k.vset f.d (lanes fun i =>
            if k.pred f.pn f.pg i then v.getD i 0 else k.vlane f.d i)) (s.accTouch c tile r)) s

/-- `vst.acc`: v[d] into four accumulator rows, as first or later writes; lanes whose predicate is false keep the row's
value, and a row without a true lane is not written (R247, R192). -/
def execVstAcc (c : Cx) (f : MForm) (s : State) : Out :=
  dtiM 0x21 0x8 true c f (fun s =>
    match s.accBase c f with
    | .error e => e
    | .ok tile =>
      let r := f.off32.toNat
      match s.accWait c tile r with
      | some w => .hold s w
      | none =>
        let k := s.ctx c
        .done ((List.range 4).foldl (fun s i =>
          let old := s.accGet c tile (r + i)
          if (List.range 128).all (fun n => !k.pred f.pn f.pg (128 * i + n)) then s
          else s.accPut c tile (r + i) ((List.range 128).map fun n =>
            if k.pred f.pn f.pg (128 * i + n) then k.vlane f.d (128 * i + n) else old.getD n 0)) s)) s

end Sys2Proof.Machine
end

