-- ==== Sys2Proof/Machine/Vector.lean ====
section
/-! DEFINITION. Vector arithmetic, reductions, transcendentals, conversions and predicates (majors 0x10 to 0x14: R232 to
R243). -/

namespace Sys2Proof.Machine

/-! ## Shared forms -/

/-- v[d].i := the value of lane i, in the lanes whose predicate is true; their flags enter astat (R179, R192). -/
def Context.mapLanes (k : Context) (pn : Bool) (pg : BitVec 3) (d : BitVec 5) (g : Nat → W32 × W32) : Context :=
  let r := lanes fun i => if k.pred pn pg i then g i else (k.vlane d i, 0)
  (k.vset d (r.map (·.1))).raiseFlags (r.foldl (fun a x => a ||| x.2) 0)

/-- The y operand of lane i: v[y].i, or s[y][31:0] when mod bit [20] is set (R233). -/
def Context.yLane (k : Context) (f : SForm) (i : Nat) : W32 :=
  if f.mod.getLsbD 4 then (k.sget f.y).setWidth 32 else k.vlane f.y i

/-- A lane-wise instruction of class 0x10 or 0x12 with operands x, y and z. -/
def vectorOp (maj min : W8) (g : W32 → W32 → W32 → W32 × W32) (c : Cx) (f : SForm) (s : State) : Out :=
  dtiV maj min c f (onCtx c fun k => k.mapLanes f.pn f.pg f.d fun i =>
    g (k.vlane f.x i) (k.yLane f i) (k.vlane f.z i)) s

/-- One level of the pairwise tree, with the flags of its combinations (R235). -/
def pairUp (op : W32 → W32 → W32 × W32) : List W32 → List W32 × W32
  | a :: b :: t => let r := op a b; let q := pairUp op t; (r.1 :: q.1, r.2 ||| q.2)
  | w => (w, 0)

/-- The pairwise tree over 2^n lanes (R235). -/
def treeReduce (op : W32 → W32 → W32 × W32) : Nat → List W32 × W32 → W32 × W32
  | 0, w => (w.1.headD 0, w.2)
  | n + 1, w => let r := pairUp op w.1; treeReduce op n (r.1, w.2 ||| r.2)

/-- The logarithm of the group size that mod bits [21:20] select (R234). -/
def groupLog (mod : W8) : Nat := if mod = 0x10 then 7 else if mod = 0x20 then 5 else 9

/-- Lane `i` of a reduction: the result of group i, +0 in the lanes above the groups (R234). `pre` is applied to each source
lane first. -/
def Context.reduceLane (k : Context) (pre : W32 → W32 × W32) (op : W32 → W32 → W32 × W32) (f : SForm) (i : Nat) : W32 × W32 :=
  let n := groupLog f.mod
  if i < 512 / 2 ^ n then
    let src := (List.range (2 ^ n)).map fun j => pre (k.vlane f.x (2 ^ n * i + j))
    treeReduce op n (src.map (·.1), src.foldl (fun a x => a ||| x.2) 0)
  else (0, 0)

/-- A reduction under R192 (R234). -/
def reduceOp (min : W8) (pre : W32 → W32 × W32) (op : W32 → W32 → W32 × W32) (c : Cx) (f : SForm) (s : State) : Out :=
  dtiV 0x11 min c f (onCtx c fun k => k.mapLanes f.pn f.pg f.d fun i => k.reduceLane pre op f i) s

/-- p[d].i := the value of lane i, in the lanes whose predicate is true (R243). -/
def Context.mapPred (k : Context) (f : SForm) (g : Nat → Bool × W32) : Context :=
  let d := f.d.setWidth 3
  let r := lanes fun i => if k.pred f.pn f.pg i then g i else (k.plane d i, 0)
  (k.pset d (r.map (·.1))).raiseFlags (r.foldl (fun a x => a ||| x.2) 0)

/-- A comparison of v[x] and v[y] into p[d] (R243). -/
def compareOp (min : W8) (g : W32 → W32 → Bool × W32) (c : Cx) (f : SForm) (s : State) : Out :=
  dtiV 0x14 min c f (onCtx c fun k => k.mapPred f fun i => g (k.vlane f.x i) (k.vlane f.y i)) s

/-- A logic operation on predicates (R243). -/
def predOp (min : W8) (g : Bool → Bool → Bool) (c : Cx) (f : SForm) (s : State) : Out :=
  dtiV 0x14 min c f (onCtx c fun k => k.mapPred f fun i =>
    (g (k.plane (f.x.setWidth 3) i) (k.plane (f.y.setWidth 3) i), 0)) s

/-! ## Vector arithmetic (R233) -/

/-- `vadd` (R233). -/
def execVadd (c : Cx) (f : SForm) (s : State) : Out := vectorOp 0x10 0x00 (fun x y _ => fAdd x y) c f s

/-- `vsub` (R233). -/
def execVsub (c : Cx) (f : SForm) (s : State) : Out := vectorOp 0x10 0x01 (fun x y _ => fSub x y) c f s

/-- `vmul` (R233). -/
def execVmul (c : Cx) (f : SForm) (s : State) : Out := vectorOp 0x10 0x02 (fun x y _ => fMul x y) c f s

/-- `vfma` (R233). -/
def execVfma (c : Cx) (f : SForm) (s : State) : Out := vectorOp 0x10 0x03 (fun x y z => fFma x y z) c f s

/-- `vfms` (R233). -/
def execVfms (c : Cx) (f : SForm) (s : State) : Out := vectorOp 0x10 0x04 (fun x y z => fFma x y (fNeg z)) c f s

/-- `vdiv` (R233). -/
def execVdiv (c : Cx) (f : SForm) (s : State) : Out := vectorOp 0x10 0x05 (fun x y _ => fDiv x y) c f s

/-- `vsqrt` (R233). -/
def execVsqrt (c : Cx) (f : SForm) (s : State) : Out := vectorOp 0x10 0x06 (fun x _ _ => fSqrt x) c f s

/-- `vrcp` (R237, R238, R753). -/
def execVrcp (c : Cx) (f : SForm) (s : State) : Out := vectorOp 0x10 0x07 (fun x _ _ => vfun 10 x) c f s

/-- `vrsqrt` (R237, R238, R753). -/
def execVrsqrt (c : Cx) (f : SForm) (s : State) : Out := vectorOp 0x10 0x08 (fun x _ _ => vfun 11 x) c f s

/-- `vmin` (R233). -/
def execVmin (c : Cx) (f : SForm) (s : State) : Out := vectorOp 0x10 0x09 (fun x y _ => fMin x y) c f s

/-- `vmax` (R233). -/
def execVmax (c : Cx) (f : SForm) (s : State) : Out := vectorOp 0x10 0x0A (fun x y _ => fMax x y) c f s

/-- `vabs` (R233). -/
def execVabs (c : Cx) (f : SForm) (s : State) : Out := vectorOp 0x10 0x0B (fun x _ _ => (x &&& 0x7FFFFFFF, 0)) c f s

/-- `vneg` (R233). -/
def execVneg (c : Cx) (f : SForm) (s : State) : Out := vectorOp 0x10 0x0C (fun x _ _ => (x ^^^ 0x80000000, 0)) c f s

/-- `vmov` (R233). -/
def execVmov (c : Cx) (f : SForm) (s : State) : Out := vectorOp 0x10 0x0D (fun x _ _ => (x, 0)) c f s

/-- `vbcast`: v[d].i := s[x][31:0] (R233). -/
def execVbcast (c : Cx) (f : SForm) (s : State) : Out :=
  dtiV 0x10 0x0E c f (onCtx c fun k => k.mapLanes f.pn f.pg f.d fun _ => ((k.sget f.x).setWidth 32, 0)) s

/-- `vsel`: v[d].i := v[x].i if p[y].i, else v[z].i (R233). -/
def execVsel (c : Cx) (f : SForm) (s : State) : Out :=
  dtiV 0x10 0x0F c f (onCtx c fun k => k.mapLanes f.pn f.pg f.d fun i =>
    (if k.plane (f.y.setWidth 3) i then k.vlane f.x i else k.vlane f.z i, 0)) s

/-- `vext`: s[d] := one lane of v[x], zero-extended, under the predicate of lane 0 (R233, R193). -/
def execVext (c : Cx) (f : SForm) (s : State) : Out :=
  dtiS 0x10 0x10 c f (onCtx c fun k => k.sset f.d ((k.vlane f.x f.imm16.toNat).setWidth 64)) s

/-- `vins`: one lane of v[d] := s[x][31:0], when that lane's predicate is true (R233, R192). -/
def execVins (c : Cx) (f : SForm) (s : State) : Out :=
  dtiV 0x10 0x11 c f (onCtx c fun k => k.mapLanes f.pn f.pg f.d fun i =>
    (if i = f.imm16.toNat then (k.sget f.x).setWidth 32 else k.vlane f.d i, 0)) s

/-! ## Reductions (R234, R235) -/

/-- `vrsum`: the sum of each group by the tree (R234). -/
def execVrsum (c : Cx) (f : SForm) (s : State) : Out := reduceOp 0x00 (fun x => (x, 0)) fAdd c f s

/-- `vrmax`: the maximum of each group by the tree (R234). -/
def execVrmax (c : Cx) (f : SForm) (s : State) : Out := reduceOp 0x01 (fun x => (x, 0)) fMax c f s

/-- `vrmin`: the minimum of each group by the tree (R234). -/
def execVrmin (c : Cx) (f : SForm) (s : State) : Out := reduceOp 0x02 (fun x => (x, 0)) fMin c f s

/-- `vrsumsq`: each square rounded, then summed by the tree (R234). -/
def execVrsumsq (c : Cx) (f : SForm) (s : State) : Out := reduceOp 0x03 (fun x => fMul x x) fAdd c f s

/-! ## Transcendentals (R236 to R238, R753) -/

/-- `vexp2` (R236, R238, R753). -/
def execVexp2 (c : Cx) (f : SForm) (s : State) : Out := vectorOp 0x12 0x00 (fun x _ _ => vfun 0 x) c f s

/-- `vlog2` (R236, R238, R753). -/
def execVlog2 (c : Cx) (f : SForm) (s : State) : Out := vectorOp 0x12 0x01 (fun x _ _ => vfun 1 x) c f s

/-- `vexp` (R236, R238, R753). -/
def execVexp (c : Cx) (f : SForm) (s : State) : Out := vectorOp 0x12 0x02 (fun x _ _ => vfun 2 x) c f s

/-- `vlog` (R236, R238, R753). -/
def execVlog (c : Cx) (f : SForm) (s : State) : Out := vectorOp 0x12 0x03 (fun x _ _ => vfun 3 x) c f s

/-- `vtanh` (R236, R238, R753). -/
def execVtanh (c : Cx) (f : SForm) (s : State) : Out := vectorOp 0x12 0x04 (fun x _ _ => vfun 4 x) c f s

/-- `vsigm` (R236, R238, R753). -/
def execVsigm (c : Cx) (f : SForm) (s : State) : Out := vectorOp 0x12 0x05 (fun x _ _ => vfun 5 x) c f s

/-- `vsilu` (R236, R238, R753). -/
def execVsilu (c : Cx) (f : SForm) (s : State) : Out := vectorOp 0x12 0x06 (fun x _ _ => vfun 6 x) c f s

/-- `vgelu` (R236, R238, R753). -/
def execVgelu (c : Cx) (f : SForm) (s : State) : Out := vectorOp 0x12 0x07 (fun x _ _ => vfun 7 x) c f s

/-- `vsin` (R236, R238, R753). -/
def execVsin (c : Cx) (f : SForm) (s : State) : Out := vectorOp 0x12 0x08 (fun x _ _ => vfun 8 x) c f s

/-- `vcos` (R236, R238, R753). -/
def execVcos (c : Cx) (f : SForm) (s : State) : Out := vectorOp 0x12 0x09 (fun x _ _ => vfun 9 x) c f s

/-! ## Format conversion (R239 to R242) -/

/-- The bytes of vector lanes, lane 0 first. -/
def laneBytes (v : List W32) : List W8 := v.flatMap fun w => leBytes 4 w.toNat

/-- The 512 lanes that 2,048 bytes give. -/
def bytesLanes (bs : List W8) : List W32 :=
  lanes fun i => BitVec.ofNat 32 (leNat ((bs.drop (4 * i)).take 4))

/-- The bytes of a vector register. -/
def Context.vbytes (k : Context) (r : BitVec 5) : List W8 := laneBytes (lanes fun i => k.vlane r i)

/-- The packed form of 512 values: elements from byte 0, scales in lanes 384 to 387, check values from lane 388, every
other byte zero (R240, R241). -/
def packedForm (code : Nat) (check : Bool) (cv : Converted) : List W8 :=
  let elems := packBits (elemOf code).width cv.codes
  let chk : List W8 := if check then (List.range 4).flatMap fun g =>
    leBytes 4 (sumRound ((cv.values.drop (128 * g)).take 128)).toNat else []
  fit 1536 elems ++ fit 16 (cv.scales.map fun x => BitVec.ofNat 8 x) ++ fit 496 chk

/-- `cvt.n`: the 512 lanes of v[x] into the packed form in v[d]; a stochastic conversion takes 512 draws in lane order
(R239 to R242, R62). -/
def execCvtN (c : Cx) (f : SForm) (s : State) : Out :=
  dtiV 0x13 0x00 c f (onCtx c fun k =>
    let code := f.imm16.toNat
    let dr := if f.mod.getLsbD 0 then srDraws 512 k.srstate else ([], k.srstate)
    let cv := convert code ((k.sget f.y).toNat % 256) (f.mod.getLsbD 2) dr.1 (lanes fun i => num32 (k.vlane f.x i))
    ({ k with srstate := dr.2 }.vset f.d (bytesLanes (packedForm code (f.mod.getLsbD 3) cv))).raiseFlags cv.flags) s

/-- The FP32 lanes of a packed form (R51, R239); `tscale` is the per-tensor scale of OFP8. A block scale or tensor scale of
0xFF makes every value it covers the canonical NaN and sets no flag of its own; a signalling NaN element sets `nv` (R36, R45,
R65). -/
def unpackForm (code tscale : Nat) (bs : List W8) : List (W32 × W32) :=
  let f := elemOf code
  let codes := unpackBits f.width 512 (bs.take (64 * f.width))
  lanes fun i =>
    let sc := if isMx code then (bs.getD (1536 + i / 32) 0).toNat else if isOfp8 code then tscale else 127
    let v := f.decode (codes.getD i 0)
    if sc = 0xFF then (qnan, snanFlag [v]) else widen (v.scale (Int.ofNat sc - 127))

/-- `cvt.w`: the packed form in v[x] into 512 FP32 lanes of v[d], exactly, in infinity mode (R239, R51). -/
def execCvtW (c : Cx) (f : SForm) (s : State) : Out :=
  dtiV 0x13 0x01 c f (onCtx c fun k =>
    let r := unpackForm f.imm16.toNat ((k.sget f.y).toNat % 256) (k.vbytes f.x)
    (k.vset f.d (r.map (·.1))).raiseFlags (r.foldl (fun a x => a ||| x.2) 0)) s

/-! ## Predicates (R243) -/

/-- `vcmp.eq` (R243). -/
def execVcmpEq (c : Cx) (f : SForm) (s : State) : Out := compareOp 0x00 fEq c f s

/-- `vcmp.lt` (R243). -/
def execVcmpLt (c : Cx) (f : SForm) (s : State) : Out := compareOp 0x01 fLt c f s

/-- `vcmp.le` (R243). -/
def execVcmpLe (c : Cx) (f : SForm) (s : State) : Out := compareOp 0x02 fLe c f s

/-- `vcmp.un` (R243). -/
def execVcmpUn (c : Cx) (f : SForm) (s : State) : Out := compareOp 0x03 fUn c f s

/-- `pand` (R243). -/
def execPand (c : Cx) (f : SForm) (s : State) : Out := predOp 0x04 (fun a b => a && b) c f s

/-- `por` (R243). -/
def execPor (c : Cx) (f : SForm) (s : State) : Out := predOp 0x05 (fun a b => a || b) c f s

/-- `pxor` (R243). -/
def execPxor (c : Cx) (f : SForm) (s : State) : Out := predOp 0x06 (fun a b => a != b) c f s

/-- `pnot` (R243). -/
def execPnot (c : Cx) (f : SForm) (s : State) : Out := predOp 0x07 (fun a _ => !a) c f s

/-- `pfirst`: p[d].i := i < s[x], unsigned (R243). -/
def execPfirst (c : Cx) (f : SForm) (s : State) : Out :=
  dtiV 0x14 0x08 c f (onCtx c fun k => k.mapPred f fun i => (decide (i < (k.sget f.x).toNat), 0)) s

end Sys2Proof.Machine
end

