-- ==== Sys2Proof/Machine/Chain.lean ====
section
/-! DEFINITION. Fused chains (R281 to R314): descriptors and their budget, the state that a chain keeps, its programs, the
running statistics, and the runs of the vector engine. -/

namespace Sys2Proof.Machine

/-! ## The descriptor (R282) -/

section Desc
variable (x : ChainRt)

/-- A 64-bit word of the descriptor. -/
def ChainRt.w (i : Nat) : W64 := leWord ((x.desc.drop (8 * i)).take 8)
/-- Lengths of the two programs. -/
def ChainRt.proLen : Nat := bits (x.w 1) 6 0
/-- Length of the epilogue. -/
def ChainRt.epiLen : Nat := bits (x.w 1) 14 8
/-- The statistic: 0 none, 1 softmax, 2 Welford, 3 sum of squares. -/
def ChainRt.stat : Nat := bits (x.w 1) 17 16
/-- The output: 0 none, 1 accumulator in place, 2 output tile, 3 output tile and send. -/
def ChainRt.outMode : Nat := bits (x.w 1) 19 18
/-- Whether the chain is linked. -/
def ChainRt.link : Bool := (x.w 1).getLsbD 20
/-- Whether odd column tiles go to the alternate output. -/
def ChainRt.alt : Bool := (x.w 1).getLsbD 21
/-- Offset of the state copies. -/
def ChainRt.statOff : Nat := bits (x.w 3) 22 0
/-- Offset of the stamps. -/
def ChainRt.stampOff : Nat := bits (x.w 3) 54 32
/-- Constant k0 to k7. -/
def ChainRt.konst (i : Nat) : W32 := BitVec.ofNat 32 (leNat ((x.desc.drop (0x20 + 4 * (i % 8))).take 4))
/-- Rows of the chain. -/
def ChainRt.rows : Nat := bits (x.w 8) 9 0 + 1
/-- Column tiles of the chain. -/
def ChainRt.colTiles : Nat := bits (x.w 8) 25 16 + 1
/-- The linked accumulator base in KiB. -/
def ChainRt.linkAcc : Nat := bits (x.w 8) 47 32
/-- Columns that count. -/
def ChainRt.colLimit : Nat := bits (x.w 10) 31 0
/-- The constant eps. -/
def ChainRt.eps : W32 := (x.w 10).extractLsb' 32 32
/-- A tile descriptor of the chain, by its offset. -/
def ChainRt.tile (off : Nat) : TileDesc := TileDesc.ofBytes ((x.desc.drop off).take 48)
/-- Bytes of a stamp: 4 for softmax without link, 8 for Welford (R310). -/
def ChainRt.stampW : Nat := if x.stat = 1 && !x.link then 4 else if x.stat = 2 then 8 else 0
/-- Bytes of the stat area (R284). -/
def ChainRt.statSize : Nat := 0x200 + (if x.stat = 0 then 0 else 32 * x.rows)
/-- Bytes of the stamp area (R310). -/
def ChainRt.stampSize : Nat := x.colTiles * x.rows * x.stampW
/-- The output tile of a column tile (R305). -/
def ChainRt.outOf (j : Nat) : TileDesc := if x.alt && j % 2 = 1 then x.tile 0x170 else x.tile 0x140

end Desc

/-- A chain as memory holds its descriptor and programs (R282). -/
def State.chainRead (s : State) (c : Cx) (off : Nat) : ChainRt :=
  let d := s.spd c off 512
  let x : ChainRt := ⟨off, d, [], []⟩
  let prog (o n : Nat) : List W64 := bytesWords (s.spd c o (8 * min n 64))
  { x with pro := prog (bits (x.w 2) 22 0) x.proLen, epi := prog (bits (x.w 2) 54 32) x.epiLen }

/-! ## The state of a chain (R283 to R285) -/

/-- A state copy: status word, the two generators, the stream, the column tiles issued (R284). Their places in the copy
are the model's (log entry 33). -/
structure ChainSt where
  status : W64 := 0
  eg : W32 := 0
  pg : W32 := 0
  sid : W32 := 0
  issued : Nat := 0
  deriving DecidableEq, Repr

/-- The current state copy. -/
def State.chainSt (s : State) (c : Cx) (x : ChainRt) : ChainSt :=
  let cp := curCopy (BitVec.ofNat 8 (s.spdN c (x.statOff + 0x80) 1)) 0
  let o := x.statOff + 0x40 * cp
  let n (p k : Nat) : Nat := s.spdN c (o + p) k
  ⟨BitVec.ofNat 64 (n 0 8), BitVec.ofNat 32 (n 8 4), BitVec.ofNat 32 (n 12 4), BitVec.ofNat 32 (n 16 4), n 20 4⟩

/-- The chain's maps are among those that a commit point or a rollback changes. -/
def State.chainMark (s : State) (c : Cx) (x : ChainRt) : State :=
  s.updCtx c fun k => if k.stats.any (·.1 = x.off) then k else { k with stats := k.stats ++ [(x.off, x.statOff, x.rows)] }

/-- A state copy written, and the status word of the descriptor with it (R285). -/
def State.setChainSt (s : State) (c : Cx) (x : ChainRt) (y : ChainSt) : State :=
  let m : W8 := BitVec.ofNat 8 (s.spdN c (x.statOff + 0x80) 1)
  let s := s.spdPut c (x.statOff + 0x40 * nextCopy m 0) (leBytes 8 y.status.toNat ++ leBytes 4 y.eg.toNat ++
    leBytes 4 y.pg.toNat ++ leBytes 4 y.sid.toNat ++ leBytes 4 y.issued)
  let s := s.spdPut c (x.statOff + 0x80) [m ||| 2]
  (s.spdPut c x.off (leBytes 8 y.status.toNat)).chainMark c x

/-- A statistic row: the values a and b and the count n (R284). -/
structure StatRow where
  a : W32
  b : W32
  n : Nat
  deriving DecidableEq, Repr

/-- The current copy of a statistic row. -/
def State.statGet (s : State) (c : Cx) (x : ChainRt) (r : Nat) : StatRow :=
  let m : W8 := BitVec.ofNat 8 (s.spdN c (x.statOff + 0x100 + r / 4) 1)
  let o := x.statOff + 0x200 + 32 * r + 16 * curCopy m (r % 4)
  ⟨BitVec.ofNat 32 (s.spdN c o 4), BitVec.ofNat 32 (s.spdN c (o + 4) 4), s.spdN c (o + 8) 4⟩

/-- A statistic row written. -/
def State.statPut (s : State) (c : Cx) (x : ChainRt) (r : Nat) (v : StatRow) : State :=
  let m : W8 := BitVec.ofNat 8 (s.spdN c (x.statOff + 0x100 + r / 4) 1)
  let s := s.spdPut c (x.statOff + 0x200 + 32 * r + 16 * nextCopy m (r % 4))
    (leBytes 4 v.a.toNat ++ leBytes 4 v.b.toNat ++ leBytes 4 v.n ++ leBytes 4 0)
  (s.spdPut c (x.statOff + 0x100 + r / 4) [m ||| (2 <<< (2 * (r % 4)))]).chainMark c x

/-- Whether the current state marks the descriptor loaded by the context's stream (R290). -/
def State.chainLoaded (s : State) (c : Cx) (x : ChainRt) : Bool :=
  (s.chainSt c x).status.getLsbD 8 && some (s.chainSt c x).sid = (s.ctx c).stream

/-- Whether `chain.ld` finds the descriptor already loaded: its mark is set, and the stream that it names was not ended by a per-core
reset, unless the context itself has bound it since (R287, R680). -/
def State.chainMarked (s : State) (c : Cx) (x : ChainRt) : Bool :=
  (s.chainSt c x).status.getLsbD 8 &&
    (!s.resetEnded.contains (c.lc, (s.chainSt c x).sid) || (s.ctx c).chains.any (·.off = x.off))

/-- The latched chain of an offset that a context has bound. -/
def Context.chainAt (k : Context) (off : Nat) : Option ChainRt := k.chains.find? (·.off = off)

/-- The chain that a pass names, bound again without a check when its descriptor is loaded by the same stream (R290). -/
def State.chainBind (s : State) (c : Cx) (off : Nat) : Option ChainRt :=
  match (s.ctx c).chainAt off with
  | some x => if s.chainLoaded c x then some x else none
  | none =>
    let x := s.chainRead c off
    if s.chainLoaded c x then some x else none

/-! ## The budget (R287 to R289, R291, R292) -/

/-- Whether a chain program may hold a word (R292). -/
def chainAllowed (w : W64) : Bool :=
  let f := SForm.ofWord w
  let maj := (wordMajor w)
  let min := (wordMinor8 w)
  (maj = 0x10 || maj = 0x11 || maj = 0x12 || maj = 0x14) && (sCtor maj min).isSome && f.legal maj min &&
    !(maj = 0x10 && (min = 0x0E || min = 0x10 || min = 0x11)) && !(maj = 0x14 && min = 0x08)

/-- Whether a word of a chain program names registers, predicates and constants that a chain has (R287 item 0x06). -/
def chainNames (w : W64) : Bool :=
  let f := SForm.ofWord w
  let maj := (wordMajor w)
  let min := (wordMinor8 w)
  let logic := maj = 0x14 && 4 ≤ min
  let top : Nat := if logic then 4 else 16
  decide (f.pg.toNat < 4) && decide (f.z.toNat < 16) && decide (f.x.toNat < top) &&
    decide (f.d.toNat < (if maj = 0x14 then 4 else 16)) &&
    decide (f.y.toNat < (if f.mod.getLsbD 4 && maj = 0x10 then 8 else if maj = 0x10 && min = 0x0F then 4 else top))

/-- The offset in the own scratchpad of a virtual address, if it lies there. -/
def State.spdOff (s : State) (c : Cx) (va : W64) : Option Nat :=
  match s.vmap c va 0 with
  | none => none
  | some pa =>
    let a := (PAddr.loc pa).toNat
    if s.isLocal pa && regionOf a = .window && (windowOf a).1 = c.lc.val then some (windowOf a).2 else none

/-- The parts of a tile that lie in the own scratchpad, as offset and size: elements, scales, check vector (R288). -/
def State.tileParts (s : State) (c : Cx) (d : TileDesc) : List (Nat × Nat) :=
  let n := d.rows
  let part (a : W64) (stride last : Nat) : Option (Nat × Nat) := (s.spdOff c a).map fun o => (o, (n - 1) * stride + last)
  if d.absent then [] else
    ([part (d.elemAt 0) d.stride (d.elemBytes d.cols)] ++
      (if d.scaled then [part (d.scaleAt 0) (bits d.w4 31 0) ((d.cols + 31) / 32)] else []) ++
      (if d.chkEn then [part (d.checkAt 0) (bits d.w4 63 32) (4 * ((d.cols + 127) / 128))] else [])).filterMap id

/-- The staging bytes of a chain (R288). -/
def State.stagingBytes (s : State) (c : Cx) (x : ChainRt) : Nat :=
  512 + 8 * (x.proLen + x.epiLen) + x.statSize + x.stampSize +
    (([0x140, 0x170, 0x1A0, 0x1D0] : List Nat).flatMap fun o => s.tileParts c (x.tile o)).foldl (fun n p => n + p.2) 0

/-- The areas of a chain that must neither overlap its descriptor nor reach 0x5C_0000 (R287 item 0x07). -/
def State.chainAreas (s : State) (c : Cx) (x : ChainRt) : List (Nat × Nat) :=
  [(x.statOff, x.statSize), (x.stampOff, x.stampSize), (bits (x.w 2) 22 0, 8 * x.proLen),
    (bits (x.w 2) 54 32, 8 * x.epiLen)] ++
  (([0x140, 0x170, 0x1A0, 0x1D0] : List Nat).flatMap fun o => s.tileParts c (x.tile o))

/-- The descriptor fields that break R287's item 0x08, in ascending offset: a reserved bit, a present operand that fails R183,
a disagreement under R289. -/
def State.chainFields (s : State) (c : Cx) (x : ChainRt) : List (Nat × Bool) :=
  let rsvWord (i : Nat) (used : Nat) : Bool := (x.w i).toNat &&& (2 ^ 64 - 1 - used) ≠ 0
  let fld (hi lo : Nat) : Nat := 2 ^ (hi + 1) - 2 ^ lo
  let present (o : Nat) : Bool := !(x.tile o).absent
  let opBad (o : Nat) : Bool := present o && (x.tile o).invalid.isSome
  let noSlot (o : Nat) : Bool := present o && !(x.tile o).slotEn
  let rsv := x.tile 0x1D0
  let keepsOut := (x.stat = 1 && !x.link) || x.stat = 2
  [(0x008, rsvWord 1 (fld 6 0 + fld 14 8 + fld 24 16) || (x.link && !(x.stat = 1 && x.outMode = 2)) ||
      (x.outMode = 3 && !(x.stat = 0 || x.stat = 3))),
    (0x010, rsvWord 2 (fld 22 3 + fld 54 35)), (0x018, rsvWord 3 (fld 22 7 + fld 54 39)),
    (0x040, rsvWord 8 (fld 9 0 + fld 25 16 + fld 47 32)),
    (0x050, (2 ≤ x.stat && !(fLt 0 x.eps).1) || x.colLimit = 0 || 128 * x.colTiles < x.colLimit),
    (0x060, rsvWord 12 (fld 29 0)), (0x068, !((x.desc.drop 0x68).take 24).all (· = 0)),
    (0x080, opBad 0x080 || (x.proLen ≠ 0 && !present 0x080) || noSlot 0x080), (0x0B0, opBad 0x0B0 || noSlot 0x0B0),
    (0x0E0, opBad 0x0E0 || noSlot 0x0E0 || (present 0x0E0 && (x.tile 0x0E0).rows ≠ 1)),
    (0x110, opBad 0x110 || noSlot 0x110 || (present 0x110 && ((x.tile 0x110).cols ≠ 1 || (x.tile 0x110).fmt ≠ 1))),
    (0x140, opBad 0x140 || (keepsOut && (!present 0x140 || (s.spdOff c ((x.tile 0x140).elemAt 0)).isNone))),
    (0x170, opBad 0x170 || (x.alt && !present 0x170)), (0x1A0, opBad 0x1A0 || (keepsOut && !present 0x1A0)),
    (0x1D0, opBad 0x1D0 || noSlot 0x1D0 || ((keepsOut || x.stat = 3) && !present 0x1D0) ||
      (present 0x1D0 && !(rsv.fmt = 1 && rsv.rows = x.rows && rsv.cols = (if x.stat = 2 then 2 else 1))))]

/-- The budget item that a chain fails first, with the amount (R287). -/
def State.chainReject (s : State) (c : Cx) (x : ChainRt) : Option (Nat × Nat) :=
  let k := s.ctx c
  let total := ((k.chains.filter (·.off ≠ x.off)).map fun y => s.stagingBytes c y).foldl (· + ·) (s.stagingBytes c x)
  let bad (p : W64 → Bool) : Option Nat :=
    match x.pro.findIdx? fun w => !p w with
    | some i => some i
    | none => x.epi.findIdx? fun w => !p w
  if 64 < x.proLen then some (0x01, x.proLen)
  else if 64 < x.epiLen then some (0x02, x.epiLen)
  else if 1572864 < total then some (0x03, total)
  else if 2 ≤ k.chains.length then some (0x04, 3)
  else match bad chainAllowed with
    | some i => some (0x05, i)
    | none => match bad chainNames with
      | some i => some (0x06, i)
      | none =>
        let past := (s.chainAreas c x).find? fun p => p.2 ≠ 0 && (decide (0x5C0000 < p.1 + p.2) ||
          (decide (p.1 < x.off + 512) && decide (x.off < p.1 + p.2)))
        if x.off = 0 ∨ 0x5BFE00 < x.off then some (0x07, x.off)
        else match past with
          | some p => some (0x07, p.1)
          | none => match (s.chainFields c x).find? (·.2) with
            | some p => some (0x08, p.1)
            | none => if s.chainMarked c x then some (0x0C, 0) else none

/-- `CHAIN_REJECT`'s detail (R280). -/
def rejectDetail (item amount : Nat) : W64 := BitVec.ofNat 64 (item + amount % 2 ^ 32 * 2 ^ 32)

/-- The seed of a generator (R60). -/
def genSeed (w : W32) : W32 := if w = 0 then 1 else w

/-- A chain instruction's offset; at or above 0x5C_0000 it raises `ADDR` (R264). -/
def chainOp (min : BitVec 4) (body : Nat → State → Eff) (c : Cx) (f : TForm) (s : State) : Out :=
  dtiT 0x49 min c f (fun s =>
    let off := 128 * f.chain.toNat
    if 0x5C0000 ≤ off then .exc s .addr 0 (BitVec.ofNat 64 (windowBase c.lc + off)) else body off s) s

/-- `chain.ld`: the descriptor is checked and its working state initialised (R286, R287). -/
def execChainLd (c : Cx) (f : TForm) (s : State) : Out :=
  chainOp 0x0 (fun off s =>
    match s.spdBad (windowBase c.lc + off) 512 with
    | some w => .exc (s.spdTouch (windowBase c.lc + off) 512) .poison 0 ((mkPA s.vertex (BitVec.ofNat 44 (8 * w))).setWidth 64)
    | none =>
      let s := s.spdTouch (windowBase c.lc + off) 512
      let x := s.chainRead c off
      match s.chainReject c x with
      | some (item, n) => .exc s .chainReject 0 (rejectDetail item n)
      | none =>
        let y : ChainSt := ⟨0x100, genSeed ((x.w 11).setWidth 32), genSeed ((x.w 11).extractLsb' 32 32),
          ((s.ctx c).stream.getD 0), 0⟩
        let s := s.setChainSt c x y
        let s := if x.stat = 0 then s else (List.range x.rows).foldl (fun s r =>
          s.statPut c x r ⟨if x.stat = 1 then 0xFF800000 else 0, 0, 0⟩) s
        onCtx c (fun k => { k with chains := (k.chains.filter (·.off ≠ off)) ++ [x] }) s) c f s

/-- Whether an issued pass, or an epilogue run, still uses a chain. -/
def State.chainBusy (s : State) (c : Cx) (off : Nat) : Bool :=
  (s.core c.lc).passes.any (fun p => p.c = c.ix && p.chain = off) || (s.ctx c).epi.any (·.chain = off)

/-- `chain.rowfix`: accepted once; a second has no effect. A descriptor that is not loaded is refused as a pass would refuse
it (R283, R291, R303, R312). -/
def execChainRowfix (c : Cx) (f : TForm) (s : State) : Out :=
  chainOp 0x1 (fun off s =>
    match s.chainBind c off with
    | none => .exc s .chainReject 0 (rejectDetail 0x0B f.chain.toNat)
    | some x =>
      let y := s.chainSt c x
      if y.status.getLsbD 9 then .done s
      else if (s.ctx c).rowfix.isSome then .hold s .chain
      else
        let s := s.setChainSt c x { y with status := y.status ||| 0x200 }
        onCtx c (fun k => { k with
          rowfix := some off
          chains := (k.chains.filter (·.off ≠ off)) ++ [x] }) s) c f s

/-- `chain.drop`: waits for passes and a pending rowfix, then clears the binding, loaded and rows_final (R264, R291, R303). -/
def execChainDrop (c : Cx) (f : TForm) (s : State) : Out :=
  chainOp 0x2 (fun off s =>
    if s.chainBusy c off || (s.ctx c).rowfix = some off then .hold s .chain
    else
      let s := match s.chainBind c off with
        | none => s
        | some x =>
          let y := s.chainSt c x
          s.setChainSt c x { y with status := y.status &&& ~~~0x8000000000000100 }
      onCtx c (fun k => { k with chains := k.chains.filter (·.off ≠ off) }) s) c f s

/-! ## Programs (R292, R293) -/

/-- The lane function of class 0x10 or 0x12 by its minor opcode (R233, R236). -/
def laneFn (maj min : Nat) : W32 → W32 → W32 → W32 × W32 :=
  if maj = 0x12 then fun x _ _ => vfun min x
  else match min with
    | 0x00 => fun x y _ => fAdd x y
    | 0x01 => fun x y _ => fSub x y
    | 0x02 => fun x y _ => fMul x y
    | 0x03 => fFma
    | 0x04 => fun x y z => fFma x y (fNeg z)
    | 0x05 => fun x y _ => fDiv x y
    | 0x06 => fun x _ _ => fSqrt x
    | 0x07 => fun x _ _ => vfun 10 x
    | 0x08 => fun x _ _ => vfun 11 x
    | 0x09 => fun x y _ => fMin x y
    | 0x0A => fun x y _ => fMax x y
    | 0x0B => fun x _ _ => (x &&& 0x7FFFFFFF, 0)
    | 0x0C => fun x _ _ => (x ^^^ 0x80000000, 0)
    | _ => fun x _ _ => (x, 0)

/-- One word of a chain program on the chain's registers, held as the vector registers and predicates of a context; `konst`
gives the constants (R292). -/
def chainStep (konst : Nat → W32) (k : Context) (w : W64) : Context :=
  let f := SForm.ofWord w
  let maj := (wordMajor w)
  let min := (wordMinor8 w)
  let y (i : Nat) : W32 := if f.mod.getLsbD 4 then konst f.y.toNat else k.vlane f.y i
  if maj = 0x10 ∧ min = 0x0F then
    k.mapLanes f.pn f.pg f.d fun i =>
      (if k.plane (f.y.setWidth 3) i then k.vlane f.x i else k.vlane f.z i, 0)
  else if maj = 0x10 ∨ maj = 0x12 then
    k.mapLanes f.pn f.pg f.d fun i => laneFn maj min (k.vlane f.x i) (y i) (k.vlane f.z i)
  else if maj = 0x11 then
    k.mapLanes f.pn f.pg f.d fun i => match min with
      | 0 => k.reduceLane (fun x => (x, 0)) fAdd f i
      | 1 => k.reduceLane (fun x => (x, 0)) fMax f i
      | 2 => k.reduceLane (fun x => (x, 0)) fMin f i
      | _ => k.reduceLane (fun x => fMul x x) fAdd f i
  else
    k.mapPred f fun i =>
      let a := k.vlane f.x i
      let b := k.vlane f.y i
      let p := k.plane (f.x.setWidth 3) i
      let q := k.plane (f.y.setWidth 3) i
      match min with
      | 0 => fEq a b
      | 1 => fLt a b
      | 2 => fLe a b
      | 3 => fUn a b
      | 4 => (p && q, 0)
      | 5 => (p || q, 0)
      | 6 => (p != q, 0)
      | _ => (!p, 0)

/-- The row values of an operand tile of a chain at a row and 128 columns from a column, widened; +0 where it is absent or
ends (R293). -/
def State.opRow (s : State) (c : Cx) (d : TileDesc) (r col : Nat) : Except (W64 × VRead) (List (W32 × W32)) :=
  if d.absent || d.rows ≤ r then .ok (List.replicate 128 (0, 0))
  else match s.vreads c (d.rowReads r) with
    | .error e => .error e
    | .ok bs =>
      let v := d.widenRow bs
      .ok ((List.range 128).map fun i => v.getD (col + i) (0, 0))

/-- The reads that `State.opRow` makes for a row. -/
def State.opReads (_ : State) (d : TileDesc) (r : Nat) : List (W64 × Nat) :=
  if d.absent || d.rows ≤ r then [] else d.rowReads r

/-- Four rows of 128 lanes from a reader of one row. -/
def fourRows (g : Nat → Except (W64 × VRead) (List (W32 × W32))) : Except (W64 × VRead) (List (W32 × W32)) :=
  (List.range 4).foldl (fun r i => match r, g i with
    | .ok a, .ok b => .ok (a ++ b)
    | .error e, _ => .error e
    | _, .error e => .error e) (.ok [])

/-- The reads of a run's operands at four rows (R293). -/
def State.runReads (s : State) (x : ChainRt) (row : Nat) : List (W64 × Nat) :=
  ((List.range 4).flatMap fun i => s.opReads (x.tile 0x0B0) (row + i) ++ s.opReads (x.tile 0x110) (row + i)) ++
    s.opReads (x.tile 0x0E0) 0

/-- The registers at the start of a run (R293): c0, the row and column of its first lane, and the lanes of q1. -/
def State.chainRegs (s : State) (c : Cx) (x : ChainRt) (c0 : List (W32 × W32)) (row col : Nat) (live : Nat → Bool) :
    Except (W64 × VRead) Context :=
  let aux := fourRows fun i => s.opRow c (x.tile 0x0B0) (row + i) col
  let vec := fourRows fun _ => s.opRow c (x.tile 0x0E0) 0 col
  let rv := fourRows fun i => match s.opRow c (x.tile 0x110) (row + i) 0 with
    | .ok v => .ok (List.replicate 128 (v.headD (0, 0)))
    | .error e => .error e
  match aux, vec, rv with
  | .ok c1, .ok c2, .ok c4 =>
    let rb := (x.w 9).setWidth 32 |>.toInt
    let cb := (((x.w 9).extractLsb' 32 32 : W32)).toInt
    let c3 := lanes fun i => ((⟨(cb + Int.ofNat (col + i % 128)) - (rb + Int.ofNat (row + i / 128)), 0⟩ : Dy).round false).1
    let fl := (c0 ++ c1 ++ c2 ++ c4).foldl (fun a y => a ||| y.2) 0
    .ok { v := [(0, c0.map (·.1)), (1, c1.map (·.1)), (2, c2.map (·.1)), (3, c3), (4, c4.map (·.1))],
          p := [(1, lanes live)], astat := fl }
  | .error e, _, _ => .error e
  | _, .error e, _ => .error e
  | _, _, .error e => .error e

/-! ## Statistics (R307 to R310) -/

/-- A value whose flags join those of the run. -/
def flagged (r : W32 × W32) : StateM W32 W32 := do modify (· ||| r.2); pure r.1

/-- The fixed pairwise order over 128 lanes (R235). -/
def tree128 (op : W32 → W32 → W32 × W32) (v : List W32) : StateM W32 W32 := flagged (treeReduce op 7 (v, 0))

/-- A function of each lane in q1, +0 elsewhere. -/
def mapLive (live : Nat → Bool) (g : W32 → W32 × W32) (v : List W32) : StateM W32 (List W32) :=
  (List.range 128).foldlM (fun acc i => do
    let y ← if live i then flagged (g (v.getD i 0)) else pure 0
    pure (acc ++ [y])) []

/-- What the statistic stage gives for a row: the result lanes, the new statistic, the stamp, the factor of a linked rescale,
and whether the maximum rose. -/
structure StatOut where
  lanes : List W32
  row : StatRow
  stamp : List W32
  factor : Option W32
  rose : Bool
  deriving DecidableEq, Repr

/-- The running softmax update of a row (R307). -/
def statSoftmax (link : Bool) (live : Nat → Bool) (st : StatRow) (v : List W32) : StateM W32 StatOut := do
  let ninf : W32 := 0xFF800000
  let t ← tree128 fMax ((List.range 128).map fun i => if live i then v.getD i 0 else ninf)
  let m1 ← flagged (fMax st.a t)
  if m1 = ninf then pure ⟨List.replicate 128 0, { st with a := m1 }, [m1], none, false⟩
  else
    let p ← mapLive live (fun w => let d := fSub w m1; let e := vfun 2 d.1; (e.1, d.2 ||| e.2)) v
    let rose := (fLt st.a m1).1
    let cf ← if m1 = st.a then pure 0x3F800000
      else do let d ← flagged (fSub st.a m1); flagged (vfun 2 d)
    let sp ← tree128 fAdd p
    let bc ← flagged (fMul st.b cf)
    let b ← flagged (fAdd bc sp)
    pure ⟨p, ⟨m1, b, st.n⟩, [m1], if link && rose then some cf else none, rose⟩

/-- An exact count as FP32. -/
def ofCount (n : Nat) : W32 := (round32 false n 0).1

/-- The reciprocal of a square root of a statistic (R308, R312). -/
def invRoot (b : W32) (n : Nat) (eps : W32) : StateM W32 W32 := do
  let q ← flagged (fDiv b (ofCount n))
  let e ← flagged (fAdd q eps)
  let r ← flagged (fSqrt e)
  flagged (fDiv 0x3F800000 r)

/-- The running Welford update of a row; without a lane in q1 it gives no stamp (R308; log entry 85). -/
def statWelford (eps : W32) (live : Nat → Bool) (st : StatRow) (v : List W32) : StateM W32 StatOut := do
  let nb := ((List.range 128).filter live).length
  if nb = 0 then
    pure ⟨List.replicate 128 0, st, [], none, false⟩
  else
    let x0 ← mapLive live (fun w => (w, 0)) v
    let sx ← tree128 fAdd x0
    let mb ← flagged (fDiv sx (ofCount nb))
    let sq ← mapLive live (fun w => let d := fSub w mb; let q := fMul d.1 d.1; (q.1, d.2 ||| q.2)) v
    let qb ← tree128 fAdd sq
    let n1 := st.n + nb
    let d ← flagged (fSub mb st.a)
    let w1 ← flagged (fDiv (ofCount nb) (ofCount n1))
    let da ← flagged (fMul d w1)
    let a ← flagged (fAdd st.a da)
    let b1 ← flagged (fAdd st.b qb)
    let dd ← flagged (fMul d d)
    let w2 ← flagged (fDiv (ofCount (st.n * nb)) (ofCount n1))
    let t ← flagged (fMul dd w2)
    let b ← flagged (fAdd b1 t)
    let inv ← invRoot b n1 eps
    let res ← (List.range 128).foldlM (fun acc i => do
      let y ← flagged (fSub (v.getD i 0) a)
      let z ← flagged (fMul y inv)
      pure (acc ++ [z])) []
    pure ⟨res, ⟨a, b, n1⟩, [a, inv], none, false⟩

/-- The running sum of squares of a row (R309). -/
def statSquares (live : Nat → Bool) (st : StatRow) (v : List W32) : StateM W32 StatOut := do
  let sq ← mapLive live (fun w => fMul w w) v
  let t ← tree128 fAdd sq
  let a ← flagged (fAdd st.a t)
  pure ⟨v, ⟨a, st.b, st.n + ((List.range 128).filter live).length⟩, [], none, false⟩

/-- The statistic stage of a row. -/
def statRun (x : ChainRt) (live : Nat → Bool) (st : StatRow) (v : List W32) : StateM W32 StatOut :=
  match x.stat with
  | 0 => pure ⟨v, st, [], none, false⟩
  | 1 => statSoftmax x.link live st v
  | 2 => statWelford x.eps live st v
  | _ => statSquares live st v

/-! ## Runs (R294 to R306) -/

/-- A failed write or read of background work is kept until a fence, commit or halt raises it; the first counts (R227). -/
def State.bgFailed (s : State) (c : Cx) (e : Exc) (va detail : W64) : State :=
  s.updCtx c fun k => if k.bgFail.isSome then k else { k with bgFail := some (e, va, detail) }

/-- A run that reads an uncorrectable accumulator word or operand is an operand-check failure of its pass (R120). -/
def State.runFailed (s : State) (c : Cx) (pc : W64) (e : W64 × VRead) : State :=
  match e.2 with
  | .poison _ w => s.checkFailed c { cls := 0x03, index := 0, action := 0x02 } pc w true e.1 0
  | .miss v => match s.takeFailed (.ctx c) v with
    | some (id, s) => s.bgFailed c .access v (id.setWidth 64)
    | none => s.askWalk ⟨.ctx c, v, 0, s.rootOf c, true, none, false⟩
  | .addr pa => s.bgFailed c .addr e.1 ((PAddr.loc pa).setWidth 64)
  | .tier pa st => s.bgFailed c .tierError e.1 (BitVec.ofNat 64 (tierOf (PAddr.loc pa).toNat + st.toNat * 2 ^ 8))
  | .ok _ => s

/-- Columns `col` to `col + n − 1` of a tile, as a tile of its own. -/
def TileDesc.sub (d : TileDesc) (col n : Nat) : TileDesc :=
  { d with
    w0 := withBits d.w0 56 0 (bits d.w0 56 0 + d.width * col / 8)
    w1 := withBits d.w1 56 0 (bits d.w1 56 0 + col / 32)
    w2 := withBits d.w2 56 0 (bits d.w2 56 0 + 4 * (col / 128))
    w3 := withBits d.w3 31 16 (n - 1) }

/-- The writes of the four rows of a run into a tile's columns from `col`, with the flags; draws are those of the run's 512
lanes (R297, R302, R305). -/
def runWrites (d : TileDesc) (row rows col : Nat) (sat : Bool) (draws : List W32) (v : List W32) :
    List (W64 × List W8) × W32 :=
  let t := d.sub col (min 128 (d.cols - col))
  (List.range 4).foldl (fun acc i =>
    if row + i < rows then
      let w := t.rowWrites (row + i) sat ((draws.drop (128 * i)).take 128) ((v.drop (128 * i)).take 128)
      (acc.1 ++ w.1, acc.2 ||| w.2)
    else acc) ([], 0)

/-- The slot that a background output fills becomes `FILLING` with its first write. -/
def State.fillStart (s : State) (c : Cx) (d : TileDesc) : State :=
  match d.slotNum with
  | none => s
  | some i =>
    if ((s.ctx c).slot i).st = .filling then s
    else s.updCtx c fun k =>
      { (k.setSlot i { k.slot i with st := .filling, status := 0 }) with fills := k.fills ++ [⟨i, .writes⟩] }

/-- Whether the rows of a chain tile have been released (R295). -/
def EpiJob.ready (j : EpiJob) : Bool :=
  (List.range 4).all fun i =>
    decide (j.rows ≤ 4 * j.next + i) || decide ((arrayOf j.rows (4 * j.next + i)).2 < j.released)

/-- Whether a run may write its output tile now: its slot is `EMPTY` or already filled by this column tile, and no issued
pass reads it (R303). -/
def State.outReady (s : State) (c : Cx) (d : TileDesc) (first : Bool) : Bool :=
  match d.slotNum with
  | none => true
  | some i =>
    let st := ((s.ctx c).slot i).st
    if first then (st = .empty || st = .failed) && !s.slotInUse c i else st = .filling

/-- Whether an issued pass has yet to release rows of the linked accumulator (R303). -/
def State.linkBusy (s : State) (c : Cx) (x : ChainRt) : Bool :=
  x.link && (s.core c.lc).passes.any fun p => p.c = c.ix && p.base = x.linkAcc

/-- The linked accumulator row times a factor (R307, R311). -/
def State.linkScale (s : State) (c : Cx) (x : ChainRt) (g : Nat) (cf : W32) : State × W32 :=
  let p := arrayOf x.rows g
  let tile := accTile x.linkAcc x.rows p.1
  let r := (s.accGet c tile p.2).map fun w => fMul w cf
  (s.accPut c tile p.2 (r.map (·.1)), r.foldl (fun a y => a ||| y.2) 0)

/-- The statistic stage over the rows of a run: the state, the new c0, the stamps of its rows, the rises, the flags. -/
def State.statStage (s : State) (c : Cx) (x : ChainRt) (row : Nat) (live : Nat → Bool) (c0 : List W32) :
    State × List W32 × List (Nat × List W32) × Nat × W32 :=
  (List.range 4).foldl (fun acc i =>
    let v := (c0.drop (128 * i)).take 128
    if x.rows ≤ row + i then (acc.1, acc.2.1 ++ v, acc.2.2.1, acc.2.2.2.1, acc.2.2.2.2)
    else
      let r := (statRun x (fun n => live (128 * i + n)) (acc.1.statGet c x (row + i)) v).run acc.2.2.2.2
      let s := if x.stat = 0 then acc.1 else acc.1.statPut c x (row + i) r.1.row
      let l := match r.1.factor with
        | some cf => s.linkScale c x (row + i) cf
        | none => (s, 0)
      (l.1, acc.2.1 ++ r.1.lanes, acc.2.2.1 ++ [(row + i, r.1.stamp)],
        acc.2.2.2.1 + (if r.1.rose then 1 else 0), r.2 ||| l.2)) (s, [], [], 0, 0)

/-- Status word with flags raised, rises added and column tiles completed (R283). -/
def statusAfter (w : W64) (fl : W32) (rises : Nat) (tileDone : Bool) : W64 :=
  let w := w ||| (fl.setWidth 64 &&& 0x7F)
  let w := withBits w 47 32 (min (bits w 47 32 + rises) 0xFFFF)
  if tileDone then withBits w 26 16 (bits w 26 16 + 1) else w

/-- `EPILOGUE_RUN`: the next run of the context, in order of column tile and chain tile, once its rows are released and its
output may be written (R294, R295, R299 to R311). -/
def execEpilogueRun (c : Cx) (s : State) : Out :=
  .next <|
    match (s.ctx c).epi with
    | [] => s
    | j :: later =>
      match (s.ctx c).chainAt j.chain with
      | none => s
      | some x =>
        let d := x.outOf j.tile
        let row := 4 * j.next
        let writes := 2 ≤ x.outMode
        if !s.coreUp c.lc || !j.ready || (writes && !s.outReady c d (j.next = 0)) || s.linkBusy c x then s
        else
          let bad := (List.range 4).findSome? fun i =>
            if row + i < j.rows then
              let p := arrayOf j.rows (row + i)
              s.spdBad (windowBase c.lc + s.accAt c (accTile j.base j.rows p.1) p.2) 512
            else none
          let touched := (List.range 4).foldl (fun t i =>
            if row + i < j.rows then
              let p := arrayOf j.rows (row + i)
              t.spdTouch (windowBase c.lc + s.accAt c (accTile j.base j.rows p.1) p.2) 512
            else t) s
          let s := touched
          match bad with
          | some w => s.runFailed c j.pc (0, .poison 0 (some w))
          | none =>
            let c0 := (List.range 4).flatMap fun i =>
              if row + i < j.rows then
                let p := arrayOf j.rows (row + i)
                s.accGet c (accTile j.base j.rows p.1) p.2
              else List.replicate 128 0
            let live (i : Nat) : Bool := decide (row + i / 128 < j.rows) && decide (128 * j.tile + i % 128 < x.colLimit)
            let got := s.chainRegs c x (c0.map fun w => (w, 0)) row (128 * j.tile) live
            let s := s.vtouched c (s.runReads x row) got
            match got with
            | .error e => s.runFailed c j.pc e
            | .ok regs =>
              let k := x.epi.foldl (chainStep x.konst) regs
              let st := s.statStage c x row live (lanes fun i => k.vlane 0 i)
              let s := st.1
              let v := st.2.1
              let fl := k.astat ||| st.2.2.2.2
              let y := s.chainSt c x
              let sr := (x.w 1).getLsbD 23 && writes
              let dr := if sr then srDraws 512 y.eg else ([], y.eg)
              let s := if x.outMode = 1 then (List.range 4).foldl (fun s i =>
                  if row + i < j.rows then
                    let p := arrayOf j.rows (row + i)
                    s.accPut c (accTile j.base j.rows p.1) p.2 ((v.drop (128 * i)).take 128)
                  else s) s else s
              let w := if writes then runWrites d row j.rows 0 ((x.w 1).getLsbD 24) dr.1 v else ([], 0)
              let s := if writes then (s.fillStart c d).bgPut c .epilogue w.1 else s
              let s := if x.stampW = 0 then s else st.2.2.1.foldl (fun s p =>
                let at_ := x.stampOff + (j.tile * x.rows + p.1) * x.stampW
                if p.2.isEmpty then s.drawn.spdPut c at_ (leBytes 8 s.freeVal.toNat) else s.spdPut c at_ (rowBytes p.2)) s
              let last := j.rows ≤ row + 4
              let s := s.setChainSt c x { y with
                status := statusAfter y.status (fl ||| w.2) st.2.2.2.1 last
                eg := dr.2 }
              s.updCtx c fun k => { k with
                epi := if last then later else { j with next := j.next + 1 } :: later
                sends := if last && x.outMode = 3 then k.sends ++ [(j.chain, j.tile, j.entry, j.pc)] else k.sends }

/-- `PROLOGUE_RUN`: the next run of the context's prologue: four rows and 128 columns of pro_src through the program into
the activation tile (R296, R297, R302). -/
def execPrologueRun (c : Cx) (s : State) : Out :=
  .next <|
    match (s.ctx c).pro with
    | none => s
    | some j => match (s.ctx c).chainAt j.chain with
      | none => s
      | some x =>
        let groups := (j.act.cols + 127) / 128
        let row := 4 * (j.next / groups)
        let col := 128 * (j.next % groups)
        let src := x.tile 0x080
        let pc := (s.ctx c).pc
        if !s.coreUp c.lc then s
        else match fourRows fun i => s.opRow c src (row + i) col with
          | .error e => s.runFailed c pc e
          | .ok c0 =>
            let live (i : Nat) : Bool := decide (row + i / 128 < src.rows) && decide (col + i % 128 < src.cols)
            let got := s.chainRegs c x c0 row col live
            let s := s.vtouched c (((List.range 4).flatMap fun i => s.opReads src (row + i)) ++ s.runReads x row) got
            match got with
            | .error e => s.runFailed c pc e
            | .ok regs =>
              let k := x.pro.foldl (chainStep x.konst) regs
              let y := s.chainSt c x
              let dr := if (x.w 1).getLsbD 22 then srDraws 512 y.pg else ([], y.pg)
              let w := runWrites j.act row j.act.rows col ((x.w 1).getLsbD 24) dr.1 (lanes fun i => k.vlane 0 i)
              let s := (s.bgPut c .epilogue w.1).setChainSt c x { y with
                status := statusAfter y.status (k.astat ||| w.2) 0 false
                pg := dr.2 }
              s.updCtx c fun k => { k with
                pro := if (j.act.rows + 3) / 4 * groups ≤ j.next + 1 then none else some { j with next := j.next + 1 } }

/-! ## The final row correction (R312) -/

/-- The value written to rsv for a row (R312). -/
def rsvRow (x : ChainRt) (st : StatRow) : StateM W32 (List W32) :=
  match x.stat with
  | 1 => if st.b = 0 then pure [0xFF800000]
    else do
      let l ← flagged (vfun 3 st.b)
      let a ← flagged (fAdd st.a l)
      pure [a]
  | 2 => do let i ← invRoot st.b st.n x.eps; pure [st.a, i]
  | 3 => do let i ← invRoot st.a st.n x.eps; pure [i]
  | _ => pure []

/-- A corrected element of fin from the provisional element and its stamp (R312). -/
def finElem (x : ChainRt) (st : StatRow) (stamp : List W32) (p : W32) : StateM W32 W32 := do
  if x.stat = 1 then
    let f ← if stamp.headD 0 = st.a then flagged (fDiv 0x3F800000 st.b)
      else do
        let d ← flagged (fSub (stamp.headD 0) st.a)
        let e ← flagged (vfun 2 d)
        flagged (fDiv e st.b)
    flagged (fMul p f)
  else
    let inv ← invRoot st.b st.n x.eps
    let q ← flagged (fDiv inv (stamp.getD 1 0))
    let u ← flagged (fMul p q)
    let d ← flagged (fSub (stamp.headD 0) st.a)
    let v ← flagged (fMul d inv)
    flagged (fAdd u v)

/-- The correction of one row of one column tile: fin's columns from the provisional columns of the tile's output
(R305, R312; log entry 42). -/
def State.finRow (s : State) (c : Cx) (x : ChainRt) (j r : Nat) : Except (W64 × VRead) (List (W64 × List W8) × W32) :=
  let d := x.outOf j
  match s.vreads c (d.rowReads r) with
  | .error e => .error e
  | .ok bs =>
    let v := d.widenRow bs
    let st := s.statGet c x r
    let so := x.stampOff + (j * x.rows + r) * x.stampW
    let stamp := (List.range (x.stampW / 4)).map fun i => BitVec.ofNat 32 (s.spdN c (so + 4 * i) 4)
    let res := ((v.foldlM (fun (acc : List W32) y => do
      let z ← finElem x st stamp y.1
      pure (acc ++ [z])) []) : StateM W32 (List W32)).run (v.foldl (fun a y => a ||| y.2) 0)
    let f := x.tile 0x1A0
    let t := f.sub (128 * j) (min 128 (f.cols - 128 * j))
    let w := t.rowWrites r ((x.w 1).getLsbD 24) [] res.1
    .ok (w.1, res.2 ||| w.2)

/-- Whether writes of a context's chains have yet to be accepted. -/
def State.epiWrites (s : State) (c : Cx) : Bool :=
  let q := s.core c.lc
  q.bg.any (fun w => w.c = c.ix && w.tag = .epilogue) || q.sb.any (fun e => e.c = c.ix && e.tag = .epilogue) ||
    q.copyQ.any fun e => e.c = c.ix && e.tag = .epilogue

/-- rows_final is set, and the correction is no longer pending (R283, R312). -/
def State.rowsFinal (s : State) (c : Cx) (x : ChainRt) : State :=
  let y := s.chainSt c x
  (s.setChainSt c x { y with status := y.status ||| 0x8000000000000000 }).updCtx c fun k => { k with
    rowfix := none
    rowfixed := false }

/-- `ROWFIX_RUN`: once every pass of the chain has released its rows and every run has completed, the final row correction;
rows_final follows when its writes have been accepted (R264, R303, R312). -/
def execRowfixRun (c : Cx) (s : State) : Out :=
  .next <|
    match (s.ctx c).rowfix with
    | none => s
    | some off => match (s.ctx c).chainAt off with
      | none => s.updCtx c fun k => { k with rowfix := none }
      | some x =>
        if !s.coreUp c.lc || s.chainBusy c off || s.linkBusy c x then s
        else if (s.ctx c).rowfixed then (if s.epiWrites c then s else s.rowsFinal c x)
        else
          let keeps := (x.stat = 1 && !x.link) || x.stat = 2
          let fin : Except (W64 × VRead) (List (W64 × List W8) × W32) :=
            if !keeps then .ok ([], 0) else
              (List.range x.colTiles).foldl (fun acc j => (List.range x.rows).foldl (fun acc r =>
                match acc, s.finRow c x j r with
                | .ok a, .ok b => .ok (a.1 ++ b.1, a.2 ||| b.2)
                | .error e, _ => .error e
                | _, .error e => .error e) acc) (.ok ([], 0))
          let s := if !keeps then s else s.vtouched c ((List.range x.colTiles).flatMap fun j =>
            (List.range x.rows).flatMap fun r => (x.outOf j).rowReads r) fin
          match fin with
          | .error e => s.runFailed c (s.ctx c).pc e
          | .ok w =>
            let s := s.bgPut c .epilogue w.1
            let rsv := x.tile 0x1D0
            let r := (List.range x.rows).foldl (fun (acc : State × W32) r =>
              let st := acc.1.statGet c x r
              let v := (rsvRow x st).run acc.2
              let s := if rsv.absent || v.1.isEmpty then acc.1
                else acc.1.bgPut c .epilogue (rsv.rowWrites r false [] v.1).1
              let l := if x.link then
                  let p := arrayOf x.rows r
                  let tile := accTile x.linkAcc x.rows p.1
                  let old := s.accGet c tile p.2
                  let new := old.map fun w => if st.b = 0 then (0, 0) else fDiv w st.b
                  (s.accPut c tile p.2 (new.map (·.1)), new.foldl (fun a y => a ||| y.2) v.2)
                else (s, v.2)
              l) (s, w.2)
            let s := r.1
            let y := s.chainSt c x
            let s := s.setChainSt c x { y with status := statusAfter y.status r.2 0 false }
            if s.epiWrites c then s.updCtx c fun k => { k with rowfixed := true } else s.rowsFinal c x

end Sys2Proof.Machine
end

