-- ==== Sys2Proof/Machine/Matrix.lean ====
section
/-! DEFINITION. The matrix arrays: weight loads, swaps and reacquisition (R71 to R86, R266 to R268, R759), passes (R87 to R106,
R269 to R273, R760), the checks of every row, and `mm.drain` (R274). -/

namespace Sys2Proof.Machine

/-! ## Weight tiles -/

/-- Depth in K of a weight tile's format (R73): 256 for MXFP6 and MXFP4, else 128. -/
def depthOf (fmt : Nat) : Nat := if 0x0A ≤ fmt ∧ fmt ≤ 0x0C then 256 else 128

/-- The row of the table of R73 that a format lies in: 0 MXFP6 and MXFP4, 1 the 8-bit formats, 2 BF16 and FP16. -/
def rateRow (fmt : Nat) : Nat := if 0x0A ≤ fmt ∧ fmt ≤ 0x0C then 0 else if fmt = 2 ∨ fmt = 3 then 2 else 1

/-- Steps per activation row of a pass (R73, R760). -/
def stepsPerRow (afmt wfmt depth : Nat) : Nat :=
  let a := rateRow afmt
  let w := rateRow wfmt
  if a = w then (if a = 2 then 2 else 1)
  else
    let low := max a w
    let deep : Bool := w = 0 ∧ 128 < depth
    if low = 2 then (if deep then 4 else 2) else (if deep then 2 else 1)

/-- Multiply-accumulates of one row on one array, in units of 4,096: the rate of the lower-rate row over the row's steps
(R73, R154, R760). -/
def rowMacs (afmt wfmt depth : Nat) : Nat :=
  (match max (rateRow afmt) (rateRow wfmt) with | 0 => 8 | 1 => 4 | _ => 2) * stepsPerRow afmt wfmt depth

/-- The reads of a weight tile: each row of elements, each row of the scale array (one a block of 32 rows; log entry 31),
each check value. -/
def TileDesc.weightReads (d : TileDesc) : List (W64 × Nat) :=
  (List.range d.rows).map (fun r => (d.elemAt r, d.elemBytes d.cols)) ++
    (if d.scaled then (List.range ((d.rows + 31) / 32)).map fun j => (d.scaleAt j, d.cols) else []) ++
    (if d.chkEn then (List.range d.rows).map fun r => (d.checkAt r, 4) else [])

/-- The scale byte of column `n` in block `j` of a weight tile. -/
def WTile.scale (t : WTile) (j n : Nat) : Nat :=
  if t.desc.scaled then ((t.scales.getD j []).getD n 127).toNat else t.desc.implied

/-- The code of weight (k, n); +0 beyond the tile (R266). -/
def WTile.code (t : WTile) (k n : Nat) : Nat := ((t.codes.getD k []).getD n 0).toNat

/-- The value of weight (k, n), scale included. -/
def WTile.num (t : WTile) (k n : Nat) : Num :=
  if t.desc.rows ≤ k ∨ t.desc.cols ≤ n then .fin false 0 0 else scaledNum t.desc.fmt (t.code k n) (t.scale (k / 32) n)

/-- The sum of R96 of row k of a weight tile: over its columns, scales included, rounded once. -/
def WTile.rowSum (t : WTile) (k : Nat) : W32 := sumRound ((List.range t.desc.cols).map fun n => t.num k n)

/-- A weight tile from the bytes read. Its checksum column uses the check vector where one is named, else the values computed
from the bytes (R79, R99). -/
def wtileOf (d : TileDesc) (rel : Bool) (bs : List (List W8)) : WTile :=
  let codes := (List.range d.rows).map fun r => (unpackBits d.width d.cols (bs.getD r [])).map fun x => BitVec.ofNat 16 x
  let nb := if d.scaled then (d.rows + 31) / 32 else 0
  let scales := (List.range nb).map fun j => bs.getD (d.rows + j) []
  let t : WTile := ⟨d, codes, scales, [], rel⟩
  { t with chk := (List.range d.rows).map fun k =>
      if d.chkEn then BitVec.ofNat 32 (leNat (bs.getD (d.rows + nb + k) [])) else t.rowSum k }

/-- The first K index at which the operand check of a weight tile fails (R98). -/
def WTile.checkFail (t : WTile) : Option Nat :=
  if t.desc.chkEn then (List.range t.desc.rows).find? fun k => t.rowSum k ≠ t.chk.getD k 0 else none

/-! ## Weight loads (R266, R267) -/

/-- The shadow copy is given up: its tile is abandoned, and a swap that is pending while its context holds no shadow claim is
cancelled (R80, R268). -/
def State.dropShadow (s : State) (l : LC) : State :=
  if (s.core l).shadow.tile.isNone then s
  else (ctxsOf l).foldl (fun s c =>
    if (s.ctx c).swap && (s.ctx c).shadow.absent then s.updCtx c fun k => { k with swap := false, swapLost := true } else s)
    (s.updCore l fun k => { k with shadow := .empty })

/-- The exceptions that a weight tile's descriptor raises (R184, R224, R266). -/
def weightBad (d : TileDesc) : Option (Exc × W64) :=
  if !matrixFormat d.fmt then some (.format, formatDetail d 0)
  else if !d.kRows then some (.shape, shapeDetail 0 1 0 3)
  else if !d.slotEn then some (.shape, shapeDetail 0 1 0 4)
  else if depthOf d.fmt < d.rows then some (.shape, shapeDetail d.rows (depthOf d.fmt) 0 2)
  else if 128 < d.cols then some (.shape, shapeDetail d.cols 128 0 1)
  else none

/-- The exception of a slot that is not `RESIDENT`, or the wait for one that is `FILLING` (R92 to R94). -/
def slotGate (s : State) (k : Context) (i : BitVec 4) (w : Wait) : Option Eff :=
  match (k.slot i).st with
  | .resident => none
  | .filling => some (.hold s w)
  | .empty => some (.exc s .notStaged 0 (i.setWidth 64))
  | .failed => some (.exc s .operandFail 0 (BitVec.ofNat 64 (i.toNat + (k.slot i).status.toNat * 2 ^ 8)))

/-- A weight tile read whole (log entry 37), with its operand check; `ok` takes the tile. -/
def loadTile (c : Cx) (d : TileDesc) (rel : Bool) (ok : WTile → State → Eff) (s : State) : Eff :=
  let r := s.vreads c d.weightReads
  let s := s.vtouched c d.weightReads r
  match r with
  | .error e => readFail c .wgt s e
  | .ok bs =>
    let t := wtileOf d rel bs
    match t.checkFail with
    | some k =>
      let syn := (if d.slotEn then bits d.w5 19 16 else 0) + k * 2 ^ 16
      .stop (s.checkFailed c { cls := 0x03, index := 0, action := 0x02, syndrome := BitVec.ofNat 64 syn } (s.ctx c).pc none
        true (d.elemAt k) (BitVec.ofNat 64 syn))
    | none => ok t s

/-- The checks that come before a weight load starts: descriptor, lost swap, slot (R224). -/
def weightLoad (min : BitVec 4) (body : TileDesc → WTile → State → Eff) (wait : State → Option Wait) (c : Cx) (f : TForm)
    (s : State) : Out :=
  dtiT 0x50 min c f (fun s =>
    let k := s.ctx c
    let d := k.tget f.ta
    match weightBad d with
    | some (e, det) => .exc s e 0 det
    | none =>
      match slotGate s k (d.w5.extractLsb' 16 4) .wgt with
      | some e => e
      | none => match wait s with
        | some w => .hold s w
        | none => loadTile c d (f.flags.getLsbD 0) (body d) s) s

/-- What a shadow load waits for (R80, R226): the front, another load of the shadow, the swap of the context's own tile, or a swap
of the context that is pending (DEDUCED; log entry 81). -/
def State.shadowWait (s : State) (c : Cx) : Option Wait :=
  let q := s.core c.lc
  if q.front.isSome then some .front
  else match q.shadow with
    | .loading _ _ _ => some .wgt
    | .held d _ => if d = c.ix || (s.ctx c).swap then some .wgt else none
    | _ => if (s.ctx c).swap then some .wgt else none

/-- A shadow load starts: 128 steps (R77). -/
def State.startShadow (s : State) (c : Cx) (t : WTile) : State :=
  (s.dropShadow c.lc).updCore c.lc fun q => { q with shadow := .loading c.ix t 128 }

/-- A front load is accepted: 128 steps behind the last row of the passes that have issued; the context owns the live weights,
and the shadow copy is left empty (R85, R86, R267). -/
def State.startFront (s : State) (c : Cx) (t : WTile) (shadowNext : Bool) : State :=
  (s.dropShadow c.lc).updCore c.lc fun q => { q with
    front := some ⟨c.ix, t, 128, shadowNext⟩
    owner := some c.ix }

/-- `mm.ldw.s` (R266, R267, R80, R83). -/
def execMmLdwS (c : Cx) (f : TForm) (s : State) : Out :=
  weightLoad 0x0 (fun d t s => .done ((s.startShadow c t).updCtx c fun k => { k with shadow := d }))
    (fun s => s.shadowWait c) c f s

/-- `mm.ldw.f` (R266, R267, R85, R86). -/
def execMmLdwF (c : Cx) (f : TForm) (s : State) : Out :=
  weightLoad 0x1 (fun d t s => .done ((s.startFront c t false).updCtx c fun k => { k with live := d }))
    (fun s => if (s.core c.lc).front.isSome then some .front else none) c f s

/-- The slot of a tile whose load has read it is released when the load asked for that (R265, R275). -/
def State.tileRelease (s : State) (c : Cx) (t : WTile) : State :=
  match t.rel, t.desc.slotNum with
  | true, some i => s.updCtx c fun k => k.setSlot i { k.slot i with st := .empty, status := 0 }
  | _, _ => s

/-- `SHADOW_LOAD_DONE`: the shadow copy holds its tile (R77, R79); a reacquisition of its context ends with it (R83 step 3). -/
def execShadowLoadDone (lc : LC) (s : State) : Out :=
  .next (match (s.core lc).shadow with
    | .loading i t 0 =>
      let c : Cx := ⟨lc, i⟩
      let own : Bool := (s.core lc).owner = some i
      ((s.updCore lc fun q => { q with shadow := .held i t }).tileRelease c t).updCtx c fun k =>
        { k with reacq := k.reacq && !own }
    | _ => s)

/-- The live weights are left with no owner. -/
def State.noOwner (s : State) (l : LC) : State := s.updCore l fun q => { q with owner := none }

/-- The shadow claim of a context loaded into the shadow copy once the loader is free (R83); a read that fails raises its
exception at the pass or swap that needs it (R759). -/
def State.loadClaim (s : State) (c : Cx) : State :=
  let q := s.core c.lc
  let busy : Bool := match q.shadow with | .loading _ _ _ => true | _ => q.front.isSome
  if (s.ctx c).shadow.absent || busy then s
  else match loadTile c (s.ctx c).shadow false (fun t s => .stop (s.startShadow c t)) s with
    | .stop s => s
    | .exc s e va det =>
      ((s.noOwner c.lc).updCtx c fun k => { k with swap := false, reacq := false }).raise c e (s.ctx c).pc va det
    | .hold s _ => s
    | _ => s

/-- `FRONT_LOAD_DONE`: the live copy holds the front's tile, the next pass may enter, and the shadow claim follows where the
front was a reacquisition (R83, R85). -/
def execFrontLoadDone (lc : LC) (s : State) : Out :=
  .next (match (s.core lc).front with
    | some x =>
      if x.steps ≠ 0 then s
      else
        let c : Cx := ⟨lc, x.c⟩
        let s := (s.updCore lc fun q => { q with live := some x.tile, front := none, flip := none }).tileRelease c x.tile
        if x.shadowNext then s.loadClaim c else s.updCtx c fun k => { k with reacq := false }
    | none => s)

/-- The live and shadow copies exchanged for a context's swap: it owns the live weights, its live claim is their tile, and it
holds no shadow claim (R78, R81, R83). -/
def State.swapIn (s : State) (c : Cx) (t : WTile) (flip : Option (Nat × Nat × Nat)) : State :=
  (s.updCore c.lc fun q => { q with
    live := some t
    owner := some c.ix
    flip := flip
    shadow := match q.live with | some o => .old o q.flip | none => .empty }).updCtx c fun k =>
      { k with swap := false, live := t.desc, shadow := {} }

/-- `WEIGHT_SWAP`: at a step boundary at which the arrays have accepted every row, a pending swap takes place: the swap of the
context whose tile the shadow copy holds, else one of a context that has no shadow claim; where there is neither, the tile that
a pending swap's context claims is loaded again (R78, R80, R81, R83; log entry 82). -/
def execWeightSwap (lc : LC) (s : State) : Out :=
  .next <|
    let q := s.core lc
    let pending (claim : Bool) : Option Cx := (ctxsOf lc).find? fun c => (s.ctx c).swap && (s.ctx c).shadow.absent != claim
    let again : State := match pending true with | some c => s.loadClaim c | none => s
    if !q.passes.isEmpty || q.front.isSome then s
    else match q.shadow with
      | .loading _ _ _ => s
      | .empty => again
      | .held i t =>
        if (s.ctx ⟨lc, i⟩).swap then s.swapIn ⟨lc, i⟩ t none
        else (match pending false with | some c => s.swapIn c t none | none => again)
      | .old t f => match pending false with | some c => s.swapIn c t f | none => again

/-- `WEIGHT_REACQUIRE`: for a context whose pass waits for its claims, the front load of its live claim, once the arrays have
accepted every row of every issued pass, and then the shadow load of its shadow claim (R83, R84, R759). -/
def execWeightReacquire (c : Cx) (s : State) : Out :=
  .next <|
    let k := s.ctx c
    let q := s.core c.lc
    if !k.reacq || !s.coreUp c.lc || k.live.absent || q.front.isSome then s
    else if q.owner = some c.ix then
      (if k.shadow.absent || (match q.shadow with | .held d _ => decide (d = c.ix) | _ => false) then
        s.updCtx c fun k => { k with reacq := false }
      else s.loadClaim c)
    else if !q.passes.isEmpty then s
    else match loadTile c k.live false (fun t s => .stop (s.startFront c t (!k.shadow.absent))) s with
      | .stop s => s
      | .exc s e va det => ((s.noOwner c.lc).updCtx c fun k => { k with reacq := false }).raise c e k.pc va det
      | .hold s _ => s
      | _ => s

/-- `FRONT_RELOAD`: the live weights are left with no owner, so that the next pass reloads them by the moving front from its
claim (R84, R135). -/
def execFrontReload (lc : LC) (s : State) : Out := .next (s.noOwner lc)

/-- Whether injections are enabled (R135). -/
def State.injectOn (s : State) (l : LC) : Bool := s.fget (rg .coreCksCtl l.val) 8 8 = 0

/-- `INJECT_CELL` (R135). -/
def execInjectCell (lc : LC) (s : State) : Out :=
  .next (if s.injectOn lc then s.updCore lc fun q => { q with injCell := true } else s)

/-- `INJECT_OPCHK` (R135). -/
def execInjectOpchk (lc : LC) (s : State) : Out :=
  .next (if s.injectOn lc then s.updCore lc fun q => { q with injOpchk := true } else s)

/-- What a pending swap waits for: its shadow load, or the rows that still enter (R78, R80, R95). -/
def State.swapWait (s : State) (c : Cx) : Wait :=
  match (s.core c.lc).shadow with
  | .loading _ _ _ => .wgt
  | .held d _ => if d = c.ix then .array else .wgt
  | _ => if (s.ctx c).shadow.absent then .array else .wgt

/-- `mm.swap`: completes at issue and leaves a swap pending; a shadow claim that the shadow copy does not hold is loaded
first (R268, R83, R759). -/
def execMmSwap (c : Cx) (f : TForm) (s : State) : Out :=
  dtiT 0x52 0x0 c f (fun s =>
    let k := s.ctx c
    let q := s.core c.lc
    let pending (s : State) : State := s.updCtx c fun k => { k with swap := true }
    if k.swapLost then .exc (s.updCtx c fun k => { k with swapLost := false }) .notStaged 0 0x10
    else if k.swap then .hold s (s.swapWait c)
    else if q.shadow.of = some c.ix then .done (pending s)
    else if k.shadow.absent then (if q.shadow.tile.isNone then .exc s .notStaged 0 0x10 else .done (pending s))
    else match s.shadowWait c with
      | some w => .hold s w
      | none => match loadTile c k.shadow false (fun t s => .done (pending (s.startShadow c t))) s with
        | .exc s e va det => .exc (s.noOwner c.lc) e va det
        | x => x) s

/-! ## Passes (R269, R270) -/

/-- The rows of the weights that a pass of a context will use (R269): those of the tile that its pending swap will install, else
those of its live claim. -/
def State.passDepth (s : State) (c : Cx) : Option Nat :=
  let k := s.ctx c
  if k.swap then
    (if k.shadow.absent then (s.core c.lc).shadow.tile.map (·.desc.rows) else some k.shadow.rows)
  else if (s.core c.lc).owner = some c.ix || !k.live.absent then some k.live.rows else none

/-- The exceptions of a pass's descriptors and addresses (R184, R269, R270). -/
def State.passBad (s : State) (c : Cx) (f : TForm) : Option (Exc × W64) :=
  let k := s.ctx c
  let d := k.tget f.ta
  let i := k.tget f.tb
  let init := f.acc = 2
  let base := f.imm16.toNat
  if !matrixFormat d.fmt then some (.format, formatDetail d 0)
  else if init && i.absent then some (.format, formatDetail i 0)
  else if d.kRows then some (.shape, shapeDetail 1 0 0 3)
  else if (s.passDepth c).any (· ≠ d.cols) then some (.shape, shapeDetail d.cols ((s.passDepth c).getD 0) 0 1)
  else if d.rows < 4 then some (.shape, shapeDetail d.rows 4 0 0)
  else if 1024 < d.rows then some (.shape, shapeDetail d.rows 1024 0 0)
  else if init && i.fmt ≠ 1 then some (.shape, shapeDetail i.fmt 1 1 5)
  else if init && i.rows ≠ d.rows then some (.shape, shapeDetail i.rows d.rows 1 0)
  else if 0x5C0000 < accEnd base d.rows then some (.addr, BitVec.ofNat 64 (windowBase c.lc + 0x5C0000))
  else none

/-- The first read of a pass's operands that lies where none can be made, or that a lower tier or a translation fails (R195,
R224). Poison is found when the row is read (R120). -/
def State.passReads (s : State) (c : Cx) (d : TileDesc) (init : Option TileDesc) : Option (W64 × VRead) :=
  let tile (d : TileDesc) := (List.range d.rows).flatMap fun r => d.rowReads r ++
    (if d.chkEn then [(d.checkAt r, 4 * ((d.cols + 127) / 128))] else [])
  (tile d ++ (match init with | some i => (List.range i.rows).flatMap i.rowReads | none => [])).findSome? fun r =>
    match s.vread c r.1 r.2 with
    | .ok _ | .poison _ _ => none
    | x => some (r.1, x)

/-- The conditions on a pass's chain: the rejection, or the wait, with the chain's latched fields (R291, R298, R303). -/
def State.passChain (s : State) (c : Cx) (f : TForm) (rows : Nat) : Except Eff (Option (ChainRt × ChainSt)) :=
  if f.chain = 0 then .ok none
  else
    let k := s.ctx c
    match s.chainBind c (128 * f.chain.toNat) with
    | none => .error (.exc s .chainReject 0 (rejectDetail 0x0B f.chain.toNat))
    | some x =>
      let y := s.chainSt c x
      let bound := (k.chainAt x.off).isSome
      if !bound && 2 ≤ k.chains.length then .error (.exc s .chainReject 0 (rejectDetail 0x04 3))
      else if rows ≠ x.rows then .error (.exc s .chainReject 0 (rejectDetail 0x09 rows))
      else if x.colTiles ≤ y.issued ∨ y.status.getLsbD 9 then .error (.exc s .chainReject 0 (rejectDetail 0x0A y.issued))
      else
        let ops := ([0x0B0, 0x0E0, 0x110] : List Nat).filterMap fun o => (x.tile o).slotNum
        match ops.findSome? fun i => slotGate s k i .chain with
        | some e => .error e
        | none =>
          if 2 ≤ ((k.epi.filter fun j => j.chain = x.off).map (·.tile)).dedup.length then .error (.hold s .chain)
          else .ok (some (x, y))

/-- Whether epilogue runs that have yet to read rows of the accumulators at a base are pending (R303). -/
def State.epiBlocks (s : State) (c : Cx) (base rows : Nat) : Bool :=
  (s.ctx c).epi.any fun j => decide (1024 * base < accEnd j.base j.rows) && decide (1024 * j.base < accEnd base rows)

/-- A pass issues (R87, R88): its rows enter from the next step on; its chain gets a column tile, and a chain that sends
journals the send (R294, R306). -/
def issuePass (c : Cx) (f : TForm) (d : TileDesc) (ch : Option (ChainRt × ChainSt)) (s : State) : Eff :=
  let k := s.ctx c
  let live := (s.core c.lc).live
  let wd := match live with | some t => t.desc | none => k.live
  let q := stepsPerRow d.fmt wd.fmt wd.rows
  let p : Pass := ⟨c.ix, k.pc, d, k.tget f.tb, f.acc, f.imm16.toNat, d.rows, q, 0, q - 1,
    (match ch with | some (x, _) => x.off | none => 0), f.flags.getLsbD 0, d.w5.extractLsb' 16 4⟩
  let start (s : State) (entry : Nat) : State :=
    let core := s.core c.lc
    let v := s.freeVal.toNat
    let flip := if core.injCell then some (v % wd.rows, v / 2 ^ 16 % wd.cols, v / 2 ^ 32 % wd.width) else core.flip
    let s := if core.injCell then s.drawn else s
    let s := s.updCore c.lc fun q => { q with passes := q.passes ++ [p], injCell := false, flip := flip }
    let s := s.updCtx c fun k => { k with accRows := Tbl.set k.accRows f.imm16.toNat d.rows, readyAt := none }
    match ch with
    | none => s
    | some (x, y) =>
      let s := s.setChainSt c x { y with issued := y.issued + 1 }
      s.updCtx c fun k => { k with
        chains := (k.chains.filter (·.off ≠ x.off)) ++ [x]
        epi := k.epi ++ [⟨x.off, k.pc, y.issued, f.imm16.toNat, d.rows, 0, 0, entry⟩] }
  match ch with
  | some (x, _) =>
    if x.outMode = 3 then
      journaled c 5 (fun s => .done (start (s.jAppend c 5 0 k.pc 0) (s.jCount c)))
        (fun s _ => .done (start s (((s.ctx c).replayNext.getD 1) - 1))) s
    else .done (start s 0)
  | none => .done (start s 0)

/-- A prologue starts where the pass's activation slot is `EMPTY` and its chain has one; its source follows R92 to R94
(R296, R298). -/
def startPrologue (c : Cx) (d : TileDesc) (x : ChainRt) (s : State) : Eff :=
  let k := s.ctx c
  let i : BitVec 4 := d.w5.extractLsb' 16 4
  match (x.tile 0x080).slotNum.bind fun j => slotGate s k j .chain with
  | some e => e
  | none =>
    if k.pro.isSome then .hold s .chain
    else .hold (s.updCtx c fun k => { (k.setSlot i { k.slot i with st := .filling, status := 0 }) with
        pro := some ⟨x.off, d, 0⟩, fills := k.fills ++ [⟨i, .writes⟩],
        chains := (k.chains.filter (·.off ≠ x.off)) ++ [x] }) .act

/-- A pass that the arrays can accept comes ahead of the contexts whose turn at the slot it would be, unless the first of these has
a pass that became ready before (R130). -/
def State.passFirst (s : State) (c : Cx) : State :=
  let q := s.core c.lc
  match q.turns with
  | g :: _ =>
    if g ≠ c.ix && (s.ctx ⟨c.lc, g⟩).readyAt.isNone && q.passes.isEmpty && q.front.isNone && s.canIssue c then
      s.updCore c.lc fun q => { q with turns := c.ix :: q.turns.filter (· ≠ c.ix) }
    else s
  | [] => s

/-- `mm.pass` (R269, R270, R224): its exceptions in the order of R224, the waits of R87, and its issue. -/
def execMmPass (c : Cx) (f : TForm) (s : State) : Out :=
  dtiT 0x51 0x0 c f (fun s =>
    let k := s.ctx c
    let q := s.core c.lc
    let d := k.tget f.ta
    let slot : BitVec 4 := d.w5.extractLsb' 16 4
    match s.passBad c f with
    | some (e, det) => .exc s e 0 det
    | none => match s.passReads c d (if f.acc = 2 then some (k.tget f.tb) else none) with
    | some e => readFail c .act s e
    | none =>
      let own : Bool := q.owner = some c.ix
      if !own && k.live.absent && !k.swap then
        (match q.owner with
          | some o => .exc s .weightOwner 0 (BitVec.ofNat 64 o.val)
          | none => .exc s.drawn .weightOwner 0 s.freeVal)
      else if k.swapLost then .exc (s.updCtx c fun k => { k with swapLost := false }) .notStaged 0 0x10
      else
        let chain := s.passChain c f d.rows
        let pro : Option ChainRt := match chain with
          | .ok (some (x, _)) => if x.proLen ≠ 0 then some x else none
          | _ => none
        let st := (k.slot slot).st
        if !d.slotEn then .exc s .notStaged 0 (slot.setWidth 64)
        else match (if st = .empty then pro else none) with
        | some x => startPrologue c d x s
        | none =>
          match slotGate s k slot .act with
          | some e => e
          | none => match (if f.acc = 2 then (k.tget f.tb).slotNum else none).bind fun i => slotGate s k i .act with
            | some e => e
            | none => match chain with
              | .error e => e
              | .ok ch =>
                if s.epiBlocks c f.imm16.toNat d.rows then .hold s .chain
                else if k.swap then .hold s (s.swapWait c)
                else if !own then
                  .hold (s.updCtx c fun k => { k with reacq := true }) (if q.passes.isEmpty then .front else .array)
                else if q.front.isSome then .hold s .front
                else if k.reacq then .hold s .wgt
                else if !q.passes.isEmpty then
                  .hold (s.updCtx c fun k => { k with readyAt := some (k.readyAt.getD q.steps) }) .array
                else issuePass c f d ch s) (s.passFirst c)

/-! ## Rows (R88, R98 to R106, R273) -/

/-- The exact value of a finite number, and whether it is finite. -/
def Num.finite : Num → Option Dy
  | .fin n m e => some (Num.dy (.fin n m e))
  | _ => none

/-- The sum of exact values; none when one is not finite. -/
def dySum (vs : List (Option Dy)) : Option Dy :=
  vs.foldl (fun a v => match a, v with | some a, some v => some (Dy.add a v) | _, _ => none) (some Dy.zero)

/-- ĉ[k]: a checksum-column value rounded to `p` significand bits (R100). -/
def chat (p : Nat) (c : W32) : Num :=
  match num32 c with
  | .fin n m e => let g := toGrid p (-10000) none m e; .fin n g.1 g.2.1
  | x => x

/-- Significand bits of ĉ and the exponent of ε by weight format (R102). -/
def checkTol (fmt : Nat) : Nat × Int := match rateRow fmt with | 0 => (12, -11) | 1 => (16, -15) | _ => (24, -22)

/-- What one row gives on one array: the block sums per column in block order, flags, the first block whose checksums
mismatch, and how many comparisons were skipped. -/
structure RowOut where
  sums : List (List W32)
  flags : W32
  mismatch : Option Nat
  skipped : Nat
  deriving DecidableEq, Repr

/-- One activation row on one array (R37, R100 to R103, R273). `flip` is the live weight bit that an injection changed. -/
def rowRun (t : WTile) (flip : Option (Nat × Nat × Nat)) (afmt : Nat) (a : TRow) : RowOut :=
  let wf := t.desc.fmt
  let nb := (t.desc.rows + 31) / 32
  let zero : Num := .fin false 0 0
  let wcode (k n : Nat) : Nat := match flip with
    | some (k', n', b) => if k = k' ∧ n = n' then t.code k n ^^^ 2 ^ b else t.code k n
    | none => t.code k n
  let anum (k : Nat) : Num := if k < a.codes.length then (elemOf afmt).decode (a.codes.getD k 0) else zero
  let wnum (k n : Nat) : Num := if t.desc.rows ≤ k ∨ t.desc.cols ≤ n then zero else (elemOf wf).decode (wcode k n)
  let sc (j : Nat) : Nat := a.scales.getD j 127
  let tol := checkTol wf
  (List.range nb).foldl (fun o j =>
    let ks := (List.range 32).map (32 * j + ·)
    let cols := (List.range 128).map fun n =>
      if t.desc.cols ≤ n then ((0 : W32), (0 : W32)) else blockSum (ks.map anum) (ks.map (wnum · n)) (sc j) (t.scale j n)
    let s := cols.map (·.1)
    let prods := ks.map fun k => match (scaledNum afmt (a.codes.getD k 0) (sc j)).finite, (chat tol.1 (t.chk.getD k 0)).finite with
      | some x, some y => if k < a.codes.length then some (Dy.mul x y) else some Dy.zero
      | _, _ => none
    let ss := s.map fun w => (num32 w).finite
    let p := dySum prods
    let q := dySum ss
    let absum (l : List (Option Dy)) : Dy := (dySum (l.map fun v => v.map Dy.abs)).getD Dy.zero
    let bad : Option Bool := match p, q with
      | some p, some q =>
        let ab := Dy.add (absum prods) (absum ss)
        some (Dy.gt (Dy.abs (Dy.add p (Dy.neg q))) (Dy.add (Dy.mul ⟨1, tol.2⟩ ab) ⟨1, -126⟩))
      | _, _ => none
    { sums := o.sums ++ [s]
      flags := cols.foldl (fun f x => f ||| x.2) o.flags
      mismatch := if o.mismatch.isNone && bad = some true then some j else o.mismatch
      skipped := o.skipped + (if bad.isNone then 1 else 0) }) ⟨[], 0, none, 0⟩

/-- The operand check of an activation row: the recomputed sum of each 128 K indices against the check vector (R96, R98). -/
def rowChecked (d : TileDesc) (a : TRow) (chk : List W8) (corrupt : Bool) : Bool :=
  let ns := a.nums d.fmt
  (List.range ((d.cols + 127) / 128)).all fun g =>
    let v := sumRound ((ns.drop (128 * g)).take 128)
    (if corrupt then v ^^^ 1 else v) = BitVec.ofNat 32 (leNat ((chk.drop (4 * g)).take 4))

/-- The accumulation of the block sums of a row onto its starting values, one rounding a block, with the flags (R43, R273). -/
def accumulate (start : List W32) (sums : List (List W32)) : List W32 × W32 :=
  sums.foldl (fun acc s =>
    let r := (List.range 128).map fun n => fAdd (acc.1.getD n 0) (s.getD n 0)
    (r.map (·.1), r.foldl (fun f x => f ||| x.2) acc.2)) (start, 0)

/-- What a row of a pass meets on one array: it goes on, or a check fails. -/
inductive RowRes where
  | ok (s : State)
  | failed (s : State)
  /-- The row waits for a translation (R197). -/
  | stall (s : State)

/-- A row whose read fails: poison is an operand-check failure (R120), a translation fault stalls, and an address error or the
status of a lower tier stops the context at the pass (log entry 52). -/
def State.rowFailed (s : State) (c : Cx) (p : Pass) (fail : State → Option Nat → W64 → RowRes) (e : W64 × VRead) : RowRes :=
  let stop (s : State) (x : Exc) (det : W64) : RowRes :=
    .failed ((s.updCore c.lc fun q => { q with passes := q.passes.filter (· ≠ p) }).raise c x p.pc e.1 det)
  match e.2 with
  | .poison _ w => fail s w e.1
  | .addr pa => stop s .addr ((PAddr.loc pa).setWidth 64)
  | .tier pa st => stop s .tierError (BitVec.ofNat 64 (tierOf (PAddr.loc pa).toNat + st.toNat * 2 ^ 8))
  | .miss v => match s.takeFailed (.ctx c) v with
    | some (id, s) => stop s .access (id.setWidth 64)
    | none => .stall (s.askWalk ⟨.ctx c, v, 0, s.rootOf c, true, none, false⟩)
  | .ok _ => .stall s

/-- Row `r` of array `i` of a pass: read, checked, multiplied, accumulated, compared and released (R88, R98 to R105, R273).
A failure starts the recovery of R106. -/
def State.passRow (s : State) (l : LC) (p : Pass) (t : WTile) (corrupt : Bool) (i r : Nat) : RowRes :=
  let c : Cx := ⟨l, p.c⟩
  let g := arrayStart p.rows i + r
  let tile := accTile p.base p.rows i
  let slotSyn : Nat := p.slot.toNat + g * 2 ^ 16
  let fail (s : State) (word : Option Nat) (va : W64) : RowRes := .failed (s.checkFailed c
    { cls := 0x03, index := 0, action := 0x02, major := 0x51, syndrome := BitVec.ofNat 64 slotSyn } p.pc word true va
    (BitVec.ofNat 64 slotSyn))
  let reads := p.act.rowReads g ++ (if p.act.chkEn then [(p.act.checkAt g, 4 * ((p.act.cols + 127) / 128))] else [])
  let acc := windowBase l + s.accAt c tile r
  let init : Except (W64 × VRead) (List (W32 × W32)) :=
    if p.mode = 2 then s.opRow c p.init g 0
    else if p.mode = 1 then .ok (List.replicate 128 (0, 0))
    else match s.spdBad acc 512 with
      | some w => .error (0, .poison 0 (some w))
      | none => .ok ((s.accGet c tile r).map fun w => (w, 0))
  let got := s.vreads c reads
  let s := s.vtouched c reads got
  let s := if p.mode = 2 then s.vtouched c (s.opReads p.init g) init else if p.mode = 1 then s else s.spdTouch acc 512
  match got, init with
  | .error e, _ | _, .error e => s.rowFailed c p fail e
  | .ok bs, .ok start =>
    let a := p.act.row bs
    let chk := bs.getD (if p.act.scaled then 2 else 1) []
    if p.act.chkEn && !rowChecked p.act a chk corrupt then fail s none (p.act.elemAt g)
    else
      let o := rowRun t (if i = 0 then (s.core l).flip else none) p.act.fmt a
      let s := if o.skipped = 0 then s else s.bump (rg .coreCksCount l.val) 47 32 o.skipped
      match o.mismatch with
      | some j => .failed (s.checkFailed c { cls := 0x02, index := 0, action := 0x02, major := 0x51
                                             syndrome := BitVec.ofNat 64 (i + r * 2 ^ 8 + j * 2 ^ 24) } p.pc none false 0 0)
      | none =>
        let acc := accumulate (start.map (·.1)) o.sums
        let s := s.accPut c tile r acc.1
        let old := if p.mode ≠ 0 && r = 0 then List.replicate 128 0 else s.sumGet c tile
        let sum := accumulate old o.sums
        let s := s.sumPut c tile sum.1
        let s := s.updCtx c fun k => k.raiseFlags (o.flags ||| acc.2)
        .ok ((s.count c 12 1).count c 13 (rowMacs p.act.fmt t.desc.fmt t.desc.rows))

/-- The rows that the arrays accept in one step of a pass (R88): row `fed` of each array that has one. -/
def State.passRows (s : State) (l : LC) (p : Pass) (t : WTile) : RowRes :=
  let corrupt := (s.core l).injOpchk && p.act.chkEn
  let s := if corrupt then s.updCore l fun q => { q with injOpchk := false } else s
  (List.range 4).foldl (fun acc i => match acc with
    | .failed s => .failed s
    | .stall s => .stall s
    | .ok s => if p.fed < arrayRows p.rows i then s.passRow l p t (corrupt && i = 0) i p.fed else .ok s) (.ok s)

/-- The pass of a core in one step: every q steps the arrays accept a row; after the q steps of the last, the pass has entered, and its
activation slot is released when it asks for that (R88, R265). -/
def State.passStep (s : State) (l : LC) : State :=
  match (s.core l).passes, (s.core l).live with
  | p :: rest, some t =>
    if p.phase ≠ 0 then s.updCore l fun q => { q with passes := { p with phase := p.phase - 1 } :: rest }
    else match s.passRows l p t with
      | .failed s => s
      | .stall s' => { s with walks := s'.walks, draws := s'.draws }
      | .ok s =>
        let c : Cx := ⟨l, p.c⟩
        let fed := p.fed + 1
        let s := s.updCtx c fun k => { k with epi := k.epi.map fun j =>
          if j.pc = p.pc ∧ j.base = p.base ∧ j.released = p.fed then { j with released := fed } else j }
        if fed < maxRows p.rows then
          s.updCore l fun q => { q with passes := { p with fed := fed, phase := p.q - 1 } :: rest }
        else
          let s := s.updCore l fun q => { q with passes := rest }
          if p.release then s.updCtx c fun k => k.setSlot p.slot { k.slot p.slot with st := .empty, status := 0 } else s
  | _, _ => s

/-! ## Drain (R274) -/

/-- `mm.drain`: accepted when the drain unit is free and no older pass or run holds the rows; the draws of its whole
conversion are taken at once (R274, R303, R62). -/
def execMmDrain (c : Cx) (f : TForm) (s : State) : Out :=
  dtiT 0x52 0x1 c f (fun s =>
    let k := s.ctx c
    let d := k.tget f.tb
    let base := f.imm16.toNat
    let rows := Tbl.get d.rows k.accRows base
    if d.absent then .exc s .format 0 (formatDetail d 2)
    else if d.kRows then .exc s .shape 0 (shapeDetail 1 0 1 3)
    else if d.rows ≠ rows then .exc s .shape 0 (shapeDetail d.rows rows 1 0)
    else if 128 < d.cols then .exc s .shape 0 (shapeDetail d.cols 128 1 1)
    else if 0x5C0000 < accEnd base d.rows then .exc s .addr 0 (BitVec.ofNat 64 (windowBase c.lc + 0x5C0000))
    else if (s.core c.lc).passes.any fun p => p.c = c.ix && p.base = base then .hold s .array
    else if s.epiBlocks c base d.rows then .hold s .chain
    else if (s.core c.lc).drain.isSome then .hold s .sync
    else match d.slotNum.map fun i => (k.slot i).st with
      | some .filling => .hold s .sync
      | _ =>
        let sr := f.flags.getLsbD 0
        let after := if sr then (srDraws (d.rowDraws * d.rows) k.srstate).2 else k.srstate
        let s := s.updCore c.lc fun q => { q with drain := some ⟨c.ix, base, d, sr, f.flags.getLsbD 1, 0, k.srstate⟩ }
        .done ((s.fillStart c d).updCtx c fun k => { k with srstate := after })) s

/-- One step of the drain: four rows, in row order, converted and sent as background writes; their flags enter astat (R274).
An uncorrectable word of a row fails the drain as a write of it would (R227). -/
def State.drainStep (s : State) (l : LC) : State :=
  match (s.core l).drain with
  | none => s
  | some d =>
    let c : Cx := ⟨l, d.c⟩
    let rows := d.out.rows
    let r := (List.range 4).foldl (fun (acc : State × W32) i =>
      let g := d.next + i
      if rows ≤ g then acc
      else
        let p := arrayOf rows g
        let tile := accTile d.base rows p.1
        let at_ := windowBase l + acc.1.accAt c tile p.2
        let bad := acc.1.spdBad at_ 512
        let acc := (acc.1.spdTouch at_ 512, acc.2)
        match bad with
        | some w => (acc.1.bgFailed c .poison (d.out.elemAt g) ((mkPA s.vertex (BitVec.ofNat 44 (8 * w))).setWidth 64), acc.2)
        | none =>
          let dr := if d.stochastic then srDraws d.out.rowDraws acc.2 else ([], acc.2)
          let w := d.out.rowWrites g d.saturate dr.1 (acc.1.accGet c tile p.2)
          ((acc.1.bgPut c .drain w.1).updCtx c fun k => k.raiseFlags w.2, dr.2)) (s, d.sr)
    r.1.updCore l fun q => { q with drain := if rows ≤ d.next + 4 then none else some { d with next := d.next + 4, sr := r.2 } }

end Sys2Proof.Machine
end

