-- ==== Sys2Proof/Machine/Pace.lean ====
section
/-! DEFINITION. The step boundary (R88, R95, R129, R130, R138 to R149, R154, R567, R616), background writes (R226, R227, R329 to
R334), the pacer (R148 to R152), droop (R145, R146), time (R160 to R164), counter snapshots (R158) and the scratchpad scrubber
(R121). -/

namespace Sys2Proof.Machine

/-! ## The store buffer (R329 to R334) -/

/-- The last entry of a context for a line, by its place in the buffer. -/
def lastFor (c : CtxIx) (line : PAddr) (l : List SbEntry) : Option Nat :=
  ((List.range l.length).filter fun i => match l[i]? with
    | some e => e.c = c && e.line = line
    | none => false).getLast?

/-- Bytes of a context's write to a line enter the store buffer: they merge into the context's last entry for the line while
that has not been sent and has the same origin (log entry 44), else they take an entry; none when all 64 are in use. -/
def sbAdd (e : SbEntry) (l : List SbEntry) : Option (List SbEntry) :=
  let fresh : Option (List SbEntry) := if l.length < 64 then some (l ++ [e]) else none
  match lastFor e.c e.line l with
  | none => fresh
  | some i => match l[i]? with
    | none => fresh
    | some x =>
      if x.sent || x.tag ≠ e.tag then fresh
      else some (l.set i { x with
        mask := x.mask ||| e.mask
        data := merge128 e.mask x.data e.data
        hint := e.hint })

/-- The entry that carries `len` bytes at an offset of a line. -/
def sbEntry (c : CtxIx) (va : W64) (line : PAddr) (off : Nat) (bs : List W8) (h : Hint) (tag : WriteTag) : SbEntry :=
  ⟨c, line, maskOf128 off bs.length, patch (List.replicate 128 0) off bs, h, false, 0, tag, va⟩

/-- The entries of a write's parts added to the store buffer, with the update of a line of the operand cache that holds the
address (R115); none when the buffer has no room. -/
def State.sbParts (s : State) (c : Cx) (va : W64) (ps : List Part) (bs : List W8) (h : Hint) (tag : WriteTag) : Option State :=
  ps.foldl (fun acc p => match acc with
    | none => none
    | some s =>
      let e := sbEntry c.ix (va + BitVec.ofNat 64 p.dst) p.line p.off ((bs.drop p.dst).take p.len) h tag
      match sbAdd e (s.core c.lc).sb with
      | none => none
      | some l => some ((s.updCore c.lc fun q => { q with sb := l }).ocStore c.lc p.line e.mask e.data)) (some s)

/-! ## Background writes (R226, R227, R330) -/

/-- Whether a place takes no write of a background instruction: an address error, register space or PCIe MMIO (R722). -/
def Place.refused : Place → Bool
  | .bad | .regs _ | .mmio _ => true
  | _ => false

/-- The part of a write that lies in the own scratchpad, stored at once. A partial write of an uncorrectable word is discarded
and remembered as a failed write (R754). -/
def State.ownPut (s : State) (c : Cx) (va : W64) (bs : List W8) (p : Part) : State :=
  match s.place c p.pa true with
  | .own a =>
    let s' := s.spdWrite a ((bs.drop p.dst).take p.len)
    if s.spdDiscards a p.len then
      s'.bgFailed c .poison (va + BitVec.ofNat 64 p.dst) ((mkPA s.vertex (BitVec.ofNat 44 (a / 8 * 8))).setWidth 64)
    else s'
  | _ => s

/-- Whether a part lies outside the own scratchpad. -/
def State.outside (s : State) (c : Cx) (p : Part) : Bool :=
  match s.place c p.pa true with
  | .own _ => false
  | _ => true

/-- One background write leaves the core: none when a page needs a walk or the store buffer is full, and it stays. -/
def State.bgOne (s : State) (l : LC) (w : BgWrite) : State × Bool :=
  let c : Cx := ⟨l, w.c⟩
  match s.plan c w.va 1 [(0, w.data.length)] with
  | .error v => match s.takeFailed (.ctx c) v with
    | some (id, s) => (s.bgFailed c .access v (id.setWidth 64), true)
    | none => (s.askWalk ⟨.ctx c, v, 1, s.rootOf c, true, none, false⟩, false)
  | .ok (ps, _) =>
    match ps.find? fun p => (s.place c p.pa true).refused with
    | some p => (s.bgFailed c .addr (w.va + BitVec.ofNat 64 p.dst) (addrDetail p), true)
    | none =>
      let far := ps.filter (s.outside c)
      let own (s : State) : State := (ps.foldl (fun s p => s.ownPut c w.va w.data p) s).digest c w.va w.data
      match w.tag with
      | .bcpOut _ =>
        let es := far.map fun p => sbEntry c.ix (w.va + BitVec.ofNat 64 p.dst) p.line p.off ((w.data.drop p.dst).take p.len) w.hint w.tag
        (own (s.updCore l fun q => { q with copyQ := q.copyQ ++ es }), true)
      | _ => match s.sbParts c w.va far w.data w.hint w.tag with
        | some s => (own s, true)
        | none => (s, false)

/-- The `bcp.out` instructions whose last write has been accepted are no longer outstanding (R252). -/
def State.bcpTrim (s : State) (l : LC) : State :=
  (ctxsOf l).foldl (fun s c =>
    let alive (i : Nat) : Bool := (s.core l).bg.any (fun w => w.c = c.ix && w.tag = .bcpOut i) ||
      (s.core l).copyQ.any (fun e => e.c = c.ix && e.tag = .bcpOut i)
    s.updCtx c fun k => { k with bcpOuts := k.bcpOuts.filter alive }) s

/-- The background writes of a core leave in order, each context's up to the first that cannot. -/
def State.bgStep (s : State) (l : LC) : State :=
  let ws := (s.core l).bg
  let r := ws.foldl (fun (acc : State × List BgWrite) w =>
    if acc.2.any (·.c = w.c) then (acc.1, acc.2 ++ [w])
    else let x := acc.1.bgOne l w; (x.1, if x.2 then acc.2 else acc.2 ++ [w]))
    (s.updCore l fun q => { q with bg := [] }, [])
  (r.1.updCore l fun q => { q with bg := r.2 }).bcpTrim l

/-! ## The step boundary (R88, R95, R129, R130, R149) -/

/-- The cause that a step without an instruction is charged to, by the precedence of R95; a context to which no instruction was
offered is charged to `W_ISSUE` (log entry 18). -/
def State.cause (s : State) (c : Cx) : Wait :=
  let q := s.core c.lc
  if (s.die (LC.die c.lc)).gateStart.isSome then .droop
  else if q.empty then .pace
  else if q.ocMiss.isSome then .ocmiss
  else (s.ctx c).wait.getD .issue

/-- Whether a context's counters count: it holds a stream that is issuing or waiting (R154). -/
def Context.counts (k : Context) : Bool := k.stream.isSome && (k.st = .issuing || k.st = .waiting)

/-- A step charged to a context (R95, R154, R155); the step of the context that issued is counted where it issued. -/
def State.charge (s : State) (c : Cx) : State :=
  if !(s.ctx c).counts then s
  else
    let s' := s.updCtx c fun k => { k with sinceCommit := k.sinceCommit + 1 }
    if (s.core c.lc).slot = some c.ix then s'
    else (s'.count c 0 1).count c (Fin.ofNat 16 (1 + (s.cause c).code)) 1

/-- One step of the weight loads; a front follows the last row of the passes that have issued (R77, R85). -/
def State.loadStep (s : State) (l : LC) : State :=
  s.updCore l fun q => { q with
    shadow := match q.shadow with
      | .loading c t n => .loading c t (n - 1)
      | x => x
    front := if q.passes.isEmpty then q.front.map fun f => { f with steps := f.steps - 1 } else q.front }

/-- Whether the logical cores on a physical core run without tokens: one of them catches up after a takeover (R567). -/
def State.free567 (s : State) (l : LC) : Bool :=
  (s.sharers l).any fun x => match (s.core x).takeover with
    | some .catching => true
    | _ => false

/-- Whether a core needs a token for a step: fixed-rate mode or gaps (R149, R616), but for R567. -/
def State.paced (s : State) (l : LC) : Bool :=
  let d := l.val / 16
  (s.fget (rg .paceCtl d) 0 0 = 1 || s.fget (rg .gap d) 32 32 = 1) && !s.free567 l

/-- The context that comes first at the issue slot of a step in which the arrays can accept a pass: the one whose pass has been ready
longest, the lower number on a tie (R130). -/
def State.passGrant (s : State) (l : LC) : Option CtxIx :=
  let q := s.core l
  if !q.passes.isEmpty || q.front.isSome then none
  else
    ((ctxsOf l).foldl (fun (b : Option (Nat × CtxIx)) c =>
      match (if s.canIssue c then (s.ctx c).readyAt else none), b with
      | none, _ => b
      | some n, none => some (n, c.ix)
      | some n, some m => if n < m.1 then some (n, c.ix) else b) none).map (·.2)

/-- The contexts that can issue, from the one after the context that issued last (R129; log entry 43). -/
def State.roundRobin (s : State) (l : LC) : List CtxIx :=
  let last := (s.core l).lastIssued
  (([1, 2, 3, 4] : List Nat).map fun i => last + Fin.ofNat 4 i).filter fun i => s.canIssue ⟨l, i⟩

/-- The next step of a core opens: it takes its token or is empty, and the turns at its issue slot are fixed. -/
def State.openStep (s : State) (l : LC) : State :=
  let q := s.core l
  let paced := s.paced l
  let empty := paced && q.tokens = 0
  let turns := match s.passGrant l with
    | some c => c :: (s.roundRobin l).filter (· ≠ c)
    | none => s.roundRobin l
  s.updCore l fun q => { q with
    slot := none
    empty := empty
    tokens := if paced then q.tokens - 1 else q.tokens
    turns := turns
    steps := q.steps + 1
    stepAt := s.now l
    takeover := match q.takeover with
      | some (.probing _) => none
      | x => x }

/-- `STEP_BOUNDARY`: the step of a core that is open closes, with its charges, the rows that the arrays accept, the drain, the
weight loads and the background writes; the next step opens (R88, R140, R149). A core that takes no steps is not touched. -/
def execStepBoundary (lc : LC) (s : State) : Out :=
  .next <|
    if !s.coreUp lc then s
    else
      let s := (ctxsOf lc).foldl (fun s c => s.charge c) s
      let s := if (s.core lc).empty then s else (((s.passStep lc).drainStep lc).loadStep lc).bgStep lc
      s.openStep lc

/-! ## The pacer (R148 to R152) -/

/-- The rate at which a die's pacer gives tokens: `rate` in fixed-rate mode, gap_rate while gaps are required, the lower of
both where both apply (R148, R151, R616; log entry 46). -/
def State.tokenRate (s : State) (d : Nat) : Option Nat :=
  let rate := s.fget (rg .paceCtl d) 63 32
  let gap := s.fget (rg .gap d) 31 0
  let fixed : Bool := s.fget (rg .paceCtl d) 0 0 = 1
  if s.fget (rg .gap d) 32 32 = 1 then some (if fixed then min rate gap else gap)
  else if fixed then some rate else none

/-- Tokens given to a core's bucket of 16; those that find it full are counted in `missed` and set `short` (R150). -/
def State.giveTokens (s : State) (l : LC) (n : Nat) : State :=
  let t := (s.core l).tokens + n
  let s := s.updCore l fun q => { q with tokens := min t 16 }
  if t ≤ 16 then s else (s.bump (rg .cadStatus (l.val / 16)) 63 32 (t - 16)).fset (rg .cadStatus (l.val / 16)) 0 0 1

/-- `PACER_TICK`: a tick of a die's time counter, and on a compute die of its pacer (R148, R151, R160). -/
def execPacerTick (d : Die) (s : State) : Out :=
  .next <|
    let s := s.updDie d fun k => { k with time := k.time + 1 }
    if 12 ≤ d.val then s
    else
      let gap := s.fget (rg .gap d.val) 32 32 = 1 && s.fget (rg .gap d.val) 31 0 < s.fget (rg .paceCtl d.val) 63 32
      let s := s.fset (rg .cadStatus d.val) 1 1 (if gap then 1 else 0)
      match s.tokenRate d.val with
      | none => s
      | some r =>
        let sum := (s.die d).frac.toNat + r
        let s := s.updDie d fun k => { k with frac := BitVec.ofNat 24 sum }
        (lcsOf (Fin.ofNat 12 d.val)).foldl (fun s l => s.giveTokens l (sum / 2 ^ 24)) s

/-! ## Droop (R144 to R147) -/

/-- `DROOP_TRIGGER` (R145, R146). -/
def execDroopTrigger (d : CDie) (s : State) : Out :=
  .next <|
    let r := rg .droopCtl d.val
    if (s.die (CDie.die d)).holdoff.isSome then s.bump r 63 48 1
    else
      let now := s.time (CDie.die d)
      let gate := BitVec.ofNat 64 (4 * s.fget r 15 8)
      (s.bump r 47 32 1).updDie (CDie.die d) fun k => { k with
        gateStart := some (k.gateStart.getD now)
        gateEnd := now + gate }

/-- `DROOP_GATE_END`: a gate ends when its time has passed, or after 2 µs without a break, which starts the hold-off of 1 µs
(R145, R146). -/
def execDroopGateEnd (d : CDie) (s : State) : Out :=
  .next <|
    let k := s.die (CDie.die d)
    match k.gateStart with
    | none => s
    | some t0 =>
      let long := decide (t0.toNat + 2000 ≤ k.gateEnd.toNat)
      let stop := if long then t0.toNat + 2000 else k.gateEnd.toNat
      if k.time.toNat < stop then s
      else s.setDie (CDie.die d) { k with
        gateStart := none
        holdoff := if long then some (t0 + 3000) else none }

/-- `DROOP_HOLDOFF_END` (R146). -/
def execDroopHoldoffEnd (d : CDie) (s : State) : Out :=
  .next <|
    let k := s.die (CDie.die d)
    match k.holdoff with
    | none => s
    | some e => if k.time.toNat < e.toNat then s else s.setDie (CDie.die d) { k with holdoff := none }

/-! ## Time and counters (R158, R160 to R164) -/

/-- `TIME_PLL_UNLOCK`: the counter goes on from the internal oscillator, and `time_unlocked` is set (R162). -/
def execTimePllUnlock (d : Die) (s : State) : Out := .next (s.fset (rg .cadStatus d.val) 2 2 1)

/-- The offset of R163 from four time stamps; the half nanosecond of an odd difference is a free choice (log entry 45). -/
def offsetOf (free : W64) (t1 t2 t3 t4 : W64) : Int :=
  let x := ((t4 - t3) - (t2 - t1)).toInt
  x / 2 + (if x % 2 = 0 then 0 else (free.toNat % 2 : Nat))

/-- A measured offset of a die: published when none is, or when it differs from the published one by more than 4 ns, which
sets `stale` (R163, R164). -/
def State.publishOffset (s : State) (d : Nat) (t1 t2 t3 t4 : W64) : State :=
  let r := rg .toff d
  let o := offsetOf s.freeVal t1 t2 t3 t4
  let s := s.drawn
  let put (s : State) : State := (s.fset r 47 0 (BitVec.ofInt 48 o).toNat).fset r 63 63 1
  if s.fget r 63 63 = 0 then put s
  else
    let old := (BitVec.ofNat 48 (s.fget r 47 0)).toInt
    if 4 < (o - old).natAbs then (put s).fset r 62 62 1 else s

/-- `TIME_OFFSET_MEASURE` (R164). -/
def execTimeOffsetMeasure (d : Die) (t1 t2 t3 t4 : W64) (s : State) : Out := .next (s.publishOffset d.val t1 t2 t3 t4)

/-- `SNAP`: the counters of a logical core copied into the readable copy, with the time of the snapshot (R158, R154). -/
def execSnap (lc : LC) (s : State) : Out :=
  .next <| (ctxsOf lc).foldl (fun s c => (List.finRange 16).foldl (fun s n =>
    s.setReg (rg .lcCnt lc.val (16 * c.ix.val + n.val)) (if n = 15 then s.now lc else s.counter c n)) s) s

/-! ## The scratchpad scrubber (R121) -/

/-- `SCRATCHPAD_SCRUB`: every word of a powered scratchpad is read: single-bit errors are corrected, uncorrectable words are
counted and recorded, and the pass is counted (R119 to R121, R125). -/
def execScratchpadScrub (lc : LC) (s : State) : Out :=
  .next <|
    if !s.windowUp (windowBase lc) then s
    else
      let own (w : Nat) : Bool := decide (windowBase lc ≤ 8 * w) && decide (8 * w < windowBase lc + 0x600000)
      let ws := (s.softWords ++ s.badWords).filter own
      (ws.foldl (fun s w => s.spdTouch (8 * w) 8) s).bump (rg .coreSpdScrub lc.val) 63 32 1

end Sys2Proof.Machine
end

