-- ==== Sys2Proof/Machine/Homes.lean ====
section
/-! DEFINITION. The transactions of the homes (R328, R333, R360 to R373), what a response does at its requester (R212, R227, R248,
R260), and the lower tiers (R412 to R416). -/

namespace Sys2Proof.Machine

/-! ## Responses at a context -/

/-- The condition of a `wait`, by its size code (R259). -/
def waitMet (z : BitVec 4) (v x : W64) : Bool :=
  match z.toNat with
  | 0 => v = x
  | 1 => v ≠ x
  | 2 => !v.ult x
  | 3 => v.ult x
  | 4 => !v.slt x
  | _ => v.slt x

/-- The scalar issue unit is free of a context's request (R114, R248). -/
def State.unblock (s : State) (c : Cx) : State :=
  s.updCore c.lc fun q => if q.blockedBy = some c.ix then { q with blockedBy := none } else q

/-- The journal kind of a request's entry (R211). -/
def AwaitKind.journal : AwaitKind → Nat
  | .amo => 1 | .ldv => 2 | .wait => 3 | .arrival => 4

/-- A request of a context ends with a value: the entry is written, then the instruction completes (R212). A context whose core
logic has failed only gets the entry. -/
def State.awaitDone (s : State) (c : Cx) (a : Await) (v : W64) : State :=
  let s := (s.jAppend c a.kind.journal 0 (s.ctx c).pc (if a.kind = .arrival then 0 else v)).unblock c
  s.updCtx c fun k =>
    if k.replayDue then { k with await := none }
    else if a.kind = .arrival then ({ k with await := none }).advance
    else (({ k with await := none }).sset a.d v).advance

/-- A `wait` that has read its word: it ends when its condition holds, else it reads again later (R260). -/
def State.waitValue (s : State) (c : Cx) (a : Await) (v : W64) : State :=
  if waitMet a.cond v ((s.ctx c).sget a.d) then s.awaitDone c a v
  else s.updCtx c fun k => { k with await := some { a with sent := false } }

/-- The response to a context's request: an exception, or the value (R248, R369, R415). -/
def State.awaitResponse (s : State) (c : Cx) (a : Await) (st : W8) (old : W64) (d : List W8) (po : Bool) : State :=
  match lineError a.line st po with
  | some (e, det) =>
    let s := (s.unblock c).updCtx c fun k => { k with await := none }
    if (s.ctx c).replayDue then s else s.raise c e (s.ctx c).pc a.va det
  | none =>
    let v := if a.kind = .amo then old else leWord ((d.drop a.off).take a.size)
    if a.kind = .wait then s.waitValue c a v else s.awaitDone c a v

/-- The exception of a write that its home has not performed (R227, R369, R415). -/
def writeError (e : SbEntry) (st : W8) : Option (Exc × W64) :=
  if st = stDiscarded then some (.poison, e.line.setWidth 64) else lineError e.line st false

/-- The first entry of a list that satisfies a test, and the list without it. -/
def takeFirst {α : Type} (p : α → Bool) : List α → Option (α × List α)
  | [] => none
  | x :: t => if p x then some (x, t) else (takeFirst p t).map fun r => (r.1, x :: r.2)

/-- A sent entry of a context for a line, accepted or ended with an error: the entry is gone, and an error is kept for the next
fence (R227, R332). -/
def State.accepted (s : State) (c : Cx) (line : PAddr) (st : W8) : State :=
  let q := s.core c.lc
  let mine (e : SbEntry) : Bool := e.c = c.ix && e.line = line && e.sent
  let r := match takeFirst mine q.sb with
    | some (e, l) => some (e, { q with sb := l })
    | none => (takeFirst mine q.copyQ).map fun x => (x.1, { q with copyQ := x.2 })
  match r with
  | none => s
  | some (e, q) =>
    let s := (s.setCore c.lc q).bcpTrim c.lc
    match writeError e st with
    | some (x, det) => s.bgFailed c x e.va det
    | none => s

/-- The response of a home at its requester: a context of this vertex gets its line, value or acceptance; any other requester
gets the message (R360, R365). -/
def State.respondTo (s : State) (a : LAddr) (q : HomeReq) (st : W8) (old : W64) (d : List W8) (po : Bool) : State :=
  match q.r with
  | .ctx c =>
    if q.vertex ≠ s.vertex then s.emit (.homeData q.vertex q.r a st old d po)
    else
      let line := mkPA s.vertex a
      match q.kind with
      | .wrPart _ _ | .wrLine _ => s.accepted c line st
      | _ =>
        let k := s.core c.lc
        match (s.ctx c).await with
        | some w =>
          if w.line = line && w.sent && w.kind ≠ .arrival then s.awaitResponse c w st old d po else s
        | none =>
          match k.ocMiss with
          | some (l, _, _) =>
            if l = line && k.blockedBy = some c.ix then s.setCore c.lc { k with arrived := some (line, st, d, po) } else s
          | none => s
  | _ => s.emit (.homeData q.vertex q.r a st old d po)

/-! ## Requests at a home (R360 to R363) -/

/-- The line of an address. -/
def lineAddr (a : LAddr) : LAddr := BitVec.ofNat 44 (lineOf a.toNat)

/-- A transaction of an agent reaches the home of its line. -/
def State.request (s : State) (r : Requester) (v : Vertex) (a : LAddr) (h : Hint) (k : TxnKind) : State :=
  s.arrive (lineAddr a) ⟨r, v, h, k, s.time (homeDie a.toNat)⟩

/-- Whether a requester keeps tracked copies: host harts, the host last-level cache and CXL.cache agents (R360). -/
def Requester.caches : Requester → Bool
  | .hart _ | .llc _ | .port _ => true
  | _ => false

/-- `RD_ONCE` (R360). -/
def execRdOnce (r : Requester) (vertex : Vertex) (a : LAddr) (h : Hint) (s : State) : Out :=
  .next (s.request r vertex a h .rdOnce)

/-- `RD_SHARED` (R360). -/
def execRdShared (r : Requester) (a : LAddr) (h : Hint) (s : State) : Out :=
  .next (if Requester.caches r then s.request r s.vertex a h .rdShared else s)

/-- `RD_UNIQUE` (R360). -/
def execRdUnique (r : Requester) (a : LAddr) (h : Hint) (s : State) : Out :=
  .next (if Requester.caches r then s.request r s.vertex a h .rdUnique else s)

/-- `WR_PART` (R360). -/
def execWrPart (r : Requester) (vertex : Vertex) (a : LAddr) (h : Hint) (mask : BitVec 128) (data : List W8) (s : State) : Out :=
  .next (s.request r vertex a h (.wrPart mask data))

/-- `WR_LINE` (R360). -/
def execWrLine (r : Requester) (vertex : Vertex) (a : LAddr) (h : Hint) (data : List W8) (s : State) : Out :=
  .next (s.request r vertex a h (.wrLine data))

/-- `ATOMIC`: a naturally aligned word of 4 or 8 bytes (R328, R360). -/
def execAtomic (r : Requester) (vertex : Vertex) (a : LAddr) (op : AmoOp) (dbl : Bool) (v : W64) (s : State) : Out :=
  .next (if a.toNat % (if dbl then 8 else 4) = 0 then s.request r vertex a .normal (.atomic op (a.toNat % 128) dbl v) else s)

/-- `EVICT` (R360). -/
def execEvict (r : Requester) (a : LAddr) (data : Option (List W8)) (s : State) : Out :=
  .next (if Requester.caches r then s.request r s.vertex a .normal (.evict data) else s)

/-- `RECALL`: the home's message reaches a holder, once (R360, R362). -/
def execRecall (a : LAddr) (holder : Requester) (s : State) : Out :=
  .next <|
    let l := s.line a
    match l.txn with
    | some t => match t.phase with
      | .recall left sent =>
        if left.contains holder && !sent.contains holder then
          (s.setLine a { l with txn := some { t with phase := .recall left (sent ++ [holder]) } }).emit (.recall a holder)
        else s
      | _ => s
    | none => s

/-- A response that comes after its home has given it up: discarded, and counted in the record of the timeout (R367). -/
def State.lateResponse (s : State) (a : LAddr) (r : Requester) : State :=
  let l := s.line a
  if l.late ≠ some r then s
  else
    let hit (e : ErrRec) : Bool := e.cls = 0x06 && e.addr = mkPA s.vertex a && e.requester = Requester.code r
    let up (e : ErrRec) : ErrRec := if hit e then { e with count := BitVec.ofNat 16 (min (e.count.toNat + 1) 0xFFFF) } else e
    { s.setLine a { l with late := none } with errHeld := s.errHeld.map up, errKept := s.errKept.map up }

/-- `RECALL_RESPONSE`: a holder gives up its copy, with the data it wrote; a read leaves it a shared copy (R324, R360). -/
def execRecallResponse (a : LAddr) (holder : Requester) (data : Option (List W8)) (s : State) : Out :=
  .next <|
    let l := s.line a
    match l.txn with
    | none => s.lateResponse a holder
    | some t => match t.phase with
      | .recall left sent =>
        if !left.contains holder then s.lateResponse a holder
        else
          let keeps : Bool := match t.req.kind with | .rdOnce | .rdShared => true | _ => false
          let rest := left.filter (· ≠ holder)
          let others := l.sharers.filter (· ≠ holder)
          let s := (s.setLine a { l with
            owner := if l.owner = some holder then none else l.owner
            sharers := if keeps then others ++ [holder] else others
            txn := some { t with phase := .recall rest (sent.filter (· ≠ holder)) } }).flushed a
          let s := match data with | some d => s.storeLine a .normal (fit 128 d) | none => s
          if rest.isEmpty then s.afterRecall a t.req else s
      | _ => s.lateResponse a holder

/-- `HOME_RESPONSE` for a line whose home is on another vertex: the request of a context, or the write of a core, that the
response answers; a value is free (R370, R373; log entry 26). -/
def State.remoteResponse (s : State) (a : LAddr) : State :=
  let far (line : PAddr) : Bool := !s.isLocal line && PAddr.loc line = a
  let cs := (List.finRange 192).flatMap ctxsOf
  match cs.find? fun c => match (s.ctx c).await with | some w => far w.line && w.sent && w.kind ≠ .arrival | none => false with
  | some c => match (s.ctx c).await with
    | some w =>
      let v := s.freeVal &&& BitVec.ofNat 64 (2 ^ (8 * w.size) - 1)
      let s := s.drawn
      if w.kind = .wait then s.waitValue c w v else s.awaitDone c w v
    | none => s
  | none =>
    match (List.finRange 192).findSome? fun l =>
        ((s.core l).sb ++ (s.core l).copyQ).find? (fun e => far e.line && e.sent) |>.map fun e => ((⟨l, e.c⟩ : Cx), e.line) with
    | some (c, line) => s.accepted c line 0
    | none => s

/-- `HOME_RESPONSE`: the home's completion, data or old value reaches its requester (R360, R362). -/
def execHomeResponse (a : LAddr) (s : State) : Out :=
  .next <|
    let l := s.line a
    match l.txn with
    | some t => match t.phase with
      | .respond st old d po =>
        (s.setLine a { l with txn := some { t with phase := .ack, at_ := s.time (homeDie a.toNat) } }).respondTo a t.req st old d po
      | _ => s.remoteResponse a
    | none => s.remoteResponse a

/-- `ACKNOWLEDGEMENT`: the requester has its completion; the line is released and the next request starts (R362, R363). -/
def execAcknowledgement (a : LAddr) (r : Requester) (s : State) : Out :=
  .next <|
    match (s.line a).txn with
    | some t => if t.phase = .ack ∧ t.req.r = r then s.release a else s.lateResponse a r
    | none => s.lateResponse a r

/-- `HOME_TIMEOUT`: 200 µs after the home's message a participant still owes its response: the line is poisoned, the
transaction ends, the line is released and a record names the silent participant (R366, R497, R498). The requester of a
transaction that waited for a recall is answered with poison (log entry 48). -/
def execHomeTimeout (a : LAddr) (s : State) : Out :=
  .next <|
    let l := s.line a
    let die := homeDie a.toNat
    match l.txn with
    | none => s
    | some t =>
      let silent : List Requester × Nat := match t.phase with
        | .ack => ([t.req.r], 1)
        | .recall left _ => (left, 2)
        | _ => ([], 0)
      if silent.1.isEmpty || (s.time die - t.at_).toNat < 200000 then s
      else
        let s := s.poisonLine a
        let s := silent.1.foldl (fun s r => s.logErr die
          { cls := 0x06, index := BitVec.ofNat 16 (homeOf a.toNat).val, action := 0x06, addr := mkPA s.vertex a
            requester := Requester.code r, syndrome := BitVec.ofNat 64 silent.2 }) s
        let l := s.line a
        let s := s.setLine a { l with
          owner := if silent.1.any (fun r => l.owner = some r) then none else l.owner
          sharers := l.sharers.filter (!silent.1.contains ·)
          late := silent.1.head? }
        let s := if silent.2 = 2 then s.respondTo a t.req (match t.req.kind with
            | .wrPart _ _ | .wrLine _ => stDiscarded
            | _ => 0) 0 [] true
          else s
        s.release a

/-! ## The store buffer towards the homes (R332, R333, R370) -/

/-- Whether the entry at a place of a list may be sent: none before it is for the same line, so that the line's order is the order in
which the core's loads see the stores (R331, R333; log entry 77). -/
def mayBeSent (l : List SbEntry) (i : Nat) : Bool :=
  match l[i]? with
  | none => false
  | some e => !e.sent && (l.take i).all fun x => x.line ≠ e.line

/-- An entry goes to its home, or to its vertex (R333, R370). -/
def State.sendEntry (s : State) (l : LC) (e : SbEntry) : State :=
  if s.isLocal e.line then
    s.request (.ctx ⟨l, e.c⟩) s.vertex (PAddr.loc e.line) e.hint
      (if e.mask = BitVec.allOnes 128 then .wrLine e.data else .wrPart e.mask e.data)
  else s.emit (.remoteWrite e.line e.mask e.data)

/-- `STORE_BUFFER_SEND`: the entry of the store buffer at a place, and beyond its last entry one of the copy queue (R333; log
entry 49). -/
def execStoreBufferSend (lc : LC) (ix : Fin 64) (s : State) : Out :=
  .next <|
    let q := s.core lc
    let n := q.sb.length
    let mark (e : SbEntry) : SbEntry := { e with sent := true, sentAt := s.now lc }
    if ix.val < n then
      match q.sb[ix.val]? with
      | some e => if mayBeSent q.sb ix.val then
          (s.setCore lc { q with sb := q.sb.set ix.val (mark e) }).sendEntry lc e else s
      | none => s
    else match q.copyQ[ix.val - n]? with
      | some e => if mayBeSent q.copyQ (ix.val - n) then
          (s.setCore lc { q with copyQ := q.copyQ.set (ix.val - n) (mark e) }).sendEntry lc e else s
      | none => s

/-- `REMOTE_WRITE_TIMEOUT`: a remote write that has not been accepted within 400 µs of its sending fails with `ADDR` (R370). -/
def execRemoteWriteTimeout (lc : LC) (ix : Fin 64) (s : State) : Out :=
  .next <|
    let q := s.core lc
    match (q.sb ++ q.copyQ)[ix.val]? with
    | none => s
    | some e =>
      if !e.sent || s.isLocal e.line || (s.now lc - e.sentAt).toNat < 400000 then s
      else
        let n := q.sb.length
        let q := if ix.val < n then { q with sb := q.sb.eraseIdx ix.val } else { q with copyQ := q.copyQ.eraseIdx (ix.val - n) }
        ((s.setCore lc q).bcpTrim lc).bgFailed ⟨lc, e.c⟩ .addr e.va ((PAddr.loc e.line).setWidth 64)

/-! ## Waits (R260) -/

/-- `WAIT_REREAD`: a `wait` whose last read did not meet its condition reads again: at the home, over Facet, or in device space
(R260, R606). -/
def execWaitReread (c : Cx) (s : State) : Out :=
  .next <|
    match (s.ctx c).await with
    | none => s
    | some w =>
      if w.kind ≠ .wait || w.sent || (s.ctx c).replayDue then s
      else
        let s' := s.updCtx c fun k => { k with await := some { w with sent := true } }
        if !s.isLocal w.line then s'.emit (.remoteRead w.line)
        else if (regionOf (PAddr.loc w.line).toNat).coherent then
          s'.request (.ctx c) s.vertex (PAddr.loc w.line) .normal .rdOnce
        else
          let a := (PAddr.loc w.line).toNat + w.off
          match s.deviceRead c a 8 (regionOf a = .regs) w.va with
          | .ok (s, v) => s.waitValue c w v
          | .error _ => s

/-! ## Lower tiers (R412 to R416) -/

/-- Whether a request is privileged: a collective engine's, or that of a context whose stream has tier_stall (R414). -/
def State.privileged (s : State) (q : HomeReq) : Bool :=
  match q.r with
  | .collective _ => true
  | .ctx c => match (s.ctx c).stream.bind (s.core c.lc).stream with
    | some x => x.tierStall && q.vertex = s.vertex
    | none => false
  | _ => false

/-- The stall register of a tier. -/
def stallReg (a : LAddr) : Reg := if tierOf a.toNat = 2 then rg .tierStallT2 else rg .tierStallT3

/-- The microseconds that a stalled request has waited since they were last counted (R414). -/
def State.countStall (s : State) (a : LAddr) (t : Txn) : State :=
  let us := (s.time (homeDie a.toNat) - t.at_).toNat / 1000
  (s.bump (stallReg a) 63 32 us).setLine a { s.line a with txn := some { t with at_ := t.at_ + BitVec.ofNat 64 (1000 * us) } }

/-- A transaction at a lower tier meets a status: a privileged request stalls on any but `NO_DECODE`, any other ends with the
status, and a write leaves its line poisoned (R414 to R416). -/
def State.tierStatusMet (s : State) (a : LAddr) (t : Txn) (stalled : Bool) (st : W8) : State :=
  let l := s.line a
  let now := s.time (homeDie a.toNat)
  if s.privileged t.req && st ≠ 0x03 then
    if stalled then s.countStall a t
    else (s.bump (stallReg a) 31 0 1).setLine a { l with txn := some { t with phase := .tier true, at_ := now } }
  else
    let s := match t.req.kind with | .rdOnce | .rdShared | .rdUnique => s | _ => s.poisonLine a
    s.setLine a { s.line a with txn := some { t with phase := .respond st 0 [] false, at_ := now } }

/-- The code of a lower-tier status (R413). -/
def TierAnswer.code : TierAnswer → W8
  | .linkDown => 0x02 | .noDecode => 0x03 | .deviceErr => 0x04 | .ctrlFault => 0x05 | _ => 0

/-- `LOWER_TIER_RESPONSE`: a DDR channel or CXL device answers the request of its home: data, poison or a status. An address that
nothing backs, or whose expander link is lost, answers with its status (R413, R414, R496). -/
def execLowerTierResponse (a : LAddr) (o : TierAnswer) (s : State) : Out :=
  .next <|
    match (s.line a).txn with
    | none => s
    | some t => match t.phase with
      | .tier stalled =>
        let st : W8 := (s.tierStatus a.toNat).getD (TierAnswer.code o)
        if st ≠ 0 then s.tierStatusMet a t stalled st
        else
          let s := if stalled then s.countStall a t else s
          let s := if o = .poison then s.poisonLine a else s
          let l := s.line a
          let r := s.perform a t.req (!l.sharers.isEmpty || l.owner.isSome)
          r.1.setLine a { r.1.line a with txn := some ⟨t.req, r.2, s.time (homeDie a.toNat)⟩ }
      | _ => s

/-- The late limit of a tier in nanoseconds (R413). -/
def State.lateLimit (s : State) (a : LAddr) : Nat :=
  let us := if tierOf a.toNat = 2 then s.fget (rg .tierLate) 15 0 else s.fget (rg .tierLate) 31 16
  1000 * max us 1

/-- Whether a request has gone beyond its late limit. -/
def State.isLate (s : State) (a : LAddr) (q : HomeReq) : Bool :=
  decide (s.lateLimit a ≤ (s.time (homeDie a.toNat) - q.at_).toNat)

/-- `TIER_LATE_TIMEOUT`: the request that its tier has not answered within its limit takes `LATE`; a request that waits behind a
busy line runs its own limit and may end `LATE` as well (R413, R416). -/
def execTierLateTimeout (a : LAddr) (s : State) : Out :=
  .next <|
    let l := s.line a
    if tierOf a.toNat < 2 then s
    else
      let here : Option Txn := l.txn.bind fun t => if t.phase = .tier false && s.isLate a t.req then some t else none
      match here with
      | some t => s.tierStatusMet a t false 0x01
      | none => match takeFirst (fun q => s.isLate a q && !s.privileged q) l.waiting with
        | some (q, rest) =>
          let s := s.setLine a { l with waiting := rest }
          let s := match q.kind with | .rdOnce | .rdShared | .rdUnique => s | _ => s.poisonLine a
          s.respondTo a q 0x01 0 [] false
        | none => s

/-- `TIER_STALL_RETRY`: every 10 µs the home asks the tier again for a stalled request; the time it has waited is counted
(R414). -/
def execTierStallRetry (a : LAddr) (s : State) : Out :=
  .next <|
    match (s.line a).txn with
    | some t =>
      if t.phase = .tier true && decide (10000 ≤ (s.time (homeDie a.toNat) - t.at_).toNat) then s.countStall a t else s
    | none => s

end Sys2Proof.Machine
end

