-- ==== Sys2Proof/Machine/Engine.lean ====
section
/-! DEFINITION. Accesses of the engines that move data on their own: block copies, prefetches, copy engines, collective engines
(R91, R322, R360, R370, R415, R450, R479). -/

namespace Sys2Proof.Machine

/-- A piece of a range within one line: the line's physical address, the offset and the length in it. -/
abbrev Piece := PAddr × Nat × Nat

/-- The pieces of a range at a virtual address of a root, or the address whose page no TLB holds. -/
def State.virtPieces (s : State) (r : Requester) (root va : W64) (n : Nat) (acc : Acc) : Except W64 (List Piece) :=
  match s.translate r root va n acc with
  | .ok ps _ => .ok (partLines ps)
  | .miss v => .error v

/-- The pieces of a physical range. -/
def physPieces (pa : PAddr) (n : Nat) : List Piece := partLines [(pa, n)]

/-- Whether the vertex of a remote line answers an access to it (R370, R721). -/
def State.remoteOk (s : State) (line : PAddr) : EngRes :=
  if !(regionOf (PAddr.loc line).toNat).coherent then .addr
  else if !s.canReach (PAddr.vertex line) then .unreach
  else .data []

/-- An engine's read of one line. A remote line's bytes are free values (log entry 26). -/
def State.readLine (s : State) (r : Requester) (line : PAddr) (h : Hint) : State × EngRes :=
  if s.isLocal line then s.engRead r (PAddr.loc line) h
  else match s.remoteOk line with
    | .data _ => ({ (s.emit (.remoteRead line)) with draws := s.draws + 16 },
        .data (wordsBytes ((List.range 16).map fun i => Config.freeValue (s.draws + i))))
    | x => (s, x)

/-- An engine's write of bytes in one line. -/
def State.writeLine (s : State) (r : Requester) (line : PAddr) (h : Hint) (m : BitVec 128) (d : List W8) : State × EngRes :=
  if s.isLocal line then s.engWrite r (PAddr.loc line) h m d
  else match s.remoteOk line with
    | .data _ => (s.emit (.remoteWrite line m d), .data [])
    | x => (s, x)

/-- The bytes of pieces, read in turn; the first line that does not give its data ends the read with what it met. -/
def State.gather (s : State) (r : Requester) (h : Hint) : List Piece → State × Except (PAddr × EngRes) (List W8)
  | [] => (s, .ok [])
  | p :: t =>
    match s.readLine r p.1 h with
    | (s, .data d) => match s.gather r h t with
      | (s, .ok ds) => (s, .ok ((d.drop p.2.1).take p.2.2 ++ ds))
      | x => x
    | (s, x) => (s, .error (p.1 + BitVec.ofNat 56 p.2.1, x))

/-- Bytes written to pieces in turn; the first line that does not take them ends the write. -/
def State.scatter (s : State) (r : Requester) (h : Hint) : List Piece → List W8 → State × Option (PAddr × EngRes)
  | [], _ => (s, none)
  | p :: t, bs =>
    match s.writeLine r p.1 h (maskOf128 p.2.1 p.2.2) (patch (List.replicate 128 0) p.2.1 (bs.take p.2.2)) with
    | (s, .data _) => s.scatter r h t (bs.drop p.2.2)
    | (s, x) => (s, some (p.1 + BitVec.ofNat 56 p.2.1, x))

/-- The fill status of R756 for what an access met; none where the engine waits. -/
def EngRes.fillStatus : EngRes → Option W8
  | .poison => some 0x02
  | .status _ => some 0x03
  | .addr | .unreach => some 0x04
  | .data _ => some 0
  | .blocked => none

/-- The failure cause of R489 for what an access of a copy engine met; none where it waits. -/
def EngRes.cause : EngRes → Option W8
  | .poison => some 0x10
  | .status x => some x
  | .addr => some 0x12
  | .unreach => some 0x13
  | .data _ => some 0
  | .blocked => none

/-- A context as it is seen while it works for a stream that may have left it. -/
def State.viewAs (s : State) (c : Cx) (id : W32) : State := s.updCtx c fun k => { k with stream := some id }

/-- The context of a logical core that holds a stream. -/
def State.holds (s : State) (l : LC) (id : W32) : Option Cx := (ctxsOf l).find? fun c => (s.ctx c).stream = some id

end Sys2Proof.Machine
end

