-- ==== Sys2Proof/Machine/Transfer.lean ====
section
/-! DEFINITION. Tile transfer over Facet (R276 to R279, R306, R522 to R525) and the ends of slot fills (R90, R91, R210, R211,
R213, R491, R756, R758). -/

namespace Sys2Proof.Machine

/-! ## Ends of fills -/

/-- A slot's new state by its number and fill status: `RESIDENT` for status 0, else `FAILED`. -/
def fillValue (st : W8) : W64 := BitVec.ofNat 64 ((if st = 0 then 2 else 3) + st.toNat * 2 ^ 8)

/-- A slot as a fill leaves it. -/
def Slot.filled (x : Slot) (st : W8) : Slot := { x with st := if st = 0 then .resident else .failed, status := st }

/-- The end of a fill that the context itself issued. -/
def State.ownFillEnd (s : State) (c : Cx) (slot : BitVec 4) (st : W8) : State :=
  s.updCtx c fun k =>
    { (k.setSlot slot ((k.slot slot).filled st)) with fills := k.fills.filter (·.slot ≠ slot) }

/-- The end of an external fill for the stream of a slot (R211, R213): journaled as kind 0x9, or for a stream that waits,
written into the copy in its save area (R758). A 65th entry leaves the slot `FILLING` and stops the context. -/
def State.extFillEnd (s : State) (l : LC) (id : W32) (slot : BitVec 4) (st : W8) : State :=
  match s.holds l id with
  | some c =>
    let n := s.jCounts c
    if 64 ≤ n.2 then s.raise c .journalFull (s.ctx c).pc 0 (BitVec.ofNat 64 (n.1 + n.2 * 2 ^ 8))
    else (s.jAppend c 9 slot.toNat 0 (fillValue st)).updCtx c fun k => k.setSlot slot ((k.slot slot).filled st)
  | none => match (s.core l).stream id with
    | none => s
    | some x => match s.mapOne (LC.walkDie l) x.root x.saveBase 1 with
      | none => s
      | some pa =>
        let a := pa + BitVec.ofNat 56 (0x5E0 + 16 * slot.toNat)
        let w := leWord (s.physRead a 8)
        let v := fillValue st
        s.physWrite a (leBytes 8 (withBits (withBits w 1 0 (bits v 1 0)) 15 8 st.toNat).toNat)

/-! ## `fct.send` and `fct.recv` -/

/-- The detail word of `FACET_FAIL` (R280, R525). -/
def facetDetail (v : Vertex) (lc cause : Nat) : W64 := BitVec.ofNat 64 (v.toNat + lc % 256 * 2 ^ 12 + cause * 2 ^ 24)

/-- The cause for which a send to a logical core of a vertex fails at once, 0 for none (R276, R280). -/
def State.sendBad (s : State) (v : Vertex) (lc : Nat) : Nat :=
  if !s.populated v then 1 else if !s.reachable v then 2 else if 192 ≤ lc then 3 else 0

/-- The rows of a tile's three parts: addresses and lengths of the elements, the scales (log entry 31) and the check values. -/
def TileDesc.tileReads (d : TileDesc) : List (W64 × Nat) × List (W64 × Nat) × List (W64 × Nat) :=
  let rs := List.range d.rows
  (rs.map fun r => (d.elemAt r, d.elemBytes d.cols),
    if !d.scaled then []
    else if d.kRows then (List.range ((d.rows + 31) / 32)).map fun r => (d.scaleAt r, d.cols)
    else rs.map fun r => (d.scaleAt r, (d.cols + 31) / 32),
    if d.chkEn then rs.map fun r => (d.checkAt r, 4 * ((d.cols + 127) / 128)) else [])

/-- The bytes of a part of a tile. -/
def partLen (ps : List (W64 × Nat)) : Nat := ps.foldl (fun n p => n + p.2) 0

/-- The header of a send (R522). -/
def State.header (s : State) (l : LC) (x : Send) : TileHeader :=
  let p := x.desc.tileReads
  ⟨s.vertex, BitVec.ofNat 8 l.val, Fin.ofNat 192 x.toLc.toNat, x.tag, x.cls, x.desc.w5.setWidth 6, x.desc.rows, x.desc.cols,
    partLen p.1, partLen p.2.1, partLen p.2.2⟩

/-- The local Facet port accepts a tile: its header goes out in its class and the send is counted (R522, R536). -/
def State.sendTile (s : State) (c : Cx) (v : Vertex) (lc tag : Nat) (cls : BitVec 2) (d : TileDesc) : State :=
  let x : Send := ⟨c.ix, (s.ctx c).stream.getD 0, v, BitVec.ofNat 8 lc, BitVec.ofNat 8 tag, cls, d, none⟩
  let s := s.updCore c.lc fun q => { q with sends := q.sends ++ [x] }
  let s := { s with tilesOut := Tbl.set s.tilesOut (v, cls) (Tbl.get 0 s.tilesOut (v, cls) + 1) }
  s.emit (.tileHeader v cls (s.header c.lc x))

/-- `fct.send` (R276): journaled as kind 0x5, and in a checked interval held until the digests agree (R587). -/
def execFctSend (c : Cx) (f : TForm) (s : State) : Out :=
  dtiT 0x60 0x0 c f (fun s =>
    let d := (s.ctx c).tget f.ta
    let v : Vertex := f.chain.setWidth 12
    let lc := bits (f.imm16.setWidth 64) 7 0
    let bad := s.sendBad v lc
    if d.absent then .exc s .format 0 (formatDetail d 2)
    else if bad ≠ 0 then .exc s .facetFail 0 (facetDetail v lc bad)
    else guardOp c (journaled c 5
      (fun s => .done ((s.jAppend c 5 0 (s.ctx c).pc 0).sendTile c v lc (bits (f.imm16.setWidth 64) 15 8)
        (f.flags.setWidth 2) d))
      (fun s _ => .done s)) s) s

/-- The first part of rows that does not lie in the own scratchpad between two offsets, as its virtual and physical address; or
the page that needs a walk. -/
def State.rowsOutside (s : State) (c : Cx) (lo hi : Nat) : List (W64 × Nat) → Except W64 (Option (W64 × PAddr))
  | [] => .ok none
  | p :: t => match s.plan c p.1 1 [(0, p.2)] with
    | .error v => .error v
    | .ok (ps, _) =>
      let inside (x : Part) : Bool := match s.place c x.pa true with
        | .own a => decide (lo ≤ (windowOf a).2) && decide ((windowOf a).2 + x.len ≤ hi)
        | _ => false
      match ps.find? fun x => !inside x with
      | some x => .ok (some (p.1 + BitVec.ofNat 64 x.dst, x.pa))
      | none => s.rowsOutside c lo hi t

/-- Whether a header matches a posted receive (R278). -/
def Recv.matches (x : Recv) (h : TileHeader) : Bool :=
  x.hdr.isNone && x.tag = h.tag && (x.vertex = 0xFFF || x.vertex = h.fromVertex) && (x.lc = 0xFF || x.lc = h.fromLc)

/-- The base die returns a clear-to-send for a header that a receive has matched (R522). -/
def State.clear (s : State) (h : TileHeader) : State := s.emit (.clearToSend h.fromVertex h.fromLc h.tag)

/-- A receive is posted: it takes the oldest held header that it matches, else it waits (R277, R523). -/
def State.postRecv (s : State) (l : LC) (x : Recv) : State :=
  let q := s.core l
  match takeFirst (fun h => x.matches h.hdr) q.arrivals with
  | some (h, rest) =>
    (s.setCore l { q with arrivals := rest, recvs := q.recvs ++ [{ x with hdr := some h.hdr }] }).clear h.hdr
  | none => s.setCore l { q with recvs := q.recvs ++ [x] }

/-- `fct.recv` (R277): journaled as kind 0x6. It waits while its slot is `FILLING` (log entry 54). In a replay the slot is
`FILLING` again only while the receive is still posted. -/
def execFctRecv (c : Cx) (f : TForm) (s : State) : Out :=
  dtiT 0x61 0x0 c f (fun s =>
    let k := s.ctx c
    let d := k.tget f.ta
    let slot : BitVec 4 := d.w5.extractLsb' 16 4
    let sl := k.slot slot
    let base := 256 * sl.base.toNat
    let p := d.tileReads
    let walk (v : W64) : Eff := .hold (s.askWalk ⟨.ctx c, v, 1, s.rootOf c, false, none, false⟩) .ocmiss
    let out (x : W64 × PAddr) : Eff := .exc s .addr x.1 ((PAddr.loc x.2).setWidth 64)
    if d.absent then .exc s .format 0 (formatDetail d 2)
    else if !d.slotEn then .exc s .shape 0 (shapeDetail 0 1 0 4)
    else match s.rowsOutside c base (base + 256 * sl.len.toNat) p.1, s.rowsOutside c 0 0x5C0000 (p.2.1 ++ p.2.2) with
      | .error v, _ => walk v
      | .ok (some x), _ => out x
      | .ok none, .error v => walk v
      | .ok none, .ok (some x) => out x
      | .ok none, .ok none =>
        if sl.st = .filling && k.replayNext.isNone then .hold s .sync
        else
          let id := k.stream.getD 0
          let filling (s : State) : State := s.updCtx c fun k => k.setSlot slot { k.slot slot with st := .filling, status := 0 }
          journaled c 6
            (fun s => .done (((filling (s.jAppend c 6 slot.toNat k.pc 0)).postRecv c.lc
              ⟨id, f.chain.setWidth 12, f.imm16.setWidth 8, f.imm16.extractLsb' 8 8, slot, d, none⟩)))
            (fun s _ => .done (if (s.core c.lc).recvs.any (fun x => x.stream = id && x.slot = slot) then filling s else s)) s) s

/-! ## Sends of chains (R306) -/

/-- `CHAIN_SEND`: the context's oldest completed column tile is sent, unless its journal entry says that a first run has sent it;
the entry's value becomes 1 once the port accepts the tile. A failed send is raised as a background write is (R303, R306,
R587). -/
def execChainSend (c : Cx) (s : State) : Out :=
  .next <|
    let k := s.ctx c
    match k.sends with
    | [] => s
    | (chain, j, entry, _) :: rest =>
      let drop (s : State) : State := s.updCtx c fun k => { k with sends := rest }
      let out (q : BgWrite) : Bool := q.c = c.ix && q.tag = .epilogue
      let outE (e : SbEntry) : Bool := e.c = c.ix && e.tag = .epilogue
      if s.peek64 (jAddr c entry + 8) ≠ 0 then drop s
      else if !s.coreUp c.lc || (s.core c.lc).bg.any out || (s.core c.lc).sb.any outE then s
      else match k.chainAt chain with
        | none => drop s
        | some x =>
          let w := x.w 12
          let v : Vertex := w.setWidth 12
          let lc := bits w 19 12
          let bad := s.sendBad v lc
          if bad ≠ 0 then (drop s).bgFailed c .facetFail 0 (facetDetail v lc bad)
          else
            let send (s : State) : State :=
              ((drop s).sendTile c v lc ((bits w 27 20 + j) % 256) (w.extractLsb' 28 2) (x.outOf j)).poke64
                (jAddr c entry + 8) 1
            match k.check with
            | none => send s
            | some r => if r.agreed then send (s.updCtx c fun k => { k with check := some { r with agreed := false } }) else s

/-! ## Headers, clear-to-send, landing -/

/-- `TILE_HEADER_ARRIVAL`: the header matches the oldest posted receive of its logical core that it fits, and a clear-to-send goes
back; else it is held in the arrival list, or waits at its sending port while the list is full (R278, R522, R523). -/
def execTileHeaderArrival (hdr : TileHeader) (s : State) : Out :=
  .next <|
    let l := hdr.toLc
    let q := s.core l
    match (List.range q.recvs.length).find? fun i => match q.recvs[i]? with | some x => x.matches hdr | none => false with
    | some i => match q.recvs[i]? with
      | some x => (s.setCore l { q with recvs := q.recvs.set i { x with hdr := some hdr } }).clear hdr
      | none => s
    | none =>
      if q.arrivals.length < 256 then
        s.setCore l { q with arrivals := q.arrivals ++ [⟨hdr, s.time (LC.walkDie l |> BDie.die)⟩] }
      else s

/-- A send that fails after its instruction has completed: kept for its context's next fence, commit or halt (R525, R227). -/
def State.sendFailed (s : State) (l : LC) (x : Send) (cause : Nat) (va : W64) : State :=
  let det := facetDetail x.vertex x.toLc.toNat cause
  match s.holds l x.stream with
  | some c => s.bgFailed c .facetFail va det
  | none => s.updCore l fun q => { q with sendFails := q.sendFails ++ [(x.stream, va, det)] }

/-- `CLEAR_TO_SEND`: the sending port reads the source tile and sends it. A tile for this vertex is kept until it has landed; one
for another vertex has left this state (log entry 55). A send whose route or source read fails is raised as `FACET_FAIL`
(R522, R524, R525). -/
def execClearToSend (lc : LC) (ix : Nat) (s : State) : Out :=
  .next <|
    match (s.core lc).sends[ix]? with
    | none => s
    | some x =>
      if x.data.isSome then s
      else
        let gone (s : State) : State := s.updCore lc fun q => { q with sends := q.sends.eraseIdx ix }
        let fail (s : State) (cause : Nat) (va : W64) : State := (gone s).sendFailed lc x cause va
        if !s.canReach x.vertex then fail s 4 0
        else
          let c : Cx := (s.holds lc x.stream).getD ⟨lc, x.c⟩
          let view := s.viewAs c x.stream
          let p := x.desc.tileReads
          let got := view.vreads c (p.1 ++ p.2.1 ++ p.2.2)
          let s := (view.vtouched c (p.1 ++ p.2.1 ++ p.2.2) got).updCtx c fun _ => s.ctx c
          match got with
          | .ok ds =>
            let n := p.1.length
            let m := p.2.1.length
            let t : FacetTile := ⟨(ds.take n).flatMap id, ((ds.drop n).take m).flatMap id, (ds.drop (n + m)).flatMap id⟩
            let s := s.emit (.tile x.vertex x.cls t)
            if x.vertex = s.vertex then s.updCore lc fun q => { q with sends := q.sends.set ix { x with data := some t } }
            else gone s
          | .error (va, .miss v) => match s.takeFailed (.ctx c) v with
            | some (_, s) => fail s 5 va
            | none => s.askWalk ⟨.ctx c, v, 0, view.rootOf c, true, none, false⟩
          | .error (va, _) => fail s 5 va

/-- `HEADER_HOLD_TIMEOUT`: a held header older than match_ms fails at its sender and leaves the list (R525). -/
def execHeaderHoldTimeout (lc : LC) (ix : Fin 256) (s : State) : Out :=
  .next <|
    let q := s.core lc
    let ms := s.fget (rg .fctClassCtl) 47 32
    match q.arrivals[ix.val]? with
    | none => s
    | some h =>
      if ms = 0 || (s.time (BDie.die (LC.walkDie lc)) - h.at_).toNat ≤ 1000000 * ms then s
      else
        let s := s.setCore lc { q with arrivals := q.arrivals.eraseIdx ix.val }
        if h.hdr.fromVertex ≠ s.vertex then s.emit (.headerFailed h.hdr.fromVertex h.hdr.fromLc h.hdr.tag)
        else
          let l : LC := Fin.ofNat 192 h.hdr.fromLc.toNat
          let mine (x : Send) : Bool := x.data.isNone && x.vertex = s.vertex && x.toLc.toNat = lc.val && x.tag = h.hdr.tag
          match takeFirst mine (s.core l).sends with
          | none => s
          | some (x, rest) => (s.updCore l fun q => { q with sends := rest }).sendFailed l x 6 0

/-- The send of this vertex that a landing tile comes from (R524). -/
def State.localSend (s : State) (l : LC) (h : TileHeader) : Option (Send × List Send) :=
  takeFirst (fun x => x.vertex = s.vertex && x.toLc.toNat = l.val && x.tag = h.tag)
    (s.core (Fin.ofNat 192 h.fromLc.toNat)).sends

/-- Rows written by virtual address into the own scratchpad; none when a page needs a walk. -/
def State.landRows (s : State) (c : Cx) : List (W64 × Nat) → List W8 → Except W64 State
  | [], _ => .ok s
  | p :: t, bs => match s.plan c p.1 1 [(0, p.2)] with
    | .error v => .error v
    | .ok (ps, _) => (ps.foldl (fun s x => match s.place c x.pa true with
        | .own a => s.spdWrite a ((fit p.2 bs).drop x.dst |>.take x.len)
        | _ => s) s).landRows c t (bs.drop p.2)

/-- A tile lands on its receive: the slot fails when the tile differs from the landing descriptor (status 0x05), else the bytes
are written (R279, R524, R536). -/
def State.land (s : State) (l : LC) (x : Recv) (h : TileHeader) (tile : FacetTile) : State :=
  let c : Cx := (s.holds l x.stream).getD ⟨l, 0⟩
  let own : Bool := h.fromVertex = s.vertex
  let from_ : LC := Fin.ofNat 192 h.fromLc.toNat
  let source := if own then s.localSend l h else none
  let data : Option FacetTile := if own then source.bind (·.1.data) else some tile
  match data with
  | none => s
  | some t =>
    let finish (s : State) (st : W8) : State :=
      let s := s.updCore l fun q => { q with recvs := q.recvs.filter (· ≠ x) }
      let s := match source with
        | some r => s.updCore from_ fun q => { q with sends := r.2 }
        | none => s
      let s := if st = 0x05 then s else
        { s with tilesIn := Tbl.set s.tilesIn (h.fromVertex, h.cls) (Tbl.get 0 s.tilesIn (h.fromVertex, h.cls) + 1) }
      s.extFillEnd l x.stream x.slot st
    if h.format ≠ x.desc.w5.setWidth 6 || h.rows ≠ x.desc.rows || h.cols ≠ x.desc.cols then finish s 0x05
    else
      let p := x.desc.tileReads
      let held := (s.ctx c).stream
      let view := s.viewAs c x.stream
      let written : Except W64 State := do
        let s ← view.landRows c p.1 t.elems
        let s ← s.landRows c p.2.1 t.scales
        s.landRows c p.2.2 t.check
      match written with
      | .ok s => finish (s.updCtx c fun k => { k with stream := held }) 0
      | .error v => match s.takeFailed (.ctx c) v with
        | some (_, s) => finish s 0x01
        | none => s.askWalk ⟨.ctx c, v, 1, view.rootOf c, true, none, false⟩

/-- Whether the writes that fill a slot have all been accepted: no drain, prologue or unfinished column tile of the context
fills it, and none of their writes is under way (R274, R297, R305). -/
def State.writesLanded (s : State) (c : Cx) (slot : BitVec 4) : Bool :=
  let k := s.ctx c
  let q := s.core c.lc
  let tagged (t : WriteTag) : Bool := t = .drain || t = .epilogue
  (match q.drain with | some d => d.c ≠ c.ix || d.out.slotNum ≠ some slot | none => true) &&
    (match k.pro with | some j => j.act.slotNum ≠ some slot | none => true) &&
    (match k.epi with
      | j :: _ => j.next = 0 || (match k.chainAt j.chain with | some x => (x.outOf j.tile).slotNum ≠ some slot | none => true)
      | [] => true) &&
    !q.bg.any (fun w => w.c = c.ix && tagged w.tag) && !q.sb.any (fun e => e.c = c.ix && tagged e.tag) &&
    !q.copyQ.any fun e => e.c = c.ix && tagged e.tag

/-- A block copy into the scratchpad is performed and its slot ends (R251, R91, R756); it waits while a page needs a walk or a
line is busy. -/
def State.bcpInEnd (s : State) (c : Cx) (slot : BitVec 4) (src : W64) (dst len : Nat) (h : Hint) : State :=
  match s.virtPieces (.ctx c) (s.rootOf c) src len 0 with
  | .error v => match s.takeFailed (.ctx c) v with
    | some (_, s) => s.ownFillEnd c slot 0x01
    | none => s.askWalk ⟨.ctx c, v, 0, s.rootOf c, true, none, false⟩
  | .ok ps =>
    match ps.find? fun p => match s.place c (p.1 + BitVec.ofNat 56 p.2.1) false with
      | .bad | .regs _ | .mmio _ => true
      | _ => false with
    | some _ => s.ownFillEnd c slot 0x04
    | none => match s.gather (.ctx c) h ps with
      | (s', .ok d) => (s'.spdPut c dst d).ownFillEnd c slot 0
      | (s', .error (_, x)) => match x.fillStatus with
        | some st => s'.ownFillEnd c slot st
        | none => s

/-- `SLOT_FILL_COMPLETE`: the fill of a slot of a context ends: a block copy, the writes of a drain or a chain, or a tile from
Facet whose header has matched; a receive of a stream that waits in the queue lands in its save area (R90, R758). A copy
engine's fill ends with its descriptor (R491). -/
def execSlotFillComplete (c : Cx) (slot : SlotIx) (tile : FacetTile) (s : State) : Out :=
  .next <|
    let k := s.ctx c
    let i : BitVec 4 := BitVec.ofNat 4 slot.val
    match k.fills.find? (·.slot = i) with
    | some f => match f.src with
      | .bcpIn src dst len h => s.bcpInEnd c i src dst len h
      | .writes => if s.writesLanded c i then s.ownFillEnd c i 0 else s
    | none =>
      let rs := (s.core c.lc).recvs.filter fun x => x.slot = i && x.hdr.isSome
      let pick := match rs.find? fun x => k.stream = some x.stream with
        | some x => some x
        | none => rs.find? fun x => (s.holds c.lc x.stream).isNone
      match pick with
      | some x => match x.hdr with
        | some h => s.land c.lc x h tile
        | none => s
      | none => s

end Sys2Proof.Machine
end

