-- ==== Sys2Proof/Machine/Faults.lean ====
section
/-! DEFINITION. Page walks and translation faults (R379 to R399) and invalidation (R386 to R389). -/

namespace Sys2Proof.Machine

/-! ## Walks (R378 to R385) -/

/-- Non-leaf entries cached on a base die: 1,024 in all, one of them lost for each entry beyond (R383; log entry 6). -/
def addEntries (draw : Nat) (es cache : List WalkEntry) : List WalkEntry :=
  es.foldl (fun l e =>
    if l.contains e then l
    else
      let mine := l.filter (·.b = e.b)
      if mine.length < 1024 then l ++ [e]
      else match mine[Config.tlbVictim draw % 1024]? with
        | some v => l.erase v ++ [e]
        | none => l ++ [e]) cache

/-- A translation installed in the core TLB of a context and in the shared TLB of its die (R383). -/
def State.installTrans (s : State) (r : Requester) (t : Trans) : State :=
  let d := s.draws
  let s := { s with draws := d + 2 }
  let s := match r with
    | .ctx c => s.updCore c.lc fun k => { k with tlb := tlbAdd 64 d t k.tlb }
    | _ => s
  s.updDie (tlbDie r) fun k => { k with tlb := tlbAdd 8192 (d + 1) t k.tlb }

/-- Whether a requester is privileged (R414). -/
def State.privReq (s : State) (r : Requester) : Bool :=
  match r with
  | .collective _ => true
  | .ctx c => match (s.ctx c).stream.bind (s.core c.lc).stream with
    | some x => x.tierStall
    | none => false
  | _ => false

/-- A context that a fault had parked may issue again. -/
def State.unpark (s : State) (w : Walk) : State :=
  match w.r with
  | .ctx c => if w.background then s else s.updCtx c fun k =>
      if k.parked then { k with parked := false, st := .issuing, wait := none } else k
  | _ => s

/-- The size that a fault's key counts in: that of its level, from 4 KiB to 1 GiB (R391). -/
def keySize (level : BitVec 2) : Nat := 2 ^ (12 + 9 * min level.toNat 2)

/-- Whether a fault has the key of a record (R391). -/
def FaultRec.sameKey (f : FaultRec) (w : Walk) (level : BitVec 2) : Bool :=
  f.opener.root = w.root && f.level = level && f.opener.va.toNat % 2 ^ 57 / keySize level = w.va.toNat % 2 ^ 57 / keySize level

/-- The base die of a fault's table (R391). -/
def faultDie (va : W64) : BDie := Fin.ofNat 4 (bits va 31 30)

/-- A requester opens or joins a record: until the record is written, the first eight are listed and the rest counted, up to
255 (R392, R398). -/
def FaultRec.join (f : FaultRec) (r : Requester) : FaultRec :=
  if f.posted then f
  else if f.listed.length < 8 then { f with listed := f.listed ++ [r] }
  else { f with extra := min (f.extra + 1) 255 }

/-- A walk replaced in the list of those that wait. -/
def State.setWalk (s : State) (old new : Walk) : State := { s with walks := s.walks.map fun x => if x = old then new else x }

/-- A context whose own access has faulted issues nothing more until the fault is resolved (R390). -/
def State.park (s : State) (w : Walk) : State :=
  match w.r with
  | .ctx c => if w.background then s else (s.updCtx c fun k => { k with
      parked := true, st := .waiting, wait := some .ocmiss }).yield c
  | _ => s

/-- A translation fault: the walk joins the record of its key, opens one, or waits while its table of 64 is full (R390 to
R394). -/
def State.walkFault (s : State) (w : Walk) (cause : BitVec 3) (level : BitVec 2) (entry : W64) : State :=
  let b := faultDie w.va
  let mine (f : FaultRec) : Bool := faultDie f.opener.va = b
  match s.faults.find? fun f => mine f && f.sameKey w level with
  | some f =>
    let joined (x : FaultRec) : FaultRec := if x.id = f.id then x.join w.r else x
    ({ (s.setWalk w { w with record := some f.id }) with faults := s.faults.map joined }).park w
  | none =>
    if 64 ≤ (s.faults.filter mine).length then
      let s := if w.waited then s else (s.setWalk w { w with waited := true }).bump (rg .xltStatus) 47 32 1
      s.park w
    else
      let id := s.nextFault
      let f : FaultRec := ⟨id, w, cause, level, entry, [w.r], 0, s.time (BDie.die b), false⟩
      ({ (s.setWalk w { w with record := some id }) with faults := s.faults ++ [f], nextFault := id + 1 }).park w

/-- `PAGE_WALK`: the first walk of a requester that waits in no record is made: its leaf gets A and D and its translation is
installed, or its fault opens or joins a record. A privileged requester whose table read fails stalls (R379, R390, R397). -/
def execPageWalk (r : Requester) (s : State) : Out :=
  .next <|
    match s.walks.find? fun w => w.r = r && w.record.isNone with
    | none => s
    | some w =>
      let b := walkDie r w.root
      let x := s.walkAll b w.root w.va w.acc
      let s := { s with walkCache := addEntries s.draws x.2 s.walkCache, draws := s.draws + 5 }
      match x.1 with
      | .leaf t pte old v =>
        let s := s.setAD pte old v
        ({ s with walks := s.walks.filter (· ≠ w) }.installTrans r t).unpark w
      | .fault cause level entry =>
        if cause = 5 && s.privReq r then s else s.walkFault w cause level entry

/-- The 64 bytes of a fault record (R398). -/
def FaultRec.bytes (f : FaultRec) : List W8 :=
  let w := f.opener
  let w0 := f.id.toNat + w.acc.toNat * 2 ^ 32 + f.cause.toNat * 2 ^ 34 + f.level.toNat * 2 ^ 37 + f.listed.length * 2 ^ 39 +
    (12 + (faultDie w.va).val) * 2 ^ 43 + f.extra * 2 ^ 48 + 2 ^ 60
  let w1 := w.va.toNat % 2 ^ 57 + (rootMode w.root).toNat * 2 ^ 60
  let w2 := (rootAsid w.root).toNat + rootPpn w.root * 2 ^ 16
  let entry := if f.cause = 5 then 0 else f.entry.toNat
  leBytes 8 w0 ++ leBytes 8 w1 ++ leBytes 8 w2 ++ leBytes 8 f.at_.toNat ++ leBytes 8 entry ++
    fit 16 (f.listed.flatMap fun r => leBytes 2 (Requester.code r).toNat) ++ leBytes 8 0

/-- `FAULT_RECORD_POST`: the oldest record of a base die that has not been written is written 1 µs after its opening, once the
queue has room (R392, R393). -/
def execFaultRecordPost (b : BDie) (s : State) : Out :=
  .next <|
    match s.faults.find? fun f => faultDie f.opener.va = b && !f.posted with
    | none => s
    | some f =>
      if (s.time (BDie.die b) - f.at_).toNat < 1000 || !s.eqRoom then s
      else
        let mark (x : FaultRec) : FaultRec := if x.id = f.id then { x with posted := true } else x
        ({ s with faults := s.faults.map mark }).eqRecord f.bytes

/-- A resolution that names no pending record (R397). -/
def State.resolveErr (s : State) : State := s.fset (rg .xltStatus) 56 56 1

/-- `RESOLVE_RETRY`: every requester of the record walks again (R395). -/
def execResolveRetry (id : W32) (s : State) : Out :=
  .next <|
    if !s.faults.any (·.id = id) then s.resolveErr
    else
      let free (w : Walk) : Walk := if w.record = some id then { w with record := none } else w
      { s with faults := s.faults.filter (·.id ≠ id), walks := s.walks.map free }

/-- `RESOLVE_FAIL`: every requester of the record fails: a context's own access raises `ACCESS`; a background access and an
engine's learn of it when they next ask (R395, R227, R756). -/
def execResolveFail (id : W32) (s : State) : Out :=
  .next <|
    if !s.faults.any (·.id = id) then s.resolveErr
    else
      let ws := s.walks.filter (·.record = some id)
      let own (w : Walk) : Bool := !w.background && (match w.r with | .ctx _ => true | _ => false)
      let s := { s with
        faults := s.faults.filter (·.id ≠ id)
        walks := s.walks.filter (·.record ≠ some id)
        failedWalks := s.failedWalks ++ ws.filter (!own ·) }
      (ws.filter own).foldl (fun s w => match w.r with
        | .ctx c => ((s.updCtx c fun k => { k with parked := false }).raise c .access (s.ctx c).pc w.va (id.setWidth 64))
        | _ => s) s

/-! ## Invalidation (R386 to R389) -/

/-- Whether a virtual range of an ASID matches an invalidation (R389). -/
def invMatches (cmd range : W64) (asid : W16) (global : Bool) (va size : Nat) : Bool :=
  let n := 2 ^ (min (max (bits range 62 57) 12) 57)
  let start := bits range 56 12 * 4096 / n * n
  (bits cmd 16 16 = 1 || global || asid.toNat = bits cmd 15 0) &&
    (bits cmd 17 17 = 1 || (decide (va < start + n) && decide (start < va + size)))

/-- The writes that the cores have yet to get accepted, and the contexts whose loads are under way. -/
def State.underWay (s : State) : Inval :=
  let ls := List.finRange 192
  ⟨ls.flatMap fun l => ((s.core l).sb ++ (s.core l).copyQ).map fun e => (l, e.line),
    (ls.flatMap ctxsOf).filter fun c => ((s.core c.lc).blockedBy = some c.ix && (s.core c.lc).ocMiss.isSome) ||
      (match (s.ctx c).await with | some w => w.sent | none => false)⟩

/-- An invalidation starts: every matching translation is removed from every TLB and walk cache, and with oc_flush the operand
caches are emptied (R386, R387). -/
def State.startInval (s : State) : State :=
  let cmd := s.reg (rg .xltInvCmd)
  let range := s.reg (rg .xltInvVa)
  let keep (t : Trans) : Bool := !invMatches cmd range t.asid t.global t.va.toNat t.size
  let core (x : LC × Core) : LC × Core :=
    (x.1, { x.2 with tlb := x.2.tlb.filter keep, oc := if bits cmd 18 18 = 1 then [] else x.2.oc })
  let die (x : Die × DieSt) : Die × DieSt := (x.1, { x.2 with tlb := x.2.tlb.filter keep })
  let s := { s with
    cores := s.cores.map core
    dies := s.dies.map die
    walkCache := s.walkCache.filter fun e =>
      !invMatches cmd range e.asid e.global (e.va * levelSize e.level) (levelSize e.level) }
  { (s.fset (rg .xltInvCmd) 32 32 1) with inval := some s.underWay }

/-- A write of `XLT_INV_CMD` or `XLT_INV_VA`, held while a command is in progress (R388). -/
def State.invWrite (s : State) (k : RegKind) (m v : W64) : State :=
  if s.inval.isSome then { s with invalHeld := s.invalHeld ++ [(k, m, v)] }
  else
    let s := s.regStore (rg k) m v
    if k = .xltInvCmd && (m &&& v).getLsbD 31 then s.startInval else s

/-- `INVALIDATION`: a write of `XLT_INV_CMD` with go (R386). -/
def execInvalidation (cmd : W64) (s : State) : Out :=
  .next (s.invWrite .xltInvCmd (BitVec.allOnes 64) (cmd ||| 0x80000000))

/-- `INVALIDATION_COMPLETE`: every load and write that the command waits for is done: busy clears, and the writes held behind it
are performed in order up to the next command (R386, R388). -/
def execInvalidationComplete (s : State) : Out :=
  .next <|
    match s.inval with
    | none => s
    | some x =>
      let now := s.underWay
      if x.writes.any now.writes.contains || x.loads.any now.loads.contains then s
      else
        let held := s.invalHeld
        held.foldl (fun s w => s.invWrite w.1 w.2.1 w.2.2)
          { (s.fset (rg .xltInvCmd) 32 32 0) with inval := none, invalHeld := [] }

end Sys2Proof.Machine
end

