-- ==== Sys2Proof/Machine/Tiers.lean ====
section
/-! DEFINITION. Access-counter commands (R407) and quotas (R409 to R411). -/

namespace Sys2Proof.Machine

/-! ## Counters (R406, R407) -/

/-- `COUNTER_FLUSH`: the cached counter words are written to the table (R407). -/
def execCounterFlush (s : State) : Out :=
  .next <|
    let s' := s.cntCache.foldl (fun s x =>
      let a := s.cntAddr x.1
      if (regionOf a).coherent then s.homeWrite a (leBytes 2 x.2) else s) s
    { s' with cntCache := [] }

/-- The regions whose words are not zero in the table, as memory, the memory-side cache and the stripe buffers hold it. -/
def State.countedRegions (s : State) : List Nat :=
  let base := s.cntAddr 0
  let inTable (a : Nat) : Bool := decide (base ≤ a) && decide (a < base + 0x800000)
  let ofLine (a : LAddr) : List Nat :=
    if inTable a.toNat then (List.range 64).map ((a.toNat - base) / 2 + ·) else []
  ((s.mem.filter fun c => inTable c.1).map fun c => (c.1 - base) / 2) ++
    (s.msc.flatMap fun h => h.2.flatMap fun l => ofLine l.line) ++
    (s.jahel.flatMap fun j => j.2.stripes.flatMap fun e => e.lines.flatMap fun l => ofLine l.1)

/-- A sweep of the table: every word changed where it is held (R407). -/
def State.sweep (s : State) (g : Nat → Nat) : State :=
  let s := s.countedRegions.dedup.foldl (fun s n =>
    let a := s.cntAddr n
    s.homeWrite a (leBytes 2 (g (leNat (s.homeBytes a 2))))) s
  { s with cntCache := s.cntCache.map fun x => (x.1, g x.2) }

/-- `COUNTER_HALVE` (R407). -/
def execCounterHalve (s : State) : Out := .next (s.sweep (· / 2))

/-- `COUNTER_CLEAR` (R407). -/
def execCounterClear (s : State) : Out := .next (s.sweep fun _ => 0)

/-! ## Quotas (R409 to R411) -/

/-- The charge that `TIER_CHARGE_g` holds is applied: its result, and the usage that it leaves. A usage above its field, where no
quota limits it, is a free value (R410; log entry 50). -/
def State.applyCharge (s : State) (g : Group) : State :=
  let r := rg .tierCharge g.val
  let t := s.fget r 22 21
  let n := s.fget r 20 0
  if t = 0 then s.fset r 26 25 0
  else
    let hi := 21 * t - 1
    let lo := 21 * (t - 1)
    let used := s.fget (rg .tierUsed g.val) hi lo
    let quota := s.fget (rg .tierQuota g.val) hi lo
    if s.fget r 23 23 = 1 then
      if used < n then s.fset r 26 25 3 else (s.fset (rg .tierUsed g.val) hi lo (used - n)).fset r 26 25 1
    else if quota ≠ 0x1FFFFF ∧ quota < used + n then s.fset r 26 25 2
    else if used + n < 2 ^ 21 then (s.fset (rg .tierUsed g.val) hi lo (used + n)).fset r 26 25 1
    else ((s.fset (rg .tierUsed g.val) hi lo s.freeVal.toNat).drawn).fset r 26 25 1

/-- A write of `TIER_CHARGE_g`; go applies the charge. -/
def State.chargeWrite (s : State) (g : Group) (m v : W64) : State :=
  let s := s.regStore (rg .tierCharge g.val) m v
  if (m &&& v).getLsbD 24 then s.applyCharge g else s

/-- The value that a charge or release writes. -/
def chargeWord (tier : BitVec 2) (regions : BitVec 21) (release : Bool) : W64 :=
  BitVec.ofNat 64 (regions.toNat + tier.toNat * 2 ^ 21 + (if release then 2 ^ 23 else 0) + 2 ^ 24)

/-- `TIER_CHARGE` (R410). -/
def execTierCharge (g : Group) (tier : BitVec 2) (regions : BitVec 21) (s : State) : Out :=
  .next (s.chargeWrite g (BitVec.allOnes 64) (chargeWord tier regions false))

/-- `TIER_RELEASE` (R410). -/
def execTierRelease (g : Group) (tier : BitVec 2) (regions : BitVec 21) (s : State) : Out :=
  .next (s.chargeWrite g (BitVec.allOnes 64) (chargeWord tier regions true))

end Sys2Proof.Machine
end

