-- ==== Sys2Proof/Machine/Jahel.lean ====
section
/-! DEFINITION. The Jahel stacks (R418 to R439) and the commands of the memory-side cache (R452, R455). -/

namespace Sys2Proof.Machine

/-! ## Channels -/

/-- The data channel of a T1 address, coded as fail_chan (R423, R456). -/
def dataChan (a : LAddr) : W8 := let p := t1Place a.toNat; BitVec.ofNat 8 (16 * p.2.2.1 + p.2.2.2)

/-- The group of a channel: data channels 0x00 to 0x7F, parity channels 0x80 to 0x87. -/
def chanGroup (c : W8) : Nat := if c.toNat < 0x80 then c.toNat / 16 else c.toNat - 0x80

/-- The address of the grain that a data channel of a stack holds at a position: the inverse of R423. -/
def grainAddr (j : Stack) (c : W8) (p : Nat) : Nat :=
  let q := 8 * j.val + chanGroup c
  let mid := (q ^^^ (p % 128) ^^^ (p / 2 ^ 7 % 128) ^^^ (p / 2 ^ 14 % 128) ^^^ (p / 2 ^ 21)) % 128
  let low := (c.toNat % 16) ^^^ (mid % 16) ^^^ (p % 16)
  p * 2 ^ 19 + mid * 2 ^ 12 + low * 2 ^ 8

/-- Whether a channel can not be used at a position: it has failed and, unless its rebuild has passed the position, has nothing
in its place (R435, R436). -/
def State.chanDown (s : State) (j : Stack) (c : W8) (p : Nat) : Bool :=
  let r := rg .jsRebuild j.val
  (s.stack j).failed.any (·.chan = c) && !(s.fget r 31 24 = c.toNat && s.fget r 35 32 ≠ 0xF && decide (p < s.fget r 20 0))

/-- The channels of a group that can not be used at a position. -/
def State.downIn (s : State) (j : Stack) (g p : Nat) : List W8 :=
  ((s.stack j).failed.map (·.chan)).filter fun c => chanGroup c = g && s.chanDown j c p

/-- The stripe that a rebuild is at: its group and position (R436). -/
def State.atCursor (s : State) (j : Stack) (g p : Nat) : Bool :=
  let r := rg .jsRebuild j.val
  s.fget r 35 32 ≠ 0xF && chanGroup (BitVec.ofNat 8 (s.fget r 31 24)) = g && s.fget r 20 0 = p

/-- Whether a stack takes no request: it is tripped, or its interface is below Q0 (R426, R605). -/
def State.tripped (s : State) (j : Stack) : Bool :=
  s.fget (rg .jsStatus j.val) 10 10 = 1 || s.fget (rg .unitStatus (192 + j.val)) 2 0 ≠ 0

/-- The die of a stack's interface. -/
def stackDie (j : Stack) : Die := BDie.die (Stack.bdie j)

/-- The next rebuild starts when none is in progress (R435, R436). -/
def State.nextRebuild (s : State) (j : Stack) : State :=
  let r := rg .jsRebuild j.val
  if s.fget r 35 32 ≠ 0xF then s
  else match (s.stack j).failed.find? (·.spare.isSome) with
    | none => s
    | some f => (((s.fset r 20 0 0).fset r 31 24 f.chan.toNat).fset r 35 32 (f.spare.getD 0xF)).fset (rg .jsStatus j.val) 12 12 1

/-- A channel is declared failed: its record, the lowest-numbered unused spare, a rebuild; without a spare the stack reports
degraded (R434, R435, R438). -/
def State.declareFailed (s : State) (j : Stack) (c : W8) : State :=
  let k := s.stack j
  if 0x88 ≤ c.toNat || k.failed.any (·.chan = c) then s
  else
    let map := rg .jsSpareMap j.val
    let st := rg .jsStatus j.val
    let spare := (List.range 8).find? fun i => s.fget map (8 * i + 7) (8 * i) = 0xFF && !k.failed.any (·.spare = some i)
    let seq := (s.die (stackDie j)).errSeq
    let s := s.logErr (stackDie j)
      { cls := 0x07, index := BitVec.ofNat 16 j.val, action := (if spare.isSome then 0x05 else 0x04), syndrome := c.setWidth 64 }
    let s := (s.setStack j { k with failed := k.failed ++ [⟨c, spare, seq⟩] }).bump (rg .jsErr j.val) 55 48 1
    let s := if spare.isSome then s.fset st 19 16 (s.fget st 19 16 + 1)
      else (s.fset st 11 11 1).setDegraded 2 true
    s.nextRebuild j

/-- `JS_FAIL_GO` (R434). -/
def execJsFailGo (j : Stack) (chan : W8) (s : State) : Out := .next (s.declareFailed j chan)

/-- `CHANNEL_FAULT_REPORT` (R434). -/
def execChannelFaultReport (j : Stack) (chan : W8) (s : State) : Out := .next (s.declareFailed j chan)

/-! ## Reads (R432 to R435) -/

/-- An event of a channel remembered for the limits of R434: the events of the last second are kept. -/
def remember (now : W64) (c : W8) (l : List (W8 × W64)) : List (W8 × W64) :=
  (l.filter fun x => (now - x.2).toNat < 1000000000) ++ [(c, now)]

/-- How many events of a channel lie within a time. -/
def within (now : W64) (c : W8) (ns : Nat) (l : List (W8 × W64)) : Nat :=
  (l.filter fun x => x.1 = c && decide ((now - x.2).toNat < ns)).length

/-- The limits of R434 for a channel. -/
def State.chanLimits (s : State) (j : Stack) (c : W8) : State :=
  let now := s.time (stackDie j)
  let k := s.stack j
  if 8 ≤ within now c 1000000000 k.recon || 8 ≤ within now c 1000000 k.crc then s.declareFailed j c else s

/-- A burst of the line's channel is read: read again while its CRC is wrong, reconstructed, or poisoned where a second burst of
the stripe is bad; a failed channel is always reconstructed (R432, R435). The actions of the records: log entry 56. -/
def State.burst (s : State) (a : LAddr) (o : BurstOutcome) : State :=
  let p := t1Place a.toNat
  let j := p.2.1
  let c := dataChan a
  let down := s.chanDown j c p.1
  let others := (s.downIn j p.2.2.1 p.1).any (· ≠ c)
  let now := s.time (stackDie j)
  let k := s.stack j
  let retries := if down then 0 else min o.wrong.val 2
  let failed := !down && o.wrong.val = 3
  let rec_ := down || failed || o.inverted
  let note (s : State) (act : W8) : State := s.logErr (stackDie j)
    { cls := 0x07, index := BitVec.ofNat 16 j.val, action := act, addr := mkPA s.vertex a, syndrome := c.setWidth 64
      count := BitVec.ofNat 16 retries }
  let s := s.bump (rg .jsErr j.val) 15 0 retries
  let s := if failed then s.setStack j { k with crc := remember now c k.crc } else s
  if !rec_ then (if retries = 0 then s else note s 0x09)
  else if others || o.second then
    let s := note ((s.bump (rg .jsErr j.val) 47 32 1).poisonLine a) 0x06
    if down then s else s.chanLimits j c
  else
    let s := s.bump (rg .jsErr j.val) 31 16 1
    if down then s
    else
      let k := s.stack j
      (note (s.setStack j { k with recon := remember now c k.recon }) 0x01).chanLimits j c

/-- `T1_READ`: the read burst that a home's transaction waits for; a tripped stack starts none (R426, R432). -/
def execT1Read (a : LAddr) (o : BurstOutcome) (s : State) : Out :=
  .next <|
    match (s.line a).txn with
    | none => s
    | some t =>
      if t.phase ≠ .stack || s.tripped (t1Place a.toNat).2.1 then s
      else
        let s := s.burst a o
        let l := s.line a
        let r := s.perform a t.req (!l.sharers.isEmpty || l.owner.isSome)
        r.1.setLine a { r.1.line a with txn := some ⟨t.req, r.2, s.time (homeDie a.toNat)⟩ }

/-! ## Writes, rebuild, scrub -/

/-- `STRIPE_RETIRE`: an entry without a write for 2 µs retires; it waits at a rebuild's cursor and while the stack is tripped
(R426, R429, R436). -/
def execStripeRetire (j : Stack) (ix : Fin 256) (s : State) : Out :=
  .next <|
    match (s.stack j).stripes[ix.val]? with
    | none => s
    | some e =>
      if s.tripped j || s.atCursor j e.group e.pos || (s.time (stackDie j) - e.at_).toNat < 2000 then s
      else s.retire j e

/-- The lines of the data channels of a group that can not be used at a position are poisoned (R436, R432). -/
def State.poisonStripe (s : State) (j : Stack) (g p : Nat) : State :=
  ((s.downIn j g p).filter (·.toNat < 0x80)).foldl (fun s c =>
    let a := grainAddr j c p
    ((s.poisonLine (BitVec.ofNat 44 a)).poisonLine (BitVec.ofNat 44 (a + 128))).bump (rg .jsErr j.val) 47 32 2) s

/-- The number of positions of a channel (R436). -/
def positions : Nat := 1572864

/-- `REBUILD_STEP`: the position at the cursor is written into the spare; after the last the spare permanently replaces the
channel, and the next rebuild starts (R436, R437). -/
def execRebuildStep (j : Stack) (s : State) : Out :=
  .next <|
    let r := rg .jsRebuild j.val
    let spare := s.fget r 35 32
    if spare = 0xF || s.tripped j then s
    else
      let c : W8 := BitVec.ofNat 8 (s.fget r 31 24)
      let p := s.fget r 20 0
      let g := chanGroup c
      let s := if (s.downIn j g p).any (· ≠ c) then s.poisonStripe j g p else s
      if p + 1 < positions then s.fset r 20 0 (p + 1)
      else
        let k := s.stack j
        let seq : W16 := match k.failed.find? (·.chan = c) with | some f => f.seq | none => 0
        let s := s.setStack j { k with failed := k.failed.filter (·.chan ≠ c) }
        let s := s.fset (rg .jsSpareMap j.val) (8 * spare + 7) (8 * spare) c.toNat
        let s := (((s.fset r 20 0 0).fset r 31 24 0xFF).fset r 35 32 0xF).fset (rg .jsStatus j.val) 12 12 0
        let s := s.ledger ⟨0x04, BitVec.ofNat 5 (stackDie j).val, BitVec.ofNat 16 j.val, c.setWidth 16, 2, 3,
          BitVec.ofNat 8 spare, s.flash.coldStarts, s.time (stackDie j), seq⟩
        s.nextRebuild j

/-- `PATROL_SCRUB`: every stripe of a stack is read; the bursts found bad are handled as reads are, those at a rebuild's cursor
excepted (R436, R439). -/
def execPatrolScrub (j : Stack) (bad : List (LAddr × BurstOutcome)) (s : State) : Out :=
  .next <|
    if s.tripped j || s.fget (rg .jsCtl j.val) 23 8 = 0 then s
    else
      let s := bad.foldl (fun s b =>
        let a := lineAddr b.1
        let p := t1Place a.toNat
        if regionOf a.toNat ≠ .t1 || p.2.1 ≠ j || s.atCursor j p.2.2.1 p.1 then s else s.burst a b.2) s
      s.bump (rg .jsStatus j.val) 63 32 1

/-! ## Temperature (R425, R426) -/

/-- The lower bounds of the refresh bands. -/
def bandBound : Nat → Nat | 0 => 0 | 1 => 70 | 2 => 85 | _ => 95

/-- The band after a temperature: it enters the highest whose bound is reached, and leaves a band only 3 °C below its bound. -/
def nextBand (cur t : Nat) : Nat :=
  let top (ok : Nat → Bool) : Nat := (List.range 4).foldl (fun m b => if ok b then b else m) 0
  max (top fun b => bandBound b ≤ t) (top fun b => b ≤ cur && decide (bandBound b < t + 3))

/-- `STACK_TEMPERATURE_REPORT`: the band, and the trip at 105 °C with its return below 100 °C (R425, R426). -/
def execStackTemperatureReport (j : Stack) (temp : W8) (s : State) : Out :=
  .next <|
    let r := rg .jsStatus j.val
    let t := temp.toNat
    let s := (s.fset r 7 0 t).fset r 9 8 (nextBand (s.fget r 9 8) t)
    if 105 ≤ t then s.fset r 10 10 1 else if t < 100 then s.fset r 10 10 0 else s

/-! ## The memory-side cache (R452, R455) -/

/-- The home slices of a base die. -/
def slicesOf (b : BDie) : List Slice := (List.range 16).map fun i => Fin.ofNat 64 (16 * b.val + i)

/-- The lines of a slice that satisfy a test are written back if dirty; they stay, clean. -/
def State.mscClean (s : State) (h : Slice) (p : MscLine → Bool) : State :=
  let ls := s.mscOf h
  let s := s.setMsc h (ls.map fun l => if p l then { l with dirty := false } else l)
  (ls.filter fun l => p l && l.dirty).foldl (fun s l => s.stripeWrite l.line l.data) s

/-- The lines of a slice that satisfy a test are written back if dirty, and dropped. -/
def State.mscEmpty (s : State) (h : Slice) (p : MscLine → Bool) : State :=
  let s := s.mscClean h p
  s.setMsc h ((s.mscOf h).filter (!p ·))

/-- `MSC_FLUSH` (R452). -/
def execMscFlush (b : BDie) (s : State) : Out := .next ((slicesOf b).foldl (fun s h => s.mscClean h fun _ => true) s)

/-- `MSC_INVALIDATE` (R452). -/
def execMscInvalidate (b : BDie) (s : State) : Out := .next ((slicesOf b).foldl (fun s h => s.mscEmpty h fun _ => true) s)

/-- `MSC_WAY_REPLACE`: a way in use is replaced by a spare way (24, then 25), or disabled when none remains (R455, R452). -/
def execMscWayReplace (h : Slice) (way : Fin 26) (s : State) : Out :=
  .next <|
    let r := rg .mscWays h.val
    if s.fget r way.val way.val = 0 then s
    else
      let b := Slice.bdie h
      let s := s.mscEmpty h (·.way = way.val)
      let inUse := ((List.range 26).filter fun w => s.fget r w w = 1).length
      let spare : Option Nat := if s.fget r 25 25 = 1 || decide (inUse < 24) then none
        else if s.fget r 24 24 = 1 then some 25 else some 24
      let seq := (s.die (BDie.die b)).errSeq
      let s := s.logErr (BDie.die b)
        { cls := 0x08, index := BitVec.ofNat 16 h.val, action := (if spare.isSome then 0x05 else 0x04), syndrome := BitVec.ofNat 64 way.val }
      let s := s.fset r way.val way.val 0
      let s := match spare with
        | some w => (s.fset r w w 1).bump (rg .mscStatus b.val) 21 16 1
        | none => s.setDegraded 6 true
      s.ledger ⟨0x05, BitVec.ofNat 5 (12 + b.val), BitVec.ofNat 16 h.val, BitVec.ofNat 16 way.val,
        if spare.isSome then 2 else 1, 3, BitVec.ofNat 8 (spare.getD 0), s.flash.coldStarts, s.time (BDie.die b), seq⟩

end Sys2Proof.Machine
end

