-- ==== Sys2Proof/Machine/Security.lean ====
section
/-! DEFINITION. The security engine: measurements, logs, reports, key slots (R638 to R659). The algorithms of FIPS 202, 203 and
204 and AES-256-GCM are opaque constants (log entry 3). -/

namespace Sys2Proof.Machine

/-! ## Measurements and logs (R644, R646) -/

/-- The bytes of a digest, lowest first (log entry 58). -/
def digestBytes (d : BitVec 512) : List W8 := leBytes 64 d.toNat

/-- A measurement register. -/
def State.measure (s : State) (i : Nat) : BitVec 512 := Tbl.get 0 s.sec.m i

/-- A measurement register extended with the bytes of a digest (R644). -/
def State.extend (s : State) (i : Nat) (d : List W8) : State :=
  { s with sec := { s.sec with m := Tbl.set s.sec.m i (Config.sha3 (digestBytes (s.measure i) ++ d)) } }

/-- The program log, of 256 entries (R646). -/
def State.logProgram (s : State) (d : BitVec 512) (label : W32) : State :=
  if s.sec.programs.length < 256 then { s with sec := { s.sec with programs := s.sec.programs ++ [(d, label)] } }
  else { s with sec := { s.sec with progOver := true } }

/-- The weight log, of 256 entries; a digest already there raises its count (R646). -/
def State.logWeight (s : State) (w : BitVec 512) (obj : W64) (slot : BitVec 6) : State :=
  let l := s.sec.weights
  if l.any (·.1 = w) then
    let up (x : BitVec 512 × W64 × BitVec 6 × W16) := if x.1 = w then (x.1, x.2.1, x.2.2.1, if x.2.2.2 = 0xFFFF then x.2.2.2 else x.2.2.2 + 1) else x
    { s with sec := { s.sec with weights := l.map up } }
  else if l.length < 256 then { s with sec := { s.sec with weights := l ++ [(w, obj, slot, 1)] } }
  else { s with sec := { s.sec with weightOver := true } }

/-- The screening log, of 8 entries (R646, R589). -/
def State.logScreen (s : State) (d : BitVec 512) : State :=
  if s.sec.screens.length < 8 then { s with sec := { s.sec with screens := s.sec.screens ++ [d] } }
  else { s with sec := { s.sec with screenOver := true } }

/-! ## Keys (R638, R642) -/

/-- The number of the device's identity key among the signing keys; attestation key `g` is number `g + 1`. -/
def identityKey : W64 := 0

/-- The number of the current attestation key. -/
def State.attestKey (s : State) : W64 := s.sec.attestGen + 1

/-- Whether R640 applies. -/
def State.idFail (s : State) : Bool := s.fget (rg .secStatus) 1 1 = 1

/-! ## Reports (R647, R648) -/

/-- The bytes of a report before its signature. -/
def State.reportBody (s : State) (nonce : List W8) : List W8 :=
  let q := s.sec
  let p := q.programs.length
  let w := q.weights.length
  let c := q.screens.length
  let flag (b : Bool) (n : Nat) : Nat := if b then 2 ^ n else 0
  let total := 0x8E0 + 72 * p + 80 * w + 64 * c + 4627
  leBytes 4 0x4A525054 ++ leBytes 2 1 ++
    leBytes 2 (s.fget (rg .errCheckCtl) 1 0 + flag (bits (s.regView (rg .errStatus)) 0 0 = 1) 2 + flag q.progOver 3 +
      flag q.weightOver 4 + flag q.screenOver 5) ++
    leBytes 4 total ++ leBytes 4 (q.reportCount.toNat + 1) ++ leBytes 16 Config.deviceSerial.toNat ++ fit 64 nonce ++
    leBytes 8 (s.fget (rg .secStatus) 63 32 + s.fget (rg .secStatus) 2 2 * 2 ^ 32 + s.vertex.toNat * 2 ^ 48) ++
    leBytes 8 (s.flash.coldStarts.toNat + s.fget (rg .secStatus) 31 16 * 2 ^ 32) ++
    (List.range 8).flatMap (fun i => digestBytes (s.measure i)) ++ digestBytes (s.ledDigests.getLastD 0) ++
    leBytes 8 (p + w * 2 ^ 16 + c * 2 ^ 32) ++ leBytes 8 0 ++ fit 1568 (Config.mlkemPublic q.transportGen) ++
    q.programs.flatMap (fun x => digestBytes x.1 ++ leBytes 4 x.2.toNat ++ leBytes 4 0) ++
    q.weights.flatMap (fun x => digestBytes x.1 ++ leBytes 8 x.2.1.toNat ++
      leBytes 4 (x.2.2.1.toNat + x.2.2.2.toNat * 2 ^ 16) ++ leBytes 4 0) ++
    q.screens.flatMap digestBytes

/-- A report: the state after it is signed, and its bytes (R647, R648). -/
def State.signReport (s : State) (nonce : List W8) : State × List W8 :=
  let b := s.reportBody nonce
  let kept := s.sec.reports ++ [Config.sha3 b]
  ({ s with sec := { s.sec with
      reportCount := s.sec.reportCount + 1
      reports := kept.drop (kept.length - 16) } },
    b ++ fit 4627 (Config.mldsaSign s.attestKey b))

/-! ## Key slots (R649 to R653) -/

/-- A key slot. -/
def State.keySlot (s : State) (i : Nat) : Option KeySlot := Tbl.get none s.sec.slots i

/-- A key slot written. -/
def State.setKeySlot (s : State) (i : Nat) (k : Option KeySlot) : State :=
  { s with sec := { s.sec with slots := Tbl.set s.sec.slots i k } }

/-- A blob loaded into a slot, or the result code that refuses it (R649, R650, R640). -/
def State.loadSlot (s : State) (i : Nat) (blob : List W8) : State × Nat :=
  let r := (blob.drop 0x620).take 64
  if s.idFail then (s, 0x05)
  else if (s.keySlot i).isSome then (s, 0x02)
  else if !s.sec.reports.any (fun x => digestBytes x = r) then (s, 0x03)
  else match Config.mlkemDecap s.sec.transportGen (blob.take 0x620) with
    | none => (s, 0x04)
    | some k =>
      let kw := (digestBytes (Config.sha3 (k ++ r))).take 32
      match Config.gcmOpen (BitVec.ofNat 256 (leNat kw)) 0 ((blob.drop 0x620).take 0x50) ((blob.drop 0x670).take 32)
          ((blob.drop 0x690).take 16) with
      | none => (s, 0x04)
      | some key =>
        let policy := leNat ((blob.drop 0x660).take 8)
        (s.setKeySlot i (some ⟨BitVec.ofNat 256 (leNat key), BitVec.ofNat 48 policy, policy / 2 ^ 48 % 2 = 1⟩), 0)

/-- Whether a descriptor in flight has read a slot (R653). -/
def State.slotRead (s : State) (i : Nat) : Bool :=
  s.copy.any fun e => e.2.flight.any fun d => d.key.isSome && bits (d.words.getD 4 0) 5 0 = i

/-! ## Commands (R654, R659) -/

/-- The result of a command. -/
def State.secDone (s : State) (code len : Nat) : State :=
  s.setReg (rg .secResult) (BitVec.ofNat 64 (code + len * 2 ^ 32))

/-- The bytes that a command names in memory. -/
def State.secRead (s : State) (n : Nat) : State × Except (PAddr × EngRes) (List W8) :=
  s.gather (.mgmt 0) .normal (physPieces (BitVec.ofNat 56 (s.fget (rg .secAddr) 55 0)) n)

/-- A command whose memory access has failed: it waits for a busy line, else ends with result 0x06. -/
def State.secFail (s s' : State) (x : EngRes) : State := if x = .blocked then s else s'.secDone 0x06 0

/-- The 64 bytes of the nonce registers. -/
def State.nonce (s : State) : List W8 := (List.range 8).flatMap fun i => leBytes 8 (s.reg (rg .secNonce 0 i)).toNat

/-- A value of `SEC_CMD` performed (R659). -/
def State.secPerform (s : State) (w : W64) : State :=
  let i := bits w 6 4
  let slot := bits w 13 8
  match bits w 3 0 with
  | 1 =>
    if i < 4 then s.secDone 0x01 0
    else match s.secRead 64 with
      | (s', .ok d) => (s'.extend i d).secDone 0 0
      | (s', .error x) => s.secFail s' x.2
  | 2 =>
    let n := s.fget (rg .secArg) 31 0
    if n = 0 then s.secDone 0x01 0
    else match s.secRead n with
      | (s', .ok d) => (s'.logProgram (Config.sha3 d) (BitVec.ofNat 32 (s.fget (rg .secArg) 63 32))).secDone 0 0
      | (s', .error x) => s.secFail s' x.2
  | 3 =>
    if s.idFail then s.secDone 0x05 0
    else
      let r := s.signReport s.nonce
      match r.1.scatter (.mgmt 0) .normal (physPieces (BitVec.ofNat 56 (s.fget (rg .secAddr) 55 0)) r.2.length) r.2 with
      | (s', none) => s'.secDone 0 r.2.length
      | (s', some x) => s.secFail s' x.2
  | 4 =>
    match s.secRead 1696 with
    | (s', .ok d) => let r := s'.loadSlot slot d; r.1.secDone r.2 0
    | (s', .error x) => s.secFail s' x.2
  | 5 =>
    let s := s.setKeySlot slot none
    if s.slotRead slot then { (s.fset (rg .secResult) 8 8 1) with sec := { s.sec with clearing := some slot } }
    else s.secDone 0 0
  | _ => s

/-- A write of `SEC_CMD`; one that comes while busy is held (R654). -/
def State.secCommand (s : State) (w : W64) : State :=
  if s.fget (rg .secResult) 8 8 = 1 then { s with sec := { s.sec with held := s.sec.held ++ [w] } } else s.secPerform w

/-- A descriptor has completed: a clear that waited for it ends, and the commands held behind it are performed (R653, R654). -/
def State.clearEnds (s : State) : State :=
  match s.sec.clearing with
  | none => s
  | some i =>
    if s.slotRead i then s
    else
      let held := s.sec.held
      held.foldl (fun s w => s.secCommand w)
        ({ s with sec := { s.sec with clearing := none, held := [] } }.secDone 0 0)

/-- `EXTEND_MEASUREMENT` (R644, R659). -/
def execExtendMeasurement (index : BitVec 3) (s : State) : Out :=
  .next (s.secCommand (BitVec.ofNat 64 (1 + index.toNat * 2 ^ 4)))

/-- `MEASURE_PROGRAM` (R646). -/
def execMeasureProgram (s : State) : Out := .next (s.secCommand 2)

/-- `ISSUE_REPORT` (R647). -/
def execIssueReport (s : State) : Out := .next (s.secCommand 3)

/-- `LOAD_BLOB` (R650). -/
def execLoadBlob (slot : Fin 64) (s : State) : Out := .next (s.secCommand (BitVec.ofNat 64 (4 + slot.val * 2 ^ 8)))

/-- `CLEAR_SLOT` (R653). -/
def execClearSlot (slot : Fin 64) (s : State) : Out := .next (s.secCommand (BitVec.ofNat 64 (5 + slot.val * 2 ^ 8)))

end Sys2Proof.Machine
end

