-- ==== Sys2Proof/Machine/CopyEngine.lean ====
section
/-! DEFINITION. The copy engines (R477 to R495): rings, descriptors, segments, decryption, completion. -/

namespace Sys2Proof.Machine

/-! ## Descriptors (R480 to R482) -/

section Fields
variable (d : CopyDesc)

/-- A word of the descriptor. -/
def CopyDesc.w (i : Nat) : W64 := d.words.getD i 0
/-- The operation. -/
def CopyDesc.op : Nat := bits (d.w 0) 3 0
/-- The space of the source. -/
def CopyDesc.srcSpace : Nat := bits (d.w 0) 5 4
/-- The space of the destination. -/
def CopyDesc.dstSpace : Nat := bits (d.w 0) 7 6
/-- Whether a slot is filled. -/
def CopyDesc.slotEn : Bool := (d.w 0).getLsbD 14
/-- The length in bytes. -/
def CopyDesc.len : Nat := bits (d.w 3) 39 0
/-- The size of a segment (R487). -/
def CopyDesc.seg : Nat := ((List.range 29).map fun i => 2 ^ (12 + i)).find? (fun n => d.len ≤ 64 * n) |>.getD (2 ^ 40)
/-- The number of segments. -/
def CopyDesc.segs : Nat := (d.len + d.seg - 1) / d.seg
/-- The hint that a field of two bits names (R190). -/
def hint2 (n : Nat) : Hint := match n with | 1 => .stream | 2 => .keep | 3 => .last | _ => .normal
/-- Whether every segment has ended, or a status has ended the descriptor. -/
def CopyDesc.settled : Bool :=
  d.status.isSome || (d.started && (List.range d.segs).all fun i => d.okSegs.contains i || d.badSegs.contains i)

end Fields

/-- The die of an engine. -/
def ceDie (e : CopyEng) : Die := tlbDie (.copyEngine e)

/-- The port of an engine's bus addresses. -/
def State.cePort (s : State) (e : CopyEng) : Port := Fin.ofNat 16 (s.fget (rg .ceCtl e.val) 7 4)

/-- The number of descriptors of a ring (R480). -/
def State.ringSize (s : State) (e : CopyEng) : Nat := 2 ^ (min (s.fget (rg .ceRingBase e.val) 3 0) 11 + 4)

/-- Whether a descriptor is a `BAD_DESC` by its words alone (R482). -/
def State.descWrong (s : State) (e : CopyEng) (d : CopyDesc) : Bool :=
  let mode := s.fget (rg .ceRingRoot e.val) 63 60
  bits (d.w 0) 15 15 ≠ 0 || bits (d.w 0) 63 22 ≠ 0 || bits (d.w 3) 63 40 ≠ 0 || d.w 6 ≠ 0 || bits (d.w 7) 63 16 ≠ 0 ||
    (d.op = 1 && d.w 4 ≠ 0) || (d.op = 2 && bits (d.w 4) 63 6 ≠ 0) ||
    !(d.op = 1 || d.op = 2 || d.op = 3) || d.srcSpace = 3 || d.dstSpace = 3 ||
    (decide (e.val < 32) && (d.srcSpace = 2 || d.dstSpace = 2)) ||
    (decide (32 ≤ e.val) && decide (e.val < 40) && d.srcSpace ≠ 2) || (decide (40 ≤ e.val) && d.dstSpace ≠ 2) ||
    (d.op = 2 && d.dstSpace = 2) || (((d.op ≠ 3 && d.srcSpace = 0) || d.dstSpace = 0) && mode ≠ 9 && mode ≠ 10)

/-! ## Fetching (R484, R485) -/

/-- A ring stops fetching: it has faulted, or its link has been lost (R484, R498). -/
def State.ceHalted (s : State) (e : CopyEng) : Bool := s.fget (rg .ceStatus e.val) 32 32 = 1 || (s.ce e).stopped || s.stoppedSeq

/-- The flight of an engine with the status fields that count it. -/
def State.setFlight (s : State) (e : CopyEng) (l : List CopyDesc) : State :=
  let r := rg .ceStatus e.val
  ((s.setCe e { s.ce e with flight := l }).fset r 37 35 l.length).fset r 34 34 (if l.isEmpty then 0 else 1)

/-- `DOORBELL`: fetching is allowed up to a count; a doorbell that is not ahead of the engine's next count by 1 to the ring
size, or comes to a faulted or disabled engine, is ignored (R484, R495, R499). -/
def execDoorbell (e : CopyEng) (count : W16) (s : State) : Out :=
  .next <|
    let r := rg .ceStatus e.val
    let ahead := (count - BitVec.ofNat 16 (s.fget r 15 0)).toNat
    if s.fget (rg .ceCtl e.val) 0 0 = 0 || s.fget r 32 32 = 1 || ahead = 0 || s.ringSize e < ahead then s.fset r 33 33 1
    else s.setCe e { s.ce e with limit := count }

/-- The words of the descriptor with a count; none while its line is busy. A descriptor read over PCIe, and one whose read
fails, has free words (log entries 29, 57). -/
def State.fetchWords (s : State) (e : CopyEng) (count : W16) : Option (State × List W64) :=
  let base := s.reg (rg .ceRingBase e.val)
  let a := bits base 63 12 * 4096 + 64 * (count.toNat % s.ringSize e)
  let any (s : State) : State × List W64 :=
    ({ s with draws := s.draws + 8 }, (List.range 8).map fun i => Config.freeValue (s.draws + i))
  if bits base 5 4 = 2 then some (any (s.emit (.pcieRead (s.cePort e) (BitVec.ofNat 64 a) 64)))
  else match s.gather (.copyEngine e) .normal (physPieces (BitVec.ofNat 56 a) 64) with
    | (s', .ok d) => some (s', bytesWords d)
    | (s', .error (_, x)) => if x = .blocked then none else some (any s')

/-- A descriptor as fetched: its tag is checked, and if that is right, R482. -/
def State.checkDesc (s : State) (e : CopyEng) (d : CopyDesc) : CopyDesc :=
  if bits (d.w 7) 15 0 ≠ d.count.toNat then d
  else { d with valid := true, status := if s.descWrong e d then some 0x05 else none }

/-- `DESCRIPTOR_FETCH`: the next descriptor up to the doorbell's count, with at most 4 in flight and none behind a wrong tag
(R484, R485). -/
def execDescriptorFetch (e : CopyEng) (s : State) : Out :=
  .next <|
    let k := s.ce e
    let r := rg .ceStatus e.val
    let n : W16 := BitVec.ofNat 16 (s.fget r 15 0)
    if s.ceHalted e || n = k.limit || 4 ≤ k.flight.length || k.flight.any (fun d => !d.valid && d.status.isNone) then s
    else match s.fetchWords e n with
      | none => s
      | some (s, ws) =>
        let d := s.checkDesc e ⟨n, ws, 0, s.time (ceDie e), false, false, [], [], 0, none, none, none, []⟩
        (s.setFlight e ((s.ce e).flight ++ [d])).fset r 15 0 (n + 1).toNat

/-- A descriptor of the flight replaced. -/
def State.setDesc (s : State) (e : CopyEng) (d : CopyDesc) : State :=
  s.setFlight e ((s.ce e).flight.map fun x => if x.count = d.count then d else x)

/-- `DESCRIPTOR_REFETCH`: 1 µs after a wrong tag the descriptor is fetched again; a 16th wrong refetch ends it with `STALE_CMD`
and faults the ring (R484). -/
def execDescriptorRefetch (e : CopyEng) (s : State) : Out :=
  .next <|
    match (s.ce e).flight.find? fun d => !d.valid && d.status.isNone with
    | none => s
    | some d =>
      let now := s.time (ceDie e)
      if s.ceHalted e || (now - d.at_).toNat < 1000 then s
      else match s.fetchWords e d.count with
        | none => s
        | some (s, ws) =>
          let d := s.checkDesc e { d with words := ws, refetches := d.refetches + 1, at_ := now }
          if !d.valid && 16 ≤ d.refetches then
            (s.setDesc e { d with status := some 0x04 }).fset (rg .ceStatus e.val) 32 32 1
          else s.setDesc e d

/-! ## Moving data (R487 to R494) -/

/-- What an access of an engine to a range of a space gives. -/
inductive Move where
  | ok (s : State) (d : List W8)
  | fail (s : State) (cause : W8)
  | wait (s : State)

/-- A page that no TLB holds: the engine waits for its walk, or has learnt that it failed (R479, R390, R489). -/
def State.ceMiss (s : State) (e : CopyEng) (v : W64) (acc : Acc) : Move :=
  match s.takeFailed (.copyEngine e) v with
  | some (_, s) => .fail s 0x11
  | none => .wait (s.askWalk ⟨.copyEngine e, v, acc, s.reg (rg .ceRingRoot e.val), true, none, false⟩)

/-- The pieces of a local or remote range of an engine, by its space. -/
def State.cePieces (s : State) (e : CopyEng) (space : Nat) (a : W64) (n : Nat) (acc : Acc) : Except Move (List Piece) :=
  if space = 1 then .ok (physPieces (a.setWidth 56) n)
  else match s.virtPieces (.copyEngine e) (s.reg (rg .ceRingRoot e.val)) a n acc with
    | .ok ps => .ok ps
    | .error v => .error (s.ceMiss e v acc)

/-- A read of an engine. A completer on PCIe answers with free bytes, or with an unsupported request, as a free value says
(log entry 29). -/
def State.ceRead (s : State) (e : CopyEng) (space : Nat) (a : W64) (n : Nat) (h : Hint) : Move :=
  if space = 2 then
    let s' := s.emit (.pcieRead (s.cePort e) a n)
    if s.freeVal.getLsbD 0 then .fail s'.drawn 0x15
    else .ok { s' with draws := s.draws + 1 + (n + 7) / 8 }
      ((wordsBytes ((List.range ((n + 7) / 8)).map fun i => Config.freeValue (s.draws + 1 + i))).take n)
  else match s.cePieces e space a n 0 with
    | .error m => m
    | .ok ps => match s.gather (.copyEngine e) h ps with
      | (s', .ok d) => .ok s' d
      | (s', .error (_, x)) => match x.cause with
        | some c => .fail s' c
        | none => .wait s

/-- A write of an engine. -/
def State.ceWrite (s : State) (e : CopyEng) (space : Nat) (a : W64) (bs : List W8) (h : Hint) : Move :=
  if space = 2 then .ok (s.emit (.pcieWrite (s.cePort e) a bs)) []
  else match s.cePieces e space a bs.length 1 with
    | .error m => m
    | .ok ps => match s.scatter (.copyEngine e) h ps bs with
      | (s', none) => .ok s' []
      | (s', some (_, x)) => match x.cause with
        | some c => .fail s' c
        | none => .wait s

/-- The segments that the bytes [o, o + n) of a descriptor touch. -/
def CopyDesc.touched (d : CopyDesc) (o n : Nat) : List Nat :=
  (List.range d.segs).filter fun i => decide (i * d.seg < o + n) && decide (o < (i + 1) * d.seg)

/-- Segments that have failed with a cause; the first cause is kept. -/
def CopyDesc.failSegs (d : CopyDesc) (is : List Nat) (cause : W8) : CopyDesc :=
  { d with
    badSegs := (d.badSegs ++ is).dedup
    okSegs := d.okSegs.filter (!is.contains ·)
    cause := if d.badSegs.isEmpty then cause else d.cause }

/-- Segments that have succeeded, but for those that have failed. -/
def CopyDesc.okSegsAdd (d : CopyDesc) (is : List Nat) : CopyDesc :=
  { d with okSegs := d.okSegs ++ is.filter fun i => !d.okSegs.contains i && !d.badSegs.contains i }

/-- The next segment to move, copied or filled. -/
def State.moveSegment (s : State) (e : CopyEng) (d : CopyDesc) (i : Nat) : State :=
  let o := i * d.seg
  let n := min d.seg (d.len - o)
  let write (s : State) (bs : List W8) : State :=
    match s.ceWrite e d.dstSpace (d.w 2 + BitVec.ofNat 64 o) bs (hint2 (bits (d.w 0) 11 10)) with
    | .ok s _ => s.setDesc e (d.okSegsAdd [i])
    | .fail s c => s.setDesc e (d.failSegs [i] c)
    | .wait s => s
  if d.op = 3 then write s ((List.range n).map fun j => (leBytes 8 (d.w 4).toNat).getD (j % 8) 0)
  else match s.ceRead e d.srcSpace (d.w 1 + BitVec.ofNat 64 o) n (hint2 (bits (d.w 0) 9 8)) with
    | .ok s' bs =>
      match s'.ceWrite e d.dstSpace (d.w 2 + BitVec.ofNat 64 o) bs (hint2 (bits (d.w 0) 11 10)) with
      | .ok s'' _ => s''.setDesc e (d.okSegsAdd [i])
      | .fail s'' c => s''.setDesc e (d.failSegs [i] c)
      | .wait s'' => { s with walks := s''.walks }
    | .fail s' c => s'.setDesc e (d.failSegs [i] c)
    | .wait s' => s'

/-- One chunk decrypted: the state and descriptor after it; none where the engine waits (R493, R494). -/
def State.moveChunk (s : State) (e : CopyEng) (d : CopyDesc) (key : BitVec 256) (k : Nat) : Except State (State × CopyDesc) :=
  let o := 65536 * k
  let n := min 65536 (d.len - o)
  let is := d.touched o n
  match s.ceRead e d.srcSpace (d.w 1 + BitVec.ofNat 64 (k * 65552)) (n + 16) (hint2 (bits (d.w 0) 9 8)) with
  | .wait s => .error s
  | .fail s c => .ok (s, d.failSegs is c)
  | .ok s' bs =>
    let nonce : BitVec 96 := BitVec.ofNat 96 ((d.w 5).toNat * 2 ^ 32 + k % 2 ^ 32)
    let tag := bs.drop n
    let opened := Config.gcmOpen key nonce [] (bs.take n) tag
    let d := { d with tags := d.tags ++ tag }
    match s'.ceWrite e d.dstSpace (d.w 2 + BitVec.ofNat 64 o) (fit n (opened.getD [])) (hint2 (bits (d.w 0) 11 10)) with
    | .wait s'' => .error { s with walks := s''.walks }
    | .fail s'' c => .ok (s'', d.failSegs is (if opened.isNone then 0x14 else c))
    | .ok s'' _ => .ok (s'', if opened.isNone then d.failSegs is 0x14 else d)

/-- The next segments to decrypt: those of the chunks that the next segment meets, 65,536 bytes or one segment. -/
def State.decryptSegment (s : State) (e : CopyEng) (d : CopyDesc) (i : Nat) : State :=
  match d.key with
  | none => s.setDesc e (d.failSegs (List.range d.segs) 0x17)
  | some key =>
    let unit := max d.seg 65536
    let o := i * d.seg / unit * unit
    let n := min unit (d.len - o)
    let chunks := (List.range ((n + 65535) / 65536)).map (o / 65536 + ·)
    let r := chunks.foldl (fun (acc : Except State (State × CopyDesc)) k => match acc with
      | .ok x => x.1.moveChunk e x.2 key k
      | .error s => .error s) (.ok (s, d))
    match r with
    | .ok x => x.1.setDesc e (x.2.okSegsAdd (d.touched o n))
    | .error s' => { s with walks := s'.walks, failedWalks := s'.failedWalks }

/-- What starting a descriptor finds about its destination: the local window that holds all of it, whether any of it lies on
another vertex, and whether all of it lies in T1 or a window; none where a page needs a walk. -/
def State.destOf (s : State) (e : CopyEng) (d : CopyDesc) : Except Move (Option Nat × Bool × Bool) :=
  if d.dstSpace = 2 then .ok (none, false, false)
  else match s.cePieces e d.dstSpace (d.w 2) d.len 1 with
    | .error m => .error m
    | .ok ps =>
      let far := ps.any fun p => !s.isLocal p.1
      let reg (p : Piece) : Region := regionOf (PAddr.loc p.1).toNat
      let win (p : Piece) : Nat := (windowOf (PAddr.loc p.1).toNat).1
      let inside (p : Piece) : Bool := reg p = .window && decide ((windowOf (PAddr.loc p.1).toNat).2 < 0x600000)
      let one := match ps with
        | [] => none
        | p :: _ => if !far && ps.all fun x => inside x && win x = win p then some (win p) else none
      .ok (one, far, !far && ps.all fun p => reg p = .t1 || reg p = .window)

/-- A descriptor starts: R482 for its destination, its slot becomes `FILLING` once it is not, and op 0x2 reads its key (R482,
R491, R651). A step may find that it waits. -/
def State.startDesc (s : State) (e : CopyEng) (d : CopyDesc) : State :=
  let go (s : State) (d : CopyDesc) : State := s.setDesc e { d with started := true }
  if d.op ≠ 2 && !d.slotEn then go s d
  else match s.destOf e d with
    | .error (.wait s) => s
    | .error (.fail s c) => go s (d.failSegs (List.range d.segs) c)
    | .error (.ok s _) => s
    | .ok (window, far, near) =>
      if (d.slotEn && window.isNone) || (d.op = 2 && far) then s.setDesc e { d with status := some 0x05 }
      else
        let d := if d.op ≠ 2 then d else
          let k := s.keySlot (bits (d.w 4) 5 0)
          { d with key := k.bind fun k => if k.engines.getLsbD e.val && (!k.t1Only || near) then some k.key else none }
        if !d.slotEn then go s d
        else
          let c : Cx := ⟨Fin.ofNat 192 (window.getD 0), Fin.ofNat 4 (bits (d.w 0) 21 20)⟩
          let slot : BitVec 4 := (d.w 0).extractLsb' 16 4
          let k := s.ctx c
          if (k.slot slot).st = .filling then s
          else match k.stream with
            | none => go s d
            | some id => go (s.updCtx c fun k => k.setSlot slot { k.slot slot with st := .filling, status := 0 })
                { d with fill := some (c.lc, id, slot) }

/-- A command on the descriptor with a count: it starts, then its next segment moves. With the fence bit it starts only as the
oldest in flight (R481, R485). Several commands move one descriptor (log entry 59). -/
def State.copyStep (s : State) (e : CopyEng) (count : W16) (op : Nat) (move : State → CopyDesc → Nat → State) : State :=
  match (s.ce e).flight.find? (·.count = count) with
  | none => s
  | some d =>
    if d.op ≠ op || !d.valid || d.status.isSome then s
    else if !d.started then
      if (d.w 0).getLsbD 12 && ((s.ce e).flight.head?.map (·.count)) ≠ some count then s else s.startDesc e d
    else match (List.range d.segs).find? fun i => !d.okSegs.contains i && !d.badSegs.contains i with
      | none => s
      | some i => move s d i

/-- `COPY` (R487). -/
def execCopy (e : CopyEng) (count : W16) (s : State) : Out :=
  .next (s.copyStep e count 1 fun s d i => s.moveSegment e d i)

/-- `FILL_PATTERN` (R481). -/
def execFillPattern (e : CopyEng) (count : W16) (s : State) : Out :=
  .next (s.copyStep e count 3 fun s d i => s.moveSegment e d i)

/-- `COPY_AND_DECRYPT` (R493, R494). -/
def execCopyAndDecrypt (e : CopyEng) (count : W16) (s : State) : Out :=
  .next (s.copyStep e count 2 fun s d i => s.decryptSegment e d i)

/-- `PCIE_COMPLETION_TIMEOUT`: a segment read over PCIe gets no completion and fails with cause 0x16 (R489). -/
def execPcieCompletionTimeout (e : CopyEng) (count : W16) (seg : Fin 64) (s : State) : Out :=
  .next <|
    match (s.ce e).flight.find? (·.count = count) with
    | none => s
    | some d =>
      if d.srcSpace ≠ 2 || d.op = 3 || !d.started || d.status.isSome || d.segs ≤ seg.val || d.okSegs.contains seg.val ||
          d.badSegs.contains seg.val then s
      else s.setDesc e (d.failSegs [seg.val] 0x16)

/-! ## Completion (R488 to R491) -/

/-- The status of a descriptor that has ended; where it has no segment, the manual's words fit `DONE` and `FAILED` alike and a
free value decides (R489; log entry 60). -/
def State.descStatus (s : State) (d : CopyDesc) : W8 :=
  match d.status with
  | some x => x
  | none =>
    if d.segs = 0 then (if s.freeVal.getLsbD 0 then 0 else 2)
    else if d.badSegs.isEmpty then 0 else if d.okSegs.isEmpty then 2 else 1

/-- The 32 bytes of a completion record (R488). -/
def CopyDesc.record (d : CopyDesc) (st : W8) : List W8 :=
  let mask := d.okSegs.foldl (fun m i => m + 2 ^ i) 0
  let size (i : Nat) : Nat := min d.seg (d.len - i * d.seg)
  let first := (List.range d.segs).find? fun i => !d.okSegs.contains i
  let whole : Bool := st = 0x05 || st = 0x04
  leBytes 8 (st.toNat + d.cause.toNat * 2 ^ 8 + bits (d.w 7) 15 0 * 2 ^ 16 + d.refetches * 2 ^ 32) ++
    leBytes 8 (if whole then 0 else mask) ++
    leBytes 8 (if whole then 0 else match first with | some i => i * d.seg | none => 2 ^ 64 - 1) ++
    leBytes 8 (if whole then 0 else (d.okSegs.map size).foldl (· + ·) 0)

/-- A descriptor completes: its record, the count, the interrupt, its slot and its entry in the weight log (R488, R491, R646,
R653). -/
def State.complete (s : State) (e : CopyEng) (d : CopyDesc) : State :=
  let st := s.descStatus d
  let s := if d.status.isNone && d.segs = 0 then s.drawn else s
  let r := rg .ceStatus e.val
  let cq := s.reg (rg .ceCqBase e.val)
  let a := bits cq 63 12 * 4096 + 32 * (d.count.toNat % s.ringSize e)
  let msi := s.reg (rg .ceMsiAddr e.val)
  let data : W32 := BitVec.ofNat 32 (s.fget (rg .ceCtl e.val) 63 32)
  let bus : Bool := bits cq 5 4 = 2
  let s := if bus then s.emit (.pcieWrite (s.cePort e) (BitVec.ofNat 64 a) (d.record st))
    else s.physWrite (BitVec.ofNat 56 a) (d.record st)
  let s := (s.setFlight e ((s.ce e).flight.filter (·.count ≠ d.count))).fset r 31 16 (d.count + 1).toNat
  let s := if !(d.w 0).getLsbD 13 || msi = 0 then s
    else if bus then s.emit (.pcieWrite (s.cePort e) msi (leBytes 4 data.toNat)) else s.msi msi data
  let s := match d.fill with
    | some (l, id, slot) => s.extFillEnd l id slot
        (if st = 0 then 0 else if st.toNat ≤ 2 then 0x80 + d.cause else 0xC0 + st)
    | none => s
  let s := if d.op = 2 && st = 0 then
      s.logWeight (Config.sha3 (leBytes 8 (d.w 5).toNat ++ leBytes 8 d.len ++ d.tags)) (d.w 5) ((d.w 4).setWidth 6)
    else s
  s.clearEnds

/-- `DESCRIPTOR_COMPLETE`: the oldest descriptor in flight, once every write of it has been accepted or has failed (R485,
R488). -/
def execDescriptorComplete (e : CopyEng) (s : State) : Out :=
  .next <|
    match (s.ce e).flight with
    | d :: _ => if d.settled then s.complete e d else s
    | [] => s

/-- The descriptors in flight all end with a status, and complete in count order (R495, R496). -/
def State.endAll (s : State) (e : CopyEng) (st : W8) : State :=
  (s.ce e).flight.foldl (fun s d => s.complete e (if d.status.isSome then d else { d with status := some st })) s

/-- `RING_RESET`: every descriptor in flight completes with `ABORTED`; the counts start anew (R495, R499). -/
def execRingReset (e : CopyEng) (s : State) : Out :=
  .next <|
    let s := (s.endAll e 0x06).dropWalks (.copyEngine e)
    let start := s.fget (rg .ceCtl e.val) 31 16
    let r := rg .ceStatus e.val
    (((s.fset r 15 0 start).fset r 31 16 start).fset r 32 32 0).setCe e
      { s.ce e with limit := BitVec.ofNat 16 start, stopped := false }

end Sys2Proof.Machine
end

