-- ==== Sys2Proof/Machine/HostDie.lean ====
section
/-! DEFINITION. The host die's own events: the DDR patrol (R465), the failure of a hart (R458, R461), flushes after a host reset
(R496, R497), the loss of an expander, and the endpoint link (R496, R498). -/

namespace Sys2Proof.Machine

/-- The DDR channel of a T2 address (R464). -/
def State.ddrChannel (s : State) (a : LAddr) : Nat :=
  let n := s.host.ddrChannels.length
  if n = 0 then 0 else s.host.ddrChannels.getD (a.toNat / 1024 % n) 0

/-- One line that the patrol finds bad: corrected, or written with the poison code (R465). The ECC syndrome is a free value. -/
def State.ddrBad (s : State) (a : LAddr) (uncorrectable : Bool) : State :=
  let ln : LAddr := BitVec.ofNat 44 (lineOf a.toNat)
  if regionOf a.toNat ≠ .t2 || (s.tierStatus a.toNat).isSome then s
  else
    let s := if uncorrectable then s.poisonLine ln else s
    (s.logErr hd { cls := 0x09
                   index := BitVec.ofNat 16 (s.ddrChannel a)
                   action := if uncorrectable then 0x06 else 0x01
                   addr := mkPA s.vertex ln
                   syndrome := s.freeVal }).drawn

/-- `DDR_PATROL_SCRUB`: every line of T2 is read; the lines named are the ones that need correction or hold an uncorrectable
error (R465). -/
def execDdrPatrolScrub (bad : List (LAddr × Bool)) (s : State) : Out :=
  .next <|
    let s := bad.foldl (fun s x => s.ddrBad x.1 x.2) s
    { s with host := { s.host with ddrScrubs := s.host.ddrScrubs + 1 } }

/-- The state of a hart. -/
def State.hart (s : State) (h : HartIx) : HartSt := Tbl.get .unavailable s.host.harts h.val

/-- The private caches of harts give back their lines: dirty ones wait for the flush, clean ones are dropped (R496). -/
def State.startFlush (s : State) (p : HartIx → Bool) : State :=
  let isHart (r : Requester) : Bool := match r with | .hart h => p h | _ => false
  let owned := (s.lines.filter fun x => x.2.owner.any isHart).map (·.1)
  { s with
    lines := s.lines.map fun x => (x.1, { x.2 with sharers := x.2.sharers.filter (!isHart ·) })
    host := { s.host with flushing := (s.host.flushing ++ owned).dedup, flushAt := s.time hd } }

/-- `HART_UNCORRECTABLE_ERROR`: the hart stops, its caches are flushed, the record is written, and the lowest-numbered spare
takes the hart ID in the stopped state; without a spare the ID stays stopped and the package reports degraded (R461). -/
def execHartUncorrectableError (h : HartIx) (inCache : Bool) (s : State) : Out :=
  .next <|
    if s.hart h ≠ .running then s
    else
      let s := s.startFlush (· = h)
      let s := s.logErr hd { cls := 0x0C
                             index := BitVec.ofNat 16 (Tbl.get 0 s.host.phys h.val)
                             action := if s.host.spares.isEmpty then 0x04 else 0x03
                             requester := Requester.code (.hart h)
                             syndrome := if inCache then 2 else 1 }
      let s := { s with host := { s.host with harts := Tbl.set s.host.harts h.val .stopped } }
      match s.host.spares with
      | [] => s.setDegraded 5 true
      | p :: t =>
        ({ s with host := { s.host with phys := Tbl.set s.host.phys h.val p, spares := t } }).fset (rg .errSpares) 27 24
          (min t.length 8)

/-- `HOST_FLUSH_TIMEOUT`: 1 ms after a flush began, the lines that have not been given back are poisoned at their homes
(R496). -/
def execHostFlushTimeout (s : State) : Out :=
  .next <|
    if s.host.flushing.isEmpty || (s.time hd - s.host.flushAt).toNat < 1000000 then s
    else
      let s := s.host.flushing.foldl (fun s a => (s.poisonLine a).setLine a { s.line a with owner := none }) s
      { s with host := { s.host with flushing := [] } }

/-- `EXPANDER_LINK_LOST`: requests to T3 on that link carry `LINK_DOWN` from now on (R496, R413). -/
def execExpanderLinkLost (p : Port) (s : State) : Out :=
  .next { s with host := { s.host with lostPorts := (s.host.lostPorts ++ [p]).dedup } }

/-- The port of the quad whose role strap makes it an endpoint (R468, R469). -/
def State.epPort (s : State) : Option Port :=
  (([0, 1, 2, 3] : List Nat).find? fun q => s.fget (rg .bootStraps) (8 + q) (8 + q) = 1).map fun q => Fin.ofNat 16 (4 * q)

/-- `EP_LINK_RETRAIN`: the endpoint link is back within 2 ms. What was sent meanwhile was held and goes on in the same order, so
nothing but the link's state changes (R496). -/
def execEpLinkRetrain (s : State) : Out :=
  .next <| if s.epPort.isNone || !s.host.epReady then s else { s with host := { s.host with epUp := true } }

/-- The endpoint link is lost: the engines of its port stop, and their descriptors in flight end with `LINK_LOST`; their rings
must be reset before they run again (R496, R498). -/
def State.epLost (s : State) : State :=
  match s.epPort with
  | none => s
  | some p =>
    let s := { s with host := { s.host with epUp := false } }
    ((List.finRange 48).filter fun e => decide (32 ≤ e.val) && decide (s.cePort e = p)).foldl (fun s e =>
      let s := (s.endAll e 0x03).dropWalks (.copyEngine e)
      s.setCe e { s.ce e with stopped := true }) s

/-- `EP_LINK_DOWN` (R496, R498). -/
def execEpLinkDown (s : State) : Out := .next s.epLost

/-- `PERST_N_ASSERT`: on an endpoint quad its port's link and function are reset; with none it is ignored (R667). -/
def execPerstNAssert (s : State) : Out :=
  .next <|
    let s := { s with pins := { s.pins with perst := true } }
    if s.epPort.isNone then s else ({ s with host := { s.host with epReady := false } }).epLost

/-- `PERST_N_RELEASE`: the endpoint port is ready for link training (R739). -/
def execPerstNRelease (s : State) : Out :=
  .next <|
    let s := { s with pins := { s.pins with perst := false } }
    if s.epPort.isNone then s else { s with host := { s.host with epReady := true } }

end Sys2Proof.Machine
end

