-- ==== Sys2Proof/Machine/Facet.lean ====
section
/-! DEFINITION. Facet links: flits (R501), lanes (R502, R503), laser feeds (R504, R505), training (R511), routes and detours (R513
to R516), the hop of a message over a link (R518 to R521); and Chord connections (R541 to R547). -/

namespace Sys2Proof.Machine

/-- The base die of a link (R548). -/
def Link.die (k : Link) : Die := BDie.die ⟨k.val / 12, by omega⟩

/-! ## Routes (R513 to R516) -/

/-- The peers of a dimension: every other coordinate. -/
def State.peersOf (s : State) (d : Nat) : List Nat :=
  (List.range (s.dimSize d)).filter (· ≠ coord s.vertex d)

/-- The coordinate of the spare partner of a dimension (R510). -/
def State.sparePartner (s : State) (d : Nat) : Nat := coord s.vertex d ^^^ (s.dimSize d / 2)

/-- The detour entry of a peer's coordinate. -/
def State.via (s : State) (d c : Nat) : Nat := s.fget (rg .fctDetour 0 d) (4 * c + 3) (4 * c)

/-- The detour of one peer after a change of link state: a peer that has lost its last good link gets the spare partner, one
that is directly reachable gets itself; an intermediate that firmware has named stays while it is needed (R513). -/
def State.routePeer (s : State) (d c : Nat) : State :=
  let peer := withCoord s.vertex d c
  if s.direct peer then s.fset (rg .fctDetour 0 d) (4 * c + 3) (4 * c) c
  else if s.via d c ≠ c then s
  else s.fset (rg .fctDetour 0 d) (4 * c + 3) (4 * c) (s.sparePartner d)

/-- Whether a dimension's spare link carries a detour. -/
def State.spareBusy (s : State) (d : Nat) : Bool :=
  (s.peersOf d).any fun c => s.via d c ≠ c && s.via d c = s.sparePartner d

/-- The routes after a change of lane or link state, with the summary in `ERR_STATUS` and `ERR_SPARES` (R516, R598). -/
def State.routes (s : State) : State :=
  let dims := ([0, 1, 2] : List Nat).filter fun d => decide (2 ≤ s.dimSize d)
  let s := dims.foldl (fun s d => (s.peersOf d).foldl (fun s c => s.routePeer d c) s) s
  let short := dims.any fun d => (s.peersOf d).any fun c => !s.direct (withCoord s.vertex d c)
  let s := s.setDegraded 4 short
  ([0, 1, 2] : List Nat).foldl (fun s d =>
    s.fset (rg .errSpares) (28 + d) (28 + d) (if d ∈ dims && !s.spareBusy d then 1 else 0)) s

/-- `ROUTE_UPDATE` (R516; a change of state has applied its routes at once, within the 20 µs). -/
def execRouteUpdate (s : State) : Out := .next s.routes

/-- Whether a shape breaks R506, or the vertex lies outside it. -/
def State.shapeBad (s : State) : Bool :=
  let l (d : Nat) : Nat := s.fget (rg .fctShape) (3 * d + 2) (3 * d)
  decide (4 < l 0) || decide (l 0 < l 1) || decide (l 1 < l 2) || !s.populated s.vertex

/-- The status of every link after the shape or the vertex has been loaded: its dimension of use, or dark (R508 to R511). -/
def State.shapeApply (s : State) : State :=
  let bad := s.shapeBad
  let s := s.fset (rg .fctShape) 24 24 (if bad then 1 else 0)
  allLinks.foldl (fun s k =>
    let r := rg .linkStatus k.val
    match if bad then none else s.linkPeer k with
    | some (d, _) => (s.fset r 5 5 0).fset r 7 6 d
    | none => (s.fset r 5 5 1).fset r 7 6 3) s

/-! ## Flits (R501) -/

/-- A received flit of a go-back-N link: the next number expected, and the first number discarded. A flit out of order is
discarded. The third component tells whether a resend is asked for. -/
def goBack (expect : W32) (discard : Option W32) (seq : W32) (ok : Bool) : W32 × Option W32 × Bool :=
  if seq ≠ expect then (expect, discard, false)
  else if ok then (expect + 1, none, false)
  else (expect, some seq, true)

/-- `FLIT_RECEIVE` (R501). A link that carries no flits receives none. -/
def execFlitReceive (k : Link) (seq : W32) (ok : Bool) (s : State) : Out :=
  .next <|
    if !s.linkGood k then s
    else
      let l := s.link k
      let g := goBack l.expect l.discard seq ok
      let s := s.setLink k { l with expect := g.1, discard := g.2.1 }
      if g.2.2 then s.emit (.linkResend k seq) else s

/-- `RESEND_REQUEST`: the sender sends again from the first discarded flit; the resend is counted (R501). -/
def execResendRequest (k : Link) (seq : W32) (s : State) : Out :=
  .next <|
    if !s.linkGood k then s
    else (s.bump (rg .linkErr k.val) 15 0 1).emit (.flitsFrom k seq)

/-! ## Lanes (R502, R503) -/

/-- The error record of a change of lane or link state (R503). The codes of the cause byte are not in the manual: a free value.
`act` is 0x05 where a link has failed and a detour or the spare takes its traffic (log entry 56). -/
def State.linkRecord (s : State) (k : Link) (lanes : Nat) (act : W8) (cw : Nat) : State :=
  (s.logErr (Link.die k) { cls := 0x0B
                           index := BitVec.ofNat 16 k.val
                           action := act
                           count := BitVec.ofNat 16 (min cw 65535)
                           syndrome := BitVec.ofNat 64 (lanes + s.freeVal.toNat % 256 * 2 ^ 8) }).drawn

/-- The lanes of a link become those given: `failed` follows, the change is recorded, and the routes follow (R503, R516). -/
def State.setLanes (s : State) (k : Link) (up : Nat) (cw : Nat) : State :=
  let r := rg .linkStatus k.val
  let old := s.fget r 1 0
  if old = up then s
  else
    let s := (s.fset r 1 0 up).fset r 2 2 (if up = 0 ∨ s.fget r 4 4 = 1 then 1 else 0)
    (s.linkRecord k (old ^^^ up) (if up = 0 then 0x05 else 0x00) cw).routes

/-- A lane is declared failed (R502): it leaves service, or its probation. -/
def State.laneFailed (s : State) (k : Link) (l : Lane) (cw : Nat) : State :=
  let up := s.fget (rg .linkStatus k.val) 1 0
  let st := s.link k
  let known : Bool := up / 2 ^ l.val % 2 = 1 || st.probation.any (·.1 = l)
  if !known then s
  else
    let s := (s.setLink k { st with probation := st.probation.filter (·.1 ≠ l) }).bump (rg .linkErr k.val) 55 48 1
    s.setLanes k (up &&& (3 ^^^ 2 ^ l.val)) cw

/-- `LANE_SIGNAL_LOSS` (R502). -/
def execLaneSignalLoss (k : Link) (l : Lane) (s : State) : Out := .next (s.laneFailed k l 0)

/-- `LANE_ERROR_WINDOW`: more than 64 uncorrectable codewords in the second, or a symbol error ratio above 2 × 10^-4, fails the
lane (R502). -/
def execLaneErrorWindow (k : Link) (l : Lane) (uncorr symErr symTotal : Nat) (s : State) : Out :=
  .next <|
    let s := s.bump (rg .linkErr k.val) 31 16 uncorr
    if 64 < uncorr ∨ symTotal < symErr * 5000 then s.laneFailed k l uncorr else s

/-- Failed lanes that have trained begin to run for 1 s without an error (R502). -/
def State.trainLanes (s : State) (k : Link) (trained : Nat) : State :=
  let up := s.fget (rg .linkStatus k.val) 1 0
  let st := s.link k
  let now := s.time (Link.die k)
  let new := (List.finRange 2).filter fun l =>
    decide (trained / 2 ^ l.val % 2 = 1) && decide (up / 2 ^ l.val % 2 = 0) && !st.probation.any (·.1 = l)
  if s.fget (rg .linkCtl k.val) 0 0 = 0 || s.fget (rg .linkStatus k.val) 5 5 = 1 then s
  else s.setLink k { st with probation := st.probation ++ new.map fun l => (l, now) }

/-- `LANE_RETRAIN_ATTEMPT`: every 60 s (R502). -/
def execLaneRetrainAttempt (k : Link) (l : Lane) (trained : Bool) (s : State) : Out :=
  .next (s.trainLanes k (if trained then 2 ^ l.val else 0))

/-- `RETRAIN`: every failed lane now (R502, R548). -/
def execRetrain (k : Link) (trained : BitVec 2) (s : State) : Out := .next (s.trainLanes k trained.toNat)

/-- `LANE_RETURN`: a lane that has run for 1 s without an error returns to service (R502). -/
def execLaneReturn (k : Link) (l : Lane) (s : State) : Out :=
  .next <|
    let st := s.link k
    match st.probation.find? (·.1 = l) with
    | none => s
    | some p =>
      if (s.time (Link.die k) - p.2).toNat < 1000000000 then s
      else
        (s.setLink k { st with probation := st.probation.filter (·.1 ≠ l) }).setLanes k
          (s.fget (rg .linkStatus k.val) 1 0 ||| 2 ^ l.val) 0

/-- The lanes named in a mask are declared failed (R502). -/
def State.failLanes (s : State) (k : Link) (m : Nat) : State :=
  (List.finRange 2).foldl (fun s l => if m / 2 ^ l.val % 2 = 1 then s.laneFailed k l 0 else s) s

/-- `LANE_FAIL` (R502). -/
def execLaneFail (k : Link) (lanes : BitVec 2) (s : State) : Out := .next (s.failLanes k lanes.toNat)

/-! ## Laser feeds (R504, R505) -/

/-- Every transmit direction switches to reach mode or to full mode; a link that changes carries no flits until its switch is
complete (R505). -/
def State.switchMode (s : State) (reach : Bool) : State :=
  let v := if reach then 1 else 0
  allLinks.foldl (fun s k =>
    if s.fget (rg .linkCtl k.val) 1 1 = v then s
    else (s.fset (rg .linkCtl k.val) 1 1 v).setLink k { s.link k with switching := true }) s

/-- The mode that the feeds call for: full while every feed is within rating and no module is out (R504, R505). -/
def State.laserMode (s : State) : State :=
  s.switchMode (!(s.laserA = 0xFF && s.laserB = 0xFF && s.laserOut = 0))

/-- A feed of a fiber-array unit falls below its rating, or is back. -/
def State.setFeed (s : State) (unit : Fin 8) (moduleB good : Bool) : State :=
  let bit : BitVec 8 := BitVec.ofNat 8 (2 ^ unit.val)
  let g (w : BitVec 8) : BitVec 8 := if good then w ||| bit else w &&& ~~~bit
  if moduleB then { s with laserB := g s.laserB } else { s with laserA := g s.laserA }

/-- `LASER_FEED_LOW` (R505). -/
def execLaserFeedLow (unit : Fin 8) (moduleB : Bool) (s : State) : Out := .next (s.setFeed unit moduleB false).laserMode

/-- `LASER_FEED_RESTORED` (R505). -/
def execLaserFeedRestored (unit : Fin 8) (moduleB : Bool) (s : State) : Out :=
  .next (s.setFeed unit moduleB true).laserMode

/-- `MODE_SWITCH_COMPLETE`: the link carries flits again (R505). -/
def execModeSwitchComplete (k : Link) (s : State) : Out := .next (s.setLink k { s.link k with switching := false })

/-! ## Training (R511) -/

/-- `LINK_TRAINING_COMPLETE`: the far end reports its vertex and link; a far end other than the one of R509 or R510 makes the link
miscabled, and it is treated as failed. A dark or disabled link does not train. -/
def execLinkTrainingComplete (k : Link) (lanes : BitVec 2) (peer : Vertex) (farLink : Nat) (reachRx : Bool) (s : State) : Out :=
  .next <|
    let r := rg .linkStatus k.val
    if s.fget (rg .linkCtl k.val) 0 0 = 0 || s.fget r 5 5 = 1 then s
    else match s.linkPeer k with
      | none => s
      | some (_, v) =>
        let mis : Bool := v ≠ peer || farLink ≠ k.val
        let s := ((s.fset r 3 3 (if reachRx then 1 else 0)).fset r 4 4 (if mis then 1 else 0)).fset r 19 8 peer.toNat
        let s := s.setLanes k lanes.toNat 0
        let s := s.fset r 2 2 (if mis ∨ lanes = 0 then 1 else 0)
        (if mis then s.linkRecord k lanes.toNat 0x05 0 else s).routes

/-! ## Hops (R517 to R521) -/

/-- The vertex that a message goes to and the class that carries it (R517); TC1 where a context's access and a copy engine's are
not told apart, and the class of a clear-to-send is not stated (log entry 62). -/
def OutMsg.packet : OutMsg → Option (Vertex × Nat)
  | .tileHeader v c _ | .tile v c _ => some (v, c.toNat)
  | .headerFailed v _ _ | .clearToSend v _ _ => some (v, 0)
  | .remoteWrite l _ _ => some (PAddr.vertex l, 1)
  | .remoteRead l => some (PAddr.vertex l, 1)
  | .remoteAtomic a _ _ _ => some (PAddr.vertex a, 1)
  | .collective _ v p => some (v, if p.chunks.isEmpty then 0 else 3)
  | .block _ v _ => some (v, 3)
  | .blockResend _ v _ | .digestNotice v _ _ | .marker _ v => some (v, 0)
  | .powerCredit v _ => some (v, 0)
  | .creditGrant v _ | .creditAck v => some (v, 0)
  | .homeData v _ _ _ _ _ _ => some (v, 1)
  | _ => none

/-- The vertex at the other end of the first hop toward a vertex: the first coordinate that differs is corrected, directly or by
the intermediate of its detour (R513, R515). -/
def State.nextVertex (s : State) (v : Vertex) : Option Vertex :=
  match ([0, 1, 2] : List Nat).find? fun d => coord v d ≠ coord s.vertex d with
  | none => none
  | some d =>
    let peer := withCoord s.vertex d (coord v d)
    some (if s.direct peer then peer else withCoord s.vertex d (s.via d (coord v d)))

/-- Whether a message leaves this vertex over a link in a class: the link is in the bundle to its next vertex (R512). -/
def State.leavesOver (s : State) (k : Link) (cls : Nat) (m : OutMsg) : Bool :=
  match m.packet with
  | none => false
  | some (v, c) =>
    let other : Bool := match m with
      | .remoteWrite .. | .remoteRead .. => cls = 2
      | .clearToSend .. | .headerFailed .. => true
      | _ => false
    (c = cls || other) && s.nextVertex v = some (BitVec.ofNat 12 (s.fget (rg .linkStatus k.val) 19 8))

/-- The half bytes that the TC0 bucket of a link regains in a nanosecond: 2 % of its capacity, which is 50 bytes per ns on a lane in
full mode and 25 in reach mode (R500, R503, R521). -/
def State.tc0Rate (s : State) (k : Link) : Nat :=
  let up := s.fget (rg .linkStatus k.val) 1 0
  (up % 2 + up / 2) * (if s.fget (rg .linkCtl k.val) 1 1 = 1 then 1 else 2)

/-- What the TC0 bucket of a link still lacks. -/
def State.tc0Lack (s : State) (k : Link) : Nat :=
  let l := s.link k
  l.tc0Spent - s.tc0Rate k * (s.time (Link.die k) - l.tc0At).toNat

/-- `PACKET_HOP`: the oldest message of this vertex that the link carries in the class leaves over it. The command says that the next
hop has a credit for it and that the link's arbitration has chosen it (R518, R519). A message of this vertex makes its first hop
on the first channel (R515). In TC0 it takes a token of 64 bytes from a bucket of 8, and waits and is counted while there is none
(R521). A link that switches its mode carries nothing (R505). -/
def execPacketHop (k : Link) (cls : Fin 4) (vc : Fin 2) (s : State) : Out :=
  .next <|
    let l := s.link k
    if !s.linkGood k || l.switching || vc ≠ 0 then s
    else match takeFirst (s.leavesOver k cls.val) s.out with
      | none => s
      | some (_, rest) =>
        if cls = 0 && s.fget (rg .fctClassCtl) 48 48 = 0 then
          let lack := s.tc0Lack k
          if 1024 < lack + 128 then
            if l.tc0Waits then s
            else (s.setLink k { l with tc0Waits := true }).bump (rg .linkErr k.val) 47 32 1
          else { s.setLink k { l with tc0Spent := lack + 128, tc0At := s.time (Link.die k), tc0Waits := false } with out := rest }
        else { s with out := rest }

/-! ## Chord (R541 to R547) -/

/-- The wire groups of a connection per direction (R541, R548). -/
def chordGroups (d : Die) (n : Fin 6) : Nat :=
  if d.val < 12 then 32 else if d.val < 16 then (if n.val < 3 then 32 else if n.val < 5 then 48 else 10) else 10

/-- `CHORD_FLIT_RECEIVE` (R544). A connection whose lanes are shifting carries no flits (R546). -/
def execChordFlitReceive (d : Die) (n : Fin 6) (seq : W32) (ok : Bool) (s : State) : Out :=
  .next <|
    let k := s.chd d n
    if !k.remaps.isEmpty then s
    else
      let g := goBack k.expect k.discard seq ok
      let s := s.setChd d n { k with expect := g.1, discard := g.2.1 }
      if g.2.2 then (s.bump (rg .chdErr d.val n.val) 23 0 1).emit (.chordResend d n seq) else s

/-- A wire of a connection is declared failed: its group shifts onto its spare, or is disabled when the spare is in use (R546,
R547). A wire of a disabled group changes nothing. -/
def State.wireFailed (s : State) (d : Die) (n : Fin 6) (wire retries : Nat) : State :=
  let g := wire / 33
  let k := s.chd d n
  if chordGroups d n ≤ g || g ∈ k.disabled then s
  else
    let st := rg .chdStatus d.val n.val
    let er := rg .chdErr d.val n.val
    let again : Bool := g ∈ k.spareUsed
    let seq := (s.die d).errSeq
    let k := { k with charges := k.charges.filter (·.1 ≠ wire) }
    let s := (s.bump er 31 24 1).logErr d { cls := 0x0A
                                            index := BitVec.ofNat 16 n.val
                                            action := if again then 0x04 else 0x05
                                            count := BitVec.ofNat 16 retries
                                            syndrome := BitVec.ofNat 64 wire }
    let s := s.ledger ⟨0x06, BitVec.ofNat 5 d.val, BitVec.ofNat 16 n.val, BitVec.ofNat 16 wire, if again then 1 else 2, 3,
      0, s.flash.coldStarts, s.time d, seq⟩
    if again then
      ((((s.setChd d n { k with disabled := k.disabled ++ [g] }).bump er 39 32 1).fset st 11 6
        (s.fget st 11 6 - 1)).fset st 19 19 1).setDegraded 3 true
    else
      ((s.setChd d n { k with spareUsed := k.spareUsed ++ [g], remaps := k.remaps ++ [g] }).fset st 17 12
        (k.spareUsed.length + 1)).fset st 18 18 1

/-- The wire with the most differing bits, the lowest-numbered on a tie (R545). -/
def worstWire (diff : List Nat) : Nat :=
  ((List.range diff.length).foldl (fun (b : Nat × Nat) i => if b.2 < diff.getD i 0 then (i, diff.getD i 0) else b) (0, 0)).1

/-- `CHORD_RESEND`: a discarded flit of a group is compared with its resent copy, and the retry is charged to a wire; eight within
1 ms fail it (R545, R546). -/
def execChordResend (d : Die) (n : Fin 6) (grp : Fin 48) (diff : List Nat) (s : State) : Out :=
  .next <|
    if chordGroups d n ≤ grp.val then s
    else
      let wire := 33 * grp.val + worstWire (diff.take 33)
      let now := s.time d
      let k := s.chd d n
      let cs := (k.charges.filter fun x => decide ((now - x.2).toNat < 1000000)) ++ [(wire, now)]
      let s := s.setChd d n { k with charges := cs }
      let mine := (cs.filter (·.1 = wire)).length
      if 8 ≤ mine then s.wireFailed d n wire mine else s

/-- `CHD_FAIL_GO` (R546). -/
def execChdFailGo (d : Die) (n : Fin 6) (wire : BitVec 11) (s : State) : Out := .next (s.wireFailed d n wire.toNat 0)

/-- `CHORD_REMAP_COMPLETE`: the oldest remap under way is done; others follow one after the other (R546). -/
def execChordRemapComplete (d : Die) (n : Fin 6) (s : State) : Out :=
  .next <|
    let k := s.chd d n
    (s.setChd d n { k with remaps := k.remaps.tail }).fset (rg .chdStatus d.val n.val) 18 18
      (if k.remaps.tail.isEmpty then 0 else 1)

end Sys2Proof.Machine
end

