-- ==== Sys2Proof/Machine/Collective.lean ====
section
/-! DEFINITION. The collective engines: arrivals (R529, R530), rounds on the tree (R532) and in steps over blocks (R533), digests
(R537 to R540), snapshots (R536) and the completion of a round (R531). -/

namespace Sys2Proof.Machine

/-! ## The collective line (R526, R527) -/

/-- The base die whose engine serves a line (R526). -/
def collDie (line : LAddr) : BDie := Slice.bdie (homeOf line.toNat)

/-- A word of a collective line. -/
def State.collWord (s : State) (line : LAddr) (i : Nat) : W64 := leWord (s.homeBytes (line.toNat + 8 * i) 8)

/-- A word of a collective line written by its engine. -/
def State.collPut (s : State) (line : LAddr) (i : Nat) (w : W64) : State := s.homeWrite (line.toNat + 8 * i) (leBytes 8 w.toNat)

/-- Word `i` of the line as the round began, 1 to 6. -/
def Round.w (r : Round) (i : Nat) : W64 := r.words.getD (i - 1) 0
/-- The operation. -/
def Round.op (r : Round) : Nat := bits (r.w 1) 35 32
/-- The dimensions that the group spans. -/
def Round.dims (r : Round) : List Nat := ([0, 1, 2] : List Nat).filter fun d => (r.w 2).getLsbD d
/-- Whether the payload crosses the dimensions in two orders. -/
def Round.dual (r : Round) : Bool := (r.w 2).getLsbD 3
/-- The element format: 0 BF16, 1 FP16, 2 FP32, 3 bytes. -/
def Round.fmt (r : Round) : Nat := bits (r.w 2) 5 4
/-- The reduction: 0 sum, 1 maximum, 2 minimum. -/
def Round.rop (r : Round) : Nat := bits (r.w 2) 7 6
/-- The broadcast root. -/
def Round.root (r : Round) : Vertex := (r.w 2).extractLsb' 12 12
/-- The contribution's bytes. -/
def Round.length (r : Round) : Nat := bits (r.w 4) 39 0
/-- Whether the round runs on the tree (R532). -/
def Round.onTree (r : Round) : Bool := r.op = 1 || r.op = 6 || decide (r.length ≤ 256)
/-- Bytes of a digest block (R537). -/
def Round.blockBytes (r : Round) : Nat := 65536 * (if r.fmt = 2 then 4 else if r.fmt = 3 then 1 else 2)
/-- Digest blocks of a contribution. -/
def Round.blocks (r : Round) : Nat := (r.length + r.blockBytes - 1) / r.blockBytes
/-- Whether received blocks are checked by their column sums: those of sum steps, of all-gather and of broadcast, of a format
with numbers (R539). -/
def Round.summed (r : Round) : Bool := r.fmt ≠ 3 && (r.op = 4 || r.op = 5 || r.rop = 0)

/-- The peers of a dimension that this member exchanges with: coordinates. -/
def State.groupPeers (s : State) (d : Nat) : List Nat := s.peersOf d

/-- Whether a field of the line is invalid (R527, R714, R722): the operation, the format, the reduction, the length, the root, or
an address that is no coherent memory. -/
def State.collBad (s : State) (r : Round) : Bool :=
  let payload : Bool := r.op ≠ 1 && r.op ≠ 6
  let area (a n : Nat) : Bool := n = 0 || ((regionOf a).coherent && (regionOf (a + n - 1)).coherent)
  r.op = 0 || decide (6 < r.op) || bits (r.w 1) 15 0 = 0 ||
    (payload && (r.length % 256 ≠ 0 || r.rop = 3 || (r.fmt = 3 && r.op ≠ 4 && r.op ≠ 5) ||
      !area (bits (r.w 3) 43 0) r.length || !area (bits (r.w 5) 43 0) r.length)) ||
    (r.op = 6 && !area (bits (r.w 5) 43 0) 0x2400) ||
    (r.op = 5 && (!s.populated r.root || ([0, 1, 2] : List Nat).any fun d =>
      d ∉ r.dims && coord r.root d ≠ coord s.vertex d))

/-- A member of the group with which this one exchanges. -/
def State.collPeer (s : State) (d c : Nat) : Vertex := withCoord s.vertex d c

/-! ## Numbers of a block (R533, R537, R539) -/

/-- The element format of a collective (R30). -/
def collElem (fmt : Nat) : Elem := if fmt = 0 then elemOf 0x02 else if fmt = 1 then elemOf 0x03 else elFp32

/-- The elements of a block as FP32. -/
def collNums (fmt : Nat) (bs : List W8) : List W32 :=
  let n := if fmt = 2 then 4 else 2
  (List.range (bs.length / n)).map fun i => (widen ((collElem fmt).decode (leNat ((bs.drop (n * i)).take n)))).1

/-- FP32 values rounded once to the format, as bytes. -/
def collBytes (fmt : Nat) (vs : List W32) : List W8 :=
  vs.flatMap fun v =>
    if fmt = 2 then leBytes 4 v.toNat
    else match (narrow (collElem fmt) false none (num32 v)).1 with
      | .code c => leBytes 2 c
      | .block => leBytes 2 0

/-- Values combined in coordinate order: one after the other on the tree (R532), pairwise in a step (R533, R235). -/
def collFold (asc : Bool) (g : W32 → W32 → W32 × W32) (vs : List W32) : W32 :=
  if asc then vs.tail.foldl (fun a b => (g a b).1) (vs.headD 0) else (treeReduce g 5 (vs, 0)).1

/-- The combination of two values by the reduction (R527, R230). -/
def collOp (rop : Nat) : W32 → W32 → W32 × W32 := if rop = 1 then fMax else if rop = 2 then fMin else fAdd

/-- The column sums of elements over rows of 128, by the order of R235 (R537). -/
def colSums (vs : List W32) : List W32 :=
  (List.range 128).map fun n =>
    (treeReduce fAdd 10 ((List.range ((vs.length - n + 127) / 128)).map fun i => vs.getD (128 * i + n) 0, 0)).1

/-- A block with the digest that the engine forms at the source (R537). -/
def digested (fmt : Nat) (bs : List W8) : Chunk := ⟨bs, if fmt = 3 then [] else colSums (collNums fmt bs), crc32c bs⟩

/-- The contributions combined element by element. -/
def combineData (fmt rop : Nat) (asc : Bool) (ds : List (List W8)) : List W8 :=
  let vs := ds.map (collNums fmt)
  let n := (vs.headD []).length
  collBytes fmt ((List.range n).map fun i => collFold asc (collOp rop) (vs.map (·.getD i 0)))

/-- Whether a column fails: |Q − D′| > ε·A + 2^-126, unless Q or D′ is NaN or infinite (R539). -/
def columnBad (fmt : Nat) (q d a : W32) : Bool :=
  match num32 q, num32 d, num32 a with
  | .fin x m e, .fin y n g, .fin z o h =>
    let eps : Int := if fmt = 0 then -7 else if fmt = 1 then -9 else -18
    let diff := (Dy.add (Num.dy (.fin x m e)) (Dy.neg (Num.dy (.fin y n g)))).abs
    let lim := Dy.add (Dy.mul ⟨1, eps⟩ (Num.dy (.fin z o h))) ⟨1, -126⟩
    diff.gt lim
  | _, _, _ => false

/-- Whether a block passes the linear check: column sums of the block, the digest, and the sums of magnitudes of what was
combined, each pairwise in FP32 (R539; log entry 66). -/
def sumsPass (fmt : Nat) (data : List W8) (d : List W32) (parts : List (List W8)) : Bool :=
  let q := colSums (collNums fmt data)
  let as := parts.map fun p => colSums ((collNums fmt p).map fun x => x &&& 0x7FFFFFFF)
  !(List.range 128).any fun n => columnBad fmt (q.getD n 0) (d.getD n 0) ((treeReduce fAdd 5 (as.map (·.getD n 0), 0)).1)

/-- What the check of a combined block gives. -/
inductive StepRes where
  | good (b : Chunk)
  /-- The contributors must resend once (R540 step 1). -/
  | again
  /-- The check has failed again: the contributor whose own check fails, or none for the engine itself (R540 steps 2 to 4). -/
  | bad (who : Option Nat) (b : Chunk)

/-- A block of a reduction step: the contributions of the members, by coordinate, combined and checked (R533, R539, R540). -/
def reduceBlock (fmt rop : Nat) (asc again : Bool) (cs : List (Nat × Chunk)) : StepRes :=
  let data := combineData fmt rop asc (cs.map (·.2.data))
  if rop ≠ 0 then .good ⟨data, [], crc32c data⟩
  else
    let d := (List.range 128).map fun n => collFold asc fAdd (cs.map (·.2.sums.getD n 0))
    let b : Chunk := ⟨data, d, crc32c data⟩
    if sumsPass fmt data d (cs.map (·.2.data)) then .good b
    else if !again then .again
    else .bad ((cs.find? fun c => !sumsPass fmt c.2.data c.2.sums [c.2.data]).map (·.1)) b

/-- A block that is passed on unchanged, checked as a sum of one contribution (R539, R540). -/
def passBlock (fmt : Nat) (summed again : Bool) (coord_ : Nat) (b : Chunk) : StepRes :=
  if !summed || sumsPass fmt b.data b.sums [b.data] then .good b
  else if !again then .again
  else .bad (some coord_) b

/-! ## Reading a contribution (R537) -/

/-- Bytes read by a collective engine: none where it must wait; a status where the read fails (R527, R714), with free bytes. -/
def State.collRead (s : State) (line : LAddr) (a n : Nat) : Option (State × Nat × List W8) :=
  match s.gather (.collective (collDie line)) .normal (physPieces (mkPA s.vertex (BitVec.ofNat 44 a)) n) with
  | (s', .ok d) => some (s', 0, d)
  | (_, .error (_, .blocked)) => none
  | (s', .error (_, x)) =>
    some ({ s' with draws := s'.draws + (n + 7) / 8 }, if x = .addr then 5 else 4,
      (wordsBytes ((List.range ((n + 7) / 8)).map fun i => Config.freeValue (s'.draws + i))).take n)

/-- Block `i` of this member's contribution with its digest, numbered `num` in the round. -/
def State.readBlock (s : State) (line : LAddr) (r : Round) (i num : Nat) : Option (State × Blk) :=
  let n := min r.blockBytes (r.length - i * r.blockBytes)
  match s.collRead line (bits (r.w 3) 43 0 + i * r.blockBytes) n with
  | none => none
  | some (s, st, d) =>
    if (r.w 2).getLsbD 8 then some (s, ⟨num, st, digested r.fmt d⟩)
    else match s.collRead line (bits (r.w 6) 43 0 + 528 * i) 516 with
      | none => none
      | some (s, st', g) => some (s, ⟨num, max st st',
          ⟨d, (List.range 128).map fun n => BitVec.ofNat 32 (leNat ((g.drop (4 * n)).take 4)),
            BitVec.ofNat 32 (leNat ((g.drop 512).take 4))⟩⟩)

/-- Blocks `is` of the contribution, numbered from `num`. -/
def State.readBlocks (s : State) (line : LAddr) (r : Round) : List Nat → Nat → Option (State × List Blk)
  | [], _ => some (s, [])
  | i :: t, num =>
    match s.readBlock line r i num with
    | none => none
    | some (s, b) => match s.readBlocks line r t (num + 1) with
      | none => none
      | some (s, bs) => some (s, b :: bs)

/-! ## The end of a round -/

/-- The round's record changed. -/
def State.updRound (s : State) (line : LAddr) (g : Round → Round) : State := s.setRound line (g (s.round line))

/-- A round ends on this member with status 0x3 or 0x5, and tells every member that it can reach in each dimension (R527, and the
events table of R540; log entry 67). -/
def State.collEnd (s : State) (line : LAddr) (code : Nat) : State :=
  let r := s.round line
  if r.ended then s.updRound line fun r => { r with status := max r.status code }
  else
    let s := s.updRound line fun r => { r with
      ended := true
      status := max r.status code
      inbox := []
      partials := r.partials.filter fun p => p.status = 3 || p.status = 5 }
    r.dims.foldl (fun s d => ((s.groupPeers d).filter fun c => s.canReach (s.collPeer d c)).foldl (fun s c =>
      s.emit (.collective line (s.collPeer d c) ⟨Fin.ofNat 3 d, Fin.ofNat 16 (coord s.vertex d), true, true,
        BitVec.ofNat 4 code, []⟩)) s) s

/-- Whether a partial says that its sender's round has ended. -/
def Partial.ends (p : Partial) : Bool := p.status = 3 || p.status = 5

/-- An ended round is over once every member that can be reached has said that its round has ended too. -/
def State.collEndWait (s : State) (line : LAddr) : State :=
  let r := s.round line
  let owed := r.dims.flatMap fun d => ((s.groupPeers d).filter fun c => s.canReach (s.collPeer d c)).map fun c => (d, c)
  let has (x : Nat × Nat) : Bool := r.partials.any fun p => Partial.ends p && p.dim.val = x.1 && p.coord.val = x.2
  if owed.all has then
    let rest := owed.foldl (fun ps x => match takeFirst (fun (p : Partial) => Partial.ends p && p.dim.val = x.1 && p.coord.val = x.2) ps with
      | some (_, t) => t
      | none => ps) r.partials
    s.updRound line fun r => { r with partials := rest, done := true }
  else s

/-- The notice that a contribution of this vertex failed writes an error record here, with the block as its syndrome and one
resend as its count (R540, R594). Which die writes it is not stated: BD0 (log entry 65). -/
def State.failNotice (s : State) (block : W32) : State :=
  s.logErr 12
    { cls := 0x0D
      index := 0
      action := 0x00
      count := 1
      syndrome := block.setWidth 64 }

/-- A step fails its check: the first contributor is named, an error record is written and the contributor's vertex gets a
notice (R540 step 4, R593). None names the engine's own vertex, after the block has been combined again (R540 step 3). -/
def State.checkFail (s : State) (line : LAddr) (who : Option Vertex) (step block : Nat) : State :=
  let v := who.getD s.vertex
  let s := s.updRound line fun r => { r with fail := some (r.fail.getD (v, step, block)) }
  let s := s.logErr (BDie.die (collDie line))
    { cls := 0x0D
      index := BitVec.ofNat 16 (collDie line).val
      action := 0x00
      addr := mkPA s.vertex line
      requester := Requester.code (.collective (collDie line))
      count := 1
      syndrome := BitVec.ofNat 64 block }
  match who with
  | none => s
  | some v =>
    if v = s.vertex then s.failNotice (BitVec.ofNat 32 block)
    else s.emit (.digestNotice v (BitVec.ofNat 4 step) (BitVec.ofNat 32 block))

/-- The result written at dst; none where the engine must wait. A write that fails makes the field invalid (R714). -/
def State.collResult (s : State) (line : LAddr) (a : Nat) (bs : List W8) : Option (State × Nat) :=
  match s.scatter (.collective (collDie line)) .normal (physPieces (mkPA s.vertex (BitVec.ofNat 44 a)) bs.length) bs with
  | (s', none) => some (s', 0)
  | (_, some (_, .blocked)) => none
  | (s', some _) => some (s', 5)

/-- The result of the round is written and the round is done. -/
def State.collFinish (s : State) (line : LAddr) (bs : List Blk) : State :=
  let r := s.round line
  match s.collResult line (bits (r.w 5) 43 0) (bs.flatMap (·.body.data)) with
  | none => s
  | some (s, st) => s.updRound line fun r => { r with
      done := true
      status := bs.foldl (fun m b => max m b.status) (max r.status st) }

/-! ## Rounds on the tree (R532) -/

/-- What the members of a dimension have sent up, in coordinate order, this member first at coordinate 0: none until all have
arrived. -/
def State.gathered (s : State) (r : Round) (d : Nat) : Option (List (Nat × List Blk)) :=
  let got := (s.groupPeers d).map fun c =>
    (r.partials.find? fun p => !p.down && p.dim.val = d && p.coord.val = c).map fun p =>
      (c, (List.range p.chunks.length).map fun i => (⟨i, p.status.toNat, p.chunks.getD i ⟨[], [], 0⟩⟩ : Blk))
  if got.all Option.isSome then some ((0, r.value) :: got.filterMap id) else none

/-- The partials of a dimension that have been used leave the record. -/
def Round.dropUp (r : Round) (d : Nat) : Round :=
  { r with partials := r.partials.filter fun p => p.down || p.dim.val ≠ d || Partial.ends p }

/-- Chunk lists of the members of a dimension put in the order of the result: the first dimension slowest. -/
def interleave (ls : List (List Blk)) : List Blk :=
  (List.range (ls.headD []).length).flatMap fun i => ls.filterMap (·[i]?)

/-- The partials of one dimension combined at coordinate 0 (R532): a reduction, the concatenation of an all-gather, or the root's
chunk of a broadcast. None where contributors are asked to resend. -/
def State.treeCombine (s : State) (line : LAddr) (d : Nat) (cs : List (Nat × List Blk)) : Option State :=
  let r := s.round line
  let step := r.up
  let put (s : State) (v : List Blk) : State := s.updRound line fun r => { r.dropUp d with up := r.up + 1, value := v }
  if r.op = 4 then some (put s (interleave (cs.map (·.2))))
  else if r.op = 5 then some (put s (cs.flatMap (·.2)))
  else
    let one := cs.filterMap fun c => (c.2.head?).map fun b => (c.1, b)
    let st := one.foldl (fun m c => max m c.2.status) 0
    if one.isEmpty then some (put s [])
    else
      match reduceBlock r.fmt r.rop true ((d, 0) ∈ r.again) (one.map fun c => (c.1, c.2.body)) with
      | .good b => some (put s [⟨0, st, b⟩])
      | .again => none
      | .bad who b => some (put (s.checkFail line (who.map fun c => s.collPeer d c) step 0) [⟨0, max st 1, b⟩])

/-- A partial to a member of a dimension. -/
def State.sendPartial (s : State) (line : LAddr) (d c : Nat) (down : Bool) : State :=
  let r := s.round line
  let st := r.value.foldl (fun m b => max m b.status) r.status
  s.emit (.collective line (s.collPeer d c) ⟨Fin.ofNat 3 d, Fin.ofNat 16 (coord s.vertex d), down, true, BitVec.ofNat 4 st,
    r.value.map (·.body)⟩)

/-- The result goes down: to the members of every dimension whose partials this one has combined, the last first; a snapshot
sends its marker instead (R532, R536). -/
def State.sendDown (s : State) (line : LAddr) (n : Nat) : State :=
  let r := s.round line
  ((r.dims.take n).reverse).foldl (fun s d => (s.groupPeers d).foldl (fun s c =>
    if r.op = 6 then s.emit (.marker line (s.collPeer d c)) else s.sendPartial line d c true) s) s

/-! ## Snapshots (R536) -/

/-- The snapshot record: gen, time and place, the tile counts of each peer, the epochs and streams of every context. -/
def State.snapRecord (s : State) (line : LAddr) : List W8 :=
  let b := collDie line
  let peers := ([0, 1, 2] : List Nat).flatMap fun d => (s.peersOf d).map (withCoord s.vertex d)
  let cnt (t : Tbl (Vertex × BitVec 2) W64) (v : Vertex) : List W64 := ([1, 2, 3] : List (BitVec 2)).map fun c => Tbl.get 0 t (v, c)
  let entry (i : Nat) : List W64 := match peers[i]? with
    | some v => cnt s.tilesOut v ++ cnt s.tilesIn v ++ [0, 0]
    | none => [0, 0, 0, 0, 0, 0, 0, 0]
  let ctx (i : Nat) : W64 :=
    let c : Cx := ⟨Fin.ofNat 192 (i / 4), Fin.ofNat 4 i⟩
    match (s.ctx c).stream with
    | some id => BitVec.ofNat 64 ((s.epoch c).toNat % 2 ^ 32 + id.toNat * 2 ^ 32)
    | none => 0
  wordsBytes ([s.collWord line 0, s.time (BDie.die b), BitVec.ofNat 64 (12 + b.val + s.vertex.toNat * 2 ^ 16), 0, 0, 0, 0, 0] ++
    (List.range 45).flatMap entry ++ List.replicate 16 0 ++ (List.range 768).map ctx)

/-- A member meets the marker: it writes its record, forwards the marker and completes; it waits while the record cannot be
written. -/
def State.snapTake (s : State) (line : LAddr) : State :=
  let r := s.round line
  match s.collResult line (bits (r.w 5) 43 0) (s.snapRecord line) with
  | none => s
  | some (s, st) =>
    (s.sendDown line r.up).updRound line fun r => { r with done := true, status := max r.status st }

/-! ## The engine on the tree -/

/-- Whether the reduce-scatter of one block leaves it with this member (R533: coordinate n − 1 owns block 0 of 1). -/
def State.ownsTree (s : State) (r : Round) : Bool := r.dims.all fun d => coord s.vertex d + 1 = s.dimSize d

/-- The result of a tree round is at hand: it goes down and is written where it belongs. -/
def State.treeDone (s : State) (line : LAddr) (n : Nat) : State :=
  let r := s.round line
  if r.op = 1 then
    (s.sendDown line n).updRound line fun r => { r with done := true }
  else
    let mine := if r.op = 3 && !s.ownsTree r then [] else r.value
    match s.collResult line (bits (r.w 5) 43 0) (mine.flatMap (·.body.data)) with
    | none => s
    | some (s, st) =>
      (s.sendDown line n).updRound line fun r => { r with
        done := true
        status := r.value.foldl (fun m b => max m b.status) (max r.status st) }

/-- Contributors of a tree step are asked to resend their partial once (R540). -/
def State.treeAgain (s : State) (line : LAddr) (d : Nat) : State :=
  let s := (s.groupPeers d).foldl (fun s c => s.emit (.blockResend line (s.collPeer d c) 0)) s
  s.updRound line fun r => { r.dropUp d with again := r.again ++ [(d, 0)] }

/-- The up phase as far as it can go (R532). -/
def State.treeUp (s : State) (line : LAddr) : Nat → State
  | 0 => s
  | fuel + 1 =>
    let r := s.round line
    match r.dims[r.up]? with
    | none => if r.op = 6 then s.snapTake line else s.treeDone line r.up
    | some d =>
      if coord s.vertex d ≠ 0 then
        if r.sentUp then s
        else (s.sendPartial line d 0 false).updRound line fun r => { r with sentUp := true }
      else match s.gathered r d with
        | none => s
        | some cs => match s.treeCombine line d cs with
          | none => s.treeAgain line d
          | some s => s.treeUp line fuel

/-- The down phase at a member that has sent its partial up: the result that has come down is checked and taken (R532, R539). -/
def State.treeDown (s : State) (line : LAddr) : State :=
  let r := s.round line
  match r.dims[r.up]? with
  | none => s
  | some d =>
    match takeFirst (fun (p : Partial) => p.down && p.dim.val = d && p.coord.val = 0 && !Partial.ends p) r.partials with
    | none => s
    | some (p, rest) =>
      let res := p.chunks.map fun b => passBlock r.fmt r.summed ((d, 0) ∈ r.again) 0 b
      if res.any fun x => match x with | .again => true | _ => false then
        (s.emit (.blockResend line (s.collPeer d 0) 0)).updRound line fun r => { r with
          partials := rest
          again := r.again ++ [(d, 0)] }
      else
        let bad := res.any fun x => match x with | .bad _ _ => true | _ => false
        let s := if bad then s.checkFail line (some (s.collPeer d 0)) r.up 0 else s
        let st := if bad then max p.status.toNat 1 else p.status.toNat
        let v := (List.range p.chunks.length).map fun i => (⟨i, st, p.chunks.getD i ⟨[], [], 0⟩⟩ : Blk)
        (s.updRound line fun r => { r with
          partials := rest
          value := v
          status := max r.status p.status.toNat }).treeDone line r.up

/-! ## The engine over blocks (R533) -/

/-- The blocks that coordinate `c` of `n` owns of a range (R533). -/
def ownedPart (x : Nat × Nat) (n c : Nat) : Nat × Nat :=
  let b := x.2 - x.1
  (x.1 + c * b / n, x.1 + (c + 1) * b / n)

/-- The part of a half that this member holds after the first `k` dimensions of its reduce-scatter. -/
def State.halfPart (s : State) (h : Half) (k : Nat) : Nat × Nat :=
  (h.order.take k).foldl (fun x d => ownedPart x (s.dimSize d) (coord s.vertex d)) (h.lo, h.hi)

/-- Whether a block lies in a part. -/
def inPart (x : Nat × Nat) (i : Nat) : Bool := decide (x.1 ≤ i) && decide (i < x.2)

/-- Blocks sent to the member with coordinate `c` of a dimension. -/
def State.sendBlocks (s : State) (line : LAddr) (d c : Nat) (bs : List Blk) : State :=
  bs.foldl (fun s b => s.emit (.block line (s.collPeer d c) ⟨Fin.ofNat 3 d, Fin.ofNat 16 (coord s.vertex d), b.index, true,
    BitVec.ofNat 4 b.status, b.body⟩)) s

/-- A block that has come from a coordinate of a dimension. -/
def Round.arrived (r : Round) (d c i : Nat) : Option DigestBlock :=
  r.inbox.find? fun b => b.dim.val = d && b.coord.val = c && b.index = i

/-- Blocks that have been used leave the inbox, one for each coordinate and number. -/
def Round.used (r : Round) (d : Nat) (xs : List (Nat × Nat)) : Round :=
  { r with inbox := xs.foldl (fun l x => match takeFirst (fun (b : DigestBlock) => b.dim.val = d && b.coord.val = x.1 &&
      b.index = x.2) l with
    | some (_, t) => t
    | none => l) r.inbox }

/-- The contributors of blocks are asked to resend once; what they sent is dropped (R540). -/
def State.askAgain (s : State) (line : LAddr) (d : Nat) (xs : List (Nat × Nat)) : State :=
  let s := xs.foldl (fun s x => s.emit (.blockResend line (s.collPeer d x.1) x.2)) s
  s.updRound line fun r => { r.used d xs with again := (r.again ++ xs.map fun x => (d, x.2)).dedup }

/-- One reduce-scatter step of a half; the Boolean tells whether it is complete. -/
def State.scatterStep (s : State) (line : LAddr) (h : Half) : State × Half × Bool :=
  match h.order[h.step]? with
  | none => (s, h, false)
  | some d =>
    let part := s.halfPart h h.step
    let own := s.halfPart h (h.step + 1)
    let peers := s.groupPeers d
    let s := if h.sent then s else peers.foldl (fun s c =>
      s.sendBlocks line d c (h.cur.filter fun b => inPart (ownedPart part (s.dimSize d) c) b.index)) s
    let h := { h with sent := true }
    let r := s.round line
    let idx := (List.range (own.2 - own.1)).map (own.1 + ·)
    if !idx.all fun i => peers.all fun c => (r.arrived d c i).isSome then (s, h, false)
    else
      let me := coord s.vertex d
      let contribs (i : Nat) : List (Nat × Nat × Chunk) := (List.range (s.dimSize d)).filterMap fun c =>
        if c = me then (h.cur.find? (·.index = i)).map fun b => (c, b.status, b.body)
        else (r.arrived d c i).map fun b => (c, b.status.toNat, b.body)
      let res := idx.map fun i =>
        (i, contribs i, reduceBlock r.fmt r.rop false ((d, i) ∈ r.again) ((contribs i).map fun x => (x.1, x.2.2)))
      let redo := res.filterMap fun x => match x.2.2 with | .again => some x.1 | _ => none
      if !redo.isEmpty then (s.askAgain line d (redo.flatMap fun i => peers.map fun c => (c, i)), h, false)
      else
        let s := res.foldl (fun s x => match x.2.2 with
          | .bad who _ => s.checkFail line (who.map fun c => s.collPeer d c) h.step x.1
          | _ => s) s
        let cur := res.filterMap fun x =>
          let st := x.2.1.foldl (fun m c => max m c.2.1) 0
          match x.2.2 with
          | .good b => some (⟨x.1, st, b⟩ : Blk)
          | .bad _ b => some ⟨x.1, max st 1, b⟩
          | .again => none
        (s.updRound line fun r => r.used d (idx.flatMap fun i => peers.map fun c => (c, i)),
          { h with step := h.step + 1, sent := false, cur := cur }, true)

/-- Blocks taken from members unchanged: wanted are (coordinate, number). None until all have come and passed or been resent. -/
def State.takeBlocks (s : State) (line : LAddr) (d step : Nat) (want : List (Nat × Nat)) : State × Option (List Blk) :=
  let r := s.round line
  if !want.all fun x => (r.arrived d x.1 x.2).isSome then (s, none)
  else
    let res := want.filterMap fun x => (r.arrived d x.1 x.2).map fun b =>
      (x, b.status.toNat, passBlock r.fmt r.summed ((d, x.2) ∈ r.again) x.1 b.body)
    let redo := res.filterMap fun x => match x.2.2 with | .again => some x.1 | _ => none
    if !redo.isEmpty then (s.askAgain line d redo, none)
    else
      let s := res.foldl (fun s x => match x.2.2 with
        | .bad who _ => s.checkFail line (who.map fun c => s.collPeer d c) step x.1.2
        | _ => s) s
      (s.updRound line fun r => r.used d want, some (res.filterMap fun x => match x.2.2 with
        | .good b => some (⟨x.1.2, x.2.1, b⟩ : Blk)
        | .bad _ b => some ⟨x.1.2, max x.2.1 1, b⟩
        | .again => none))

/-- One all-gather step of a half: this member's blocks go to every member of the dimension, and theirs come (R533). -/
def State.gatherStep (s : State) (line : LAddr) (h : Half) : State × Half × Bool :=
  let m := h.order.length
  let u := h.step - m
  match h.order[m - 1 - u]? with
  | none => (s, h, false)
  | some d =>
    let big := s.halfPart h (m - 1 - u)
    let peers := s.groupPeers d
    let s := if h.sent then s else peers.foldl (fun s c => s.sendBlocks line d c h.cur) s
    let h := { h with sent := true }
    let range (c : Nat) : List Nat :=
      let x := ownedPart big (s.dimSize d) c
      (List.range (x.2 - x.1)).map (x.1 + ·)
    match s.takeBlocks line d h.step (peers.flatMap fun c => (range c).map fun i => (c, i)) with
    | (s, none) => (s, h, false)
    | (s, some bs) =>
      let all := h.cur ++ bs
      let sorted := ((List.range (big.2 - big.1)).map (big.1 + ·)).filterMap fun i => all.find? (·.index = i)
      (s, { h with step := h.step + 1, sent := false, cur := sorted }, true)

/-- A broadcast half: a member other than the root takes the blocks from the last dimension of the order in which it differs from
the root, and passes them on in the later ones (R532; log entry 68). -/
def State.spreadStep (s : State) (line : LAddr) (h : Half) : State × Half × Bool :=
  let r := s.round line
  let differs := (List.range h.order.length).filter fun k =>
    coord s.vertex (h.order.getD k 0) ≠ coord r.root (h.order.getD k 0)
  let pass (s : State) (from_ : Nat) (bs : List Blk) : State := (h.order.drop from_).foldl (fun s d =>
    (s.groupPeers d).foldl (fun s c => s.sendBlocks line d c bs) s) s
  match differs.getLast? with
  | none => (pass s 0 h.cur, { h with fin := true }, true)
  | some k =>
    let d := h.order.getD k 0
    match s.takeBlocks line d k (((List.range (h.hi - h.lo)).map fun i => (coord r.root d, h.lo + i))) with
    | (s, none) => (s, h, false)
    | (s, some bs) => (pass s (k + 1) bs, { h with cur := bs, fin := true }, true)

/-- A half as far as it can go. -/
def State.halfRun (s : State) (line : LAddr) : Nat → Half → State × Half
  | 0, h => (s, h)
  | fuel + 1, h =>
    let r := s.round line
    let m := h.order.length
    if h.fin then (s, h)
    else
      let x := if r.op = 5 then s.spreadStep line h
        else if h.step < m then s.scatterStep line h
        else if r.op ≠ 3 && h.step < 2 * m then s.gatherStep line h
        else (s, { h with fin := true }, false)
      if x.2.2 then x.1.halfRun line fuel x.2.1 else (x.1, x.2.1)

/-- The halves of a payload as far as they can go, and the result once both are complete. -/
def State.bulkRun (s : State) (line : LAddr) : State :=
  let r := s.round line
  let x := r.halves.foldl (fun (a : State × List Half) h =>
    let y := a.1.halfRun line 8 h
    (y.1, a.2 ++ [y.2])) (s, [])
  let s := x.1.updRound line fun r => { r with halves := x.2 }
  if x.2.all (·.fin) then s.collFinish line (x.2.flatMap (·.cur)) else s

/-! ## A round as a whole -/

/-- The members of the group: the product of the sizes of its dimensions. -/
def State.groupSize (s : State) (ds : List Nat) : Nat := ds.foldl (fun n d => n * s.dimSize d) 1

/-- This member's place in the group, the first dimension of an order slowest. -/
def State.groupRank (s : State) (ds : List Nat) : Nat := ds.foldl (fun n d => n * s.dimSize d + coord s.vertex d) 0

/-- The halves with this member's blocks read (R533): a payload of B blocks is cut after floor(B / 2) when dual is set
(log entry 63). None where the engine must wait. -/
def State.openHalves (s : State) (line : LAddr) (r : Round) : Option (State × List Half) :=
  let cut := if r.dual then r.blocks / 2 else r.blocks
  let ds := r.dims
  let n := s.groupSize ds
  let reads : Bool := r.op ≠ 5 || r.root = s.vertex
  let mk (s : State) (order : List Nat) (a b base : Nat) : Option (State × Half) :=
    let own := (List.range (b - a)).map (a + ·)
    let ag : Bool := r.op = 4
    let lo := if ag then n * base else base
    let num := if ag then lo + s.groupRank order * (b - a) else lo
    match s.readBlocks line r (if reads then own else []) num with
    | none => none
    | some (s, bs) => some (s, ⟨order, lo, lo + (if ag then n * (b - a) else b - a), if ag then ds.length else 0, false, bs, false⟩)
  match mk s ds 0 cut 0 with
  | none => none
  | some (s, h1) =>
    if !r.dual then some (s, [h1])
    else match mk s ds.reverse cut r.blocks cut with
      | none => none
      | some (s, h2) => some (s, [h1, h2])

/-- The command of a round begins: a line with an invalid field ends with 0x5 and one with a member out of reach with 0x3;
otherwise the source is read (R527, R533). -/
def State.collBegin (s : State) (line : LAddr) : State :=
  let r := s.round line
  let start (s : State) : State := s.updRound line fun r => { r with begun := true }
  if s.collBad r then (start s).collEnd line 5
  else if r.dims.any fun d => (s.groupPeers d).any fun c => !s.canReach (s.collPeer d c) then (start s).collEnd line 3
  else if r.op = 1 || r.op = 6 then start s
  else if r.onTree then
    let reads : Bool := (r.op ≠ 5 || r.root = s.vertex) && decide (0 < r.length)
    match s.readBlocks line r (if reads then [0] else []) 0 with
    | none => s
    | some (s, bs) => s.updRound line fun r => { r with begun := true, value := bs }
  else match s.openHalves line r with
    | none => s
    | some (s, hs) => s.updRound line fun r => { r with begun := true, halves := hs }

/-- A round that has begun goes as far as it can. -/
def State.collRun (s : State) (line : LAddr) : State :=
  let r := s.round line
  if !r.running || !r.begun || r.done || s.stoppedSeq then s
  else
    let told := r.partials.foldl (fun m p => if Partial.ends p then max m p.status.toNat else if !p.agree then max m 5 else m) 0
    let told := if r.inbox.any (!·.agree) then max told 5 else told
    let s := if told = 0 then s else s.collEnd line told
    if (s.round line).ended then s.collEndWait line
    else if r.onTree then (if r.sentUp then (if r.op = 6 then s else s.treeDown line) else s.treeUp line 4)
    else s.bulkRun line

/-- The command of a round's operation on its line (R530): the round has started and its line names the operation. -/
def State.collStart (s : State) (op : Nat) (line : LAddr) : State :=
  let r := s.round line
  if !r.running || r.op ≠ op || s.stoppedSeq then s
  else (if r.begun then s else s.collBegin line).collRun line

/-- `BARRIER` (R532). -/
def execBarrier (line : LAddr) (s : State) : Out := .next (s.collStart 1 line)
/-- `ALL_REDUCE` (R533). -/
def execAllReduce (line : LAddr) (s : State) : Out := .next (s.collStart 2 line)
/-- `REDUCE_SCATTER` (R533). -/
def execReduceScatter (line : LAddr) (s : State) : Out := .next (s.collStart 3 line)
/-- `ALL_GATHER` (R533). -/
def execAllGather (line : LAddr) (s : State) : Out := .next (s.collStart 4 line)
/-- `BROADCAST` (R532). -/
def execBroadcast (line : LAddr) (s : State) : Out := .next (s.collStart 5 line)
/-- `SNAPSHOT` (R536). -/
def execSnapshot (line : LAddr) (s : State) : Out := .next (s.collStart 6 line)

/-! ## Arrivals (R529, R530) -/

/-- A round starts when arrived has reached expected (R530): the engine takes words 1 to 6. -/
def State.collTry (s : State) (line : LAddr) : State :=
  let w := s.collWord line 1
  let r := s.round line
  if r.running || bits w 31 16 < max 1 (bits w 15 0) then s
  else s.setRound line { r with
    running := true
    words := ([1, 2, 3, 4, 5, 6] : List Nat).map (s.collWord line)
    status := 0
    early := 0
    begun := false
    ended := false
    done := false
    up := 0
    value := []
    sentUp := false
    halves := []
    tries := []
    again := []
    fail := none }

/-- One arrival is counted at a line: it is early while a round runs (R530). -/
def State.collArrive (s : State) (line : LAddr) : State :=
  let w := s.collWord line 1
  let s := s.collPut line 1 (withBits w 31 16 (bits w 31 16 + 1))
  if (s.round line).running then s.updRound line fun r => { r with early := r.early + 1 } else s.collTry line

/-- Whether an address names a collective line that this package can serve: a line of coherent local memory (R526). -/
def collLine (line : LAddr) : Bool := decide (line.toNat % 128 = 0) && (regionOf line.toNat).coherent

/-- A write of `FCT_ARRIVE` of a base die: one arrival at a line that its engine serves; a line in device space or a hole is no
line (R529, R722). -/
def State.hartArrive (s : State) (b : BDie) (line : LAddr) : State :=
  if collLine line && collDie line = b && !s.badAddr line.toNat false then s.collArrive line else s

/-- `HART_ARRIVAL` (R529). -/
def execHartArrival (b : BDie) (line : LAddr) (s : State) : Out := .next (s.hartArrive b line)

/-- Whether a context's `bar.arrive` at a line may be sent: every older write has been performed, its tile sends too when the
group spans a dimension (R529, R344). -/
def State.arrivalReady (s : State) (line : LAddr) (c : Cx) : Bool :=
  match (s.ctx c).await with
  | some a => a.kind = .arrival && PAddr.loc a.line = line && s.isLocal a.line && s.writesDone c &&
      (bits (s.collWord line 2) 2 0 = 0 || s.sendsDone c)
  | none => false

/-- `COLLECTIVE_ARRIVAL`: the arrival of a context is counted and its instruction completes (R258, R529, R530). -/
def execCollectiveArrival (line : LAddr) (s : State) : Out :=
  .next <|
    match ((List.finRange 192).flatMap ctxsOf).find? (s.arrivalReady line) with
    | none => s
    | some c => match (s.ctx c).await with
      | none => s
      | some a => (s.awaitDone c a 0).collArrive line

/-! ## What arrives for a round -/

/-- How often a resend of a block has been asked for after a CRC mismatch. -/
def Round.tried (r : Round) (k : Nat × Nat × Nat) : Nat := ((r.tries.find? (·.1 = k)).map (·.2)).getD 0

/-- One more resend of a block asked for. -/
def Round.retry (r : Round) (k : Nat × Nat × Nat) : Round :=
  { r with tries := (k, r.tried k + 1) :: r.tries.filter (·.1 ≠ k) }

/-- `COLLECTIVE_PARTIAL_RECEIVE`: a partial with a chunk whose CRC does not match is resent, up to two times, and then taken with
status 0x2; the round goes on (R532, R538). -/
def execCollectivePartialReceive (line : LAddr) (p : Partial) (s : State) : Out :=
  .next <|
    if !collLine line then s
    else
      let r := s.round line
      let key := (p.dim.val, p.coord.val, 0)
      let wrong := p.chunks.any fun b => crc32c b.data ≠ b.crc
      if wrong && r.tried key < 2 then
        (s.updRound line (·.retry key)).emit (.blockResend line (s.collPeer p.dim.val p.coord.val) 0)
      else
        let p := if wrong then { p with status := if p.status.toNat < 2 then 2 else p.status } else p
        (s.updRound line fun r => { r with
          partials := r.partials ++ [p]
          tries := r.tries.filter (·.1 ≠ key) }).collRun line

/-- `DIGEST_BLOCK_RECEIVE` (R538, R539). -/
def execDigestBlockReceive (line : LAddr) (b : DigestBlock) (s : State) : Out :=
  .next <|
    if !collLine line then s
    else
      let r := s.round line
      let key := (b.dim.val, b.coord.val, b.index)
      let wrong : Bool := crc32c b.body.data ≠ b.body.crc
      if wrong && r.tried key < 2 then
        (s.updRound line (·.retry key)).emit (.blockResend line (s.collPeer b.dim.val b.coord.val) b.index)
      else
        let b := if wrong then { b with status := if b.status.toNat < 2 then 2 else b.status } else b
        (s.updRound line fun r => { r with
          inbox := r.inbox ++ [b]
          tries := r.tries.filter (·.1 ≠ key) }).collRun line

/-- `SNAPSHOT_MARKER`: a member that has sent its partial up meets the marker (R536). -/
def execSnapshotMarker (line : LAddr) (s : State) : Out :=
  .next <|
    let r := s.round line
    if r.running && r.op = 6 && r.sentUp && !r.done && !r.ended then s.snapTake line else s

/-- `ROUND_COMPLETE`: once every write of the result has been accepted, status and word 7 are written, arrived falls to the early
arrivals and gen rises; enough early arrivals start the next round (R530, R531). -/
def execRoundComplete (line : LAddr) (s : State) : Out :=
  .next <|
    let r := s.round line
    if !r.running || !r.done then s
    else
      let w7 : W64 := match r.fail with
        | some (v, k, b) => BitVec.ofNat 64 (v.toNat + k % 16 * 2 ^ 12 + b % 2 ^ 32 * 2 ^ 32)
        | none => 0
      let s := s.collPut line 1 (withBits (withBits (s.collWord line 1) 39 36 r.status) 31 16 r.early)
      let s := (s.collPut line 7 w7).collPut line 0 (s.collWord line 0 + 1)
      (s.updRound line fun r => { r with running := false, early := 0 }).collTry line

/-- `CONTRIBUTION_FAIL_NOTICE`: the notice of another vertex (R540). -/
def execContributionFailNotice (_from : Vertex) (_step : BitVec 4) (block : W32) (s : State) : Out :=
  .next (s.failNotice block)

end Sys2Proof.Machine
end

