-- ==== Sys2Proof/Machine/Repair.lean ====
section
/-! DEFINITION. Self-repair: failed cores and takeovers (R563 to R569), checked intervals (R580, R586 to R588), screening (R590 to
R592), error records (R596, R597) and the defect ledger (R555 to R561). -/

namespace Sys2Proof.Machine

/-! ## Failed cores (R563 to R568) -/

/-- The record of a core-logic failure (R594: heartbeat 1, parity 2, supply 3). -/
def coreRecord (m : MC) (syn : W64) : ErrRec := { cls := 0x01, index := BitVec.ofNat 16 m.val, action := 0x03, syndrome := syn }

/-- Whether a context has issued or waited for 1 µs. -/
def State.busySince (s : State) (c : Cx) (ns : Nat) : Bool :=
  (s.ctx c).counts && decide (ns ≤ (s.now c.lc - (s.ctx c).since).toNat)

/-- `HEARTBEAT_TIMEOUT`: the uncore has seen no step boundary and no empty step for 1 µs while a context was issuing or waiting; it
probes the core (R564). Detection starts at the last step boundary (R565). The check is suspended for a core below Q0 or waking
(R607). -/
def execHeartbeatTimeout (lc : LC) (s : State) : Out :=
  .next <|
    let q := s.core lc
    if q.takeover.isSome || !s.coreUp lc || (s.now lc - q.stepAt).toNat < 1000 || !(ctxsOf lc).any (s.busySince · 1000) then s
    else s.setCore lc { q with takeover := some (.probing (s.now lc)), detectAt := some q.stepAt }

/-- `PROBE_TIMEOUT`: a core that has not answered its status probe within 0.6 µs is retired (R564). -/
def execProbeTimeout (lc : LC) (s : State) : Out :=
  .next <|
    match (s.core lc).takeover with
    | some (.probing t) =>
      if (s.now lc - t).toNat < 600 then s
      else
        let m := s.physOf lc
        (s.updCore lc fun q => { q with takeover := none }).retireCore (LC.cdie lc) m (coreRecord m 1) (s.detectStart lc)
    | _ => s

/-- `SUPPLY_OUT_OF_REGULATION` (R564). -/
def execSupplyOutOfRegulation (d : CDie) (m : MC) (s : State) : Out :=
  .next (s.retireCore d m (coreRecord m 3) (s.time (CDie.die d)))

/-- `PARITY_ERROR`: handled as an operand-check failure; a second one in the replay retires the core (R563, R106, R107). -/
def execParityError (c : Cx) (s : State) : Out :=
  .next <|
    if (s.ctx c).stream.isNone || (s.ctx c).replayDue || !s.coreUp c.lc then s
    else s.checkFailed c (coreRecord (s.physOf c.lc) 2) (s.ctx c).pc none true 0 0

/-- `SPARE_WAKE_COMPLETE`: the spare is in Q0 and the logical core is routed to it (R565 step 3). -/
def execSpareWakeComplete (lc : LC) (s : State) : Out :=
  .next <|
    match (s.core lc).takeover with
    | some (.waking m) =>
      let d := LC.cdie lc
      let s := s.setMc d m { s.mc d m with role := .active, hosts := [lc] }
      let s := (s.fset (rg .coreStatus lc.val) 4 0 m.val).fset (rg .coreStatus lc.val) 5 5 1
      s.updCore lc fun q => { q with takeover := some .catching, tlb := [], stepAt := s.now lc }
    | _ => s

/-- `REPLAY_CATCH_UP`: the restored streams have reached the point at which detection started; the core draws tokens again
(R567). -/
def execReplayCatchUp (lc : LC) (s : State) : Out :=
  .next <|
    match (s.core lc).takeover with
    | some .catching =>
      if (ctxsOf lc).any fun c => (s.ctx c).replayDue then s
      else s.updCore lc fun q => { q with takeover := none, detectAt := none }
    | _ => s

/-! ## Checked intervals (R586 to R588) -/

/-- Whether a checked primary stands at a point at which digests are compared: an operation that others can act on, or its commit
with the copy written (R587). -/
def State.atCheckPoint (s : State) (c : Cx) : Bool :=
  let k := s.ctx c
  k.stream.isSome && !k.replayDue && (match k.commit with
    | some j => j.entries.isSome
    | none => k.st = .waiting && k.wait = some .sync)

/-- The check run of a context replaced. -/
def State.setCheck (s : State) (c : Cx) (k : CheckRun) : State := s.updCtx c fun x => { x with check := some k }

/-- The digests agree at this point: the primary goes on. -/
def State.checkAgrees (s : State) (c : Cx) (k : CheckRun) : State :=
  s.setCheck c { k with agreed := true, runs := 0, digests := [] }

/-- The record of a disagreement (R588, R594). -/
def State.checkRecord (s : State) (c : Cx) (runs : Nat) : ErrRec :=
  { cls := 0x0E
    index := BitVec.ofNat 16 c.lc.val
    action := 0x02
    requester := Requester.code (.ctx c)
    stream := (s.ctx c).stream.getD 0
    count := BitVec.ofNat 16 runs
    syndrome := s.epoch c
    pc := (s.ctx c).pc }

/-- A physical core named by an arbitration is retired (R588 step 5). -/
def State.arbitrated (s : State) (c : Cx) (l : LC) : State :=
  s.retireCore (LC.cdie l) (s.physOf l) (s.checkRecord c 3) (s.now l)

/-- `CHECK_DIGEST_COMPARE`: the digest of the check stream, or of the arbiter as the third run, is compared with the primary's
(R587, R588; log entry 35). -/
def execCheckDigestCompare (c : Cx) (check : W64) (s : State) : Out :=
  .next <|
    match (s.ctx c).check with
    | none => s
    | some k =>
      if !s.atCheckPoint c || k.agreed then s
      else
        let mine := Config.crc64 k.log
        let st := rg .errCheckStats
        match k.digests with
        | [p, q] =>
          if check = p then ((s.checkAgrees c k).arbitrated c (s.checkLc c.lc))
          else if check = q then s.arbitrated c c.lc
          else ((s.bump st 63 60 1).updCtx c fun x => { x with check := none }).raise c .operandCheck (s.ctx c).pc 0
            0x8000000000000000
        | _ =>
          if mine = check then s.checkAgrees c k
          else
            let s := s.bump st 51 40 1
            if k.runs = 0 then
              (s.recover c (s.checkRecord c 1) .restart).setCheck c ⟨[], 1, [], false⟩
            else if s.freeSpds (LC.cdie c.lc) ≤ s.imagesUsed (LC.cdie c.lc) then s.arbitrated c c.lc
            else (s.bump st 59 52 1).setCheck c { k with runs := 2, digests := [mine, check] }

/-! ## Screening (R589 to R592) -/

/-- The field that shows whether a screening run is in progress. -/
def State.screenFlag (s : State) : State :=
  s.fset (rg .errScreen) 1 1 (if s.mcs.any fun x => x.2.screening.isSome then 1 else 0)

/-- `SCREENING_RUN`: the next loaded program starts on a physical core: one core of a die at a time, with a free scratchpad, and not
while the budget is 0 (R590, R591, R598; the share of time is not modelled, log entry 69). -/
def execScreeningRun (d : CDie) (m : MC) (s : State) : Out :=
  .next <|
    let k := s.mc d m
    let busy := (List.finRange 18).any fun x => (s.mc d x).screening.isSome
    if s.screening.isEmpty || s.fget (rg .errScreen) 11 8 = 0 || busy || k.leaving || (k.role ≠ .active && k.role ≠ .spare) ||
      s.freeSpds d ≤ s.imagesUsed d then s
    else (s.setMc d m { k with screening := some (k.screenNext % s.screening.length), screenRuns := 0 }).screenFlag

/-- The streams of the logical cores of a physical core that leaves service have all moved: the logical cores go to the spare that
was chosen, or are placed in degraded operation (R592). -/
def State.finishMove (s : State) (d : CDie) (m : MC) : State :=
  let k := s.mc d m
  let left := (k.hosts.flatMap ctxsOf).filter fun c => (s.ctx c).stream.isSome && c ∉ k.moved
  if !k.leaving || !left.isEmpty then s
  else
    let s := s.setMc d m { k with role := .retired, coreOk := false, hosts := [], leaving := false, moved := [], target := none }
    let s := k.hosts.foldl (fun s l => s.loseLogic l) s
    match k.target with
    | some x =>
      let s := s.setMc d x { s.mc d x with role := .active, hosts := k.hosts }
      (k.hosts.foldl (fun s l => (s.fset (rg .coreStatus l.val) 4 0 x.val).fset (rg .coreStatus l.val) 5 5 1) s).countSpares d
    | none => (k.hosts.foldl (fun s l => s.placeDegraded l (s.now l)) s).countSpares d

/-- A core that has failed a screening program twice leaves service: its record, its ledger entry, and the spare that its streams
will move to (R592). -/
def State.screenFailed (s : State) (d : CDie) (m : MC) (digest : BitVec 512) : State :=
  let k := s.mc d m
  let seq := (s.die (CDie.die d)).errSeq
  let s := s.logErr (CDie.die d) { cls := 0x0F
                                   index := BitVec.ofNat 16 m.val
                                   action := 0x0A
                                   count := 2
                                   syndrome := digest.setWidth 64 }
  let s := s.ledger ⟨0x01, BitVec.ofNat 5 d.val, BitVec.ofNat 16 m.val, 0, 1, 4, 0, s.flash.coldStarts, s.time (CDie.die d), seq⟩
  let spare := if k.hosts.length = 1 then (List.finRange 18).find? fun x => (s.mc d x).role = .spare && x ≠ m else none
  let s := match spare with
    | some x => s.setMc d x { s.mc d x with role := .waking, screening := none }
    | none => s
  ((s.setMc d m { s.mc d m with leaving := true, moved := [], target := spare, screening := none }).finishMove d m).countSpares d

/-- `SCREENING_RESULT`: a digest that differs runs the program again, and a second difference retires the core by planned
migration (R592). -/
def execScreeningResult (d : CDie) (m : MC) (digest : W64) (s : State) : Out :=
  .next <|
    let k := s.mc d m
    match k.screening.bind fun i => s.screening[i]? with
    | none => s
    | some p =>
      let s := s.bump (rg .errScreen) 31 16 1
      if digest = p.expected then
        (s.setMc d m { k with screening := none, screenRuns := 0, screenNext := k.screenNext + 1 }).screenFlag
      else
        let s := s.bump (rg .errScreen) 39 32 1
        if k.screenRuns = 0 then s.setMc d m { k with screenRuns := 1 }
        else ((s.setMc d m { k with screening := none, screenRuns := 0, screenNext := k.screenNext + 1 }).screenFailed d m
          p.digest).screenFlag

/-- `PLANNED_MIGRATION`: a stream of a core that leaves service moves at its commit point and is restored on its new core
(R592, R214). -/
def execPlannedMigration (c : Cx) (s : State) : Out :=
  .next <|
    let d := LC.cdie c.lc
    let m := s.physOf c.lc
    let k := s.mc d m
    let x := s.ctx c
    if !k.leaving || x.stream.isNone || c ∈ k.moved || x.sinceCommit ≠ 0 || x.commit.isSome || x.await.isSome then s
    else ((s.setMc d m { k with moved := k.moved ++ [c] }).rollback c .swapIn).finishMove d m

/-! ## Error records (R596, R597) -/

/-- Whether the error queue takes a record. -/
def State.errRoom (s : State) : Bool :=
  s.fget (rg .errLogBase) 63 63 = 1 &&
    decide ((BitVec.ofNat 32 (s.fget (rg .errLogHead) 31 0) - BitVec.ofNat 32 (s.fget (rg .errLogTail) 31 0)).toNat <
      2 ^ (s.fget (rg .errLogBase) 3 0 + 6))

/-- A record that its unit has kept goes into the holding store once that has room (R597). -/
def State.takeKept (s : State) : State :=
  match s.errKept with
  | r :: t => if s.errHeld.length < 256 then { s with errHeld := s.errHeld ++ [r], errKept := t } else s
  | [] => s

/-- `ERROR_RECORD_WRITE`: HD writes the oldest record, counts it and sends the MSI; while the queue is full or disabled, records
wait (R596, R597). -/
def execErrorRecordWrite (s : State) : Out :=
  .next <|
    match s.errHeld with
    | r :: t =>
      if s.errRoom then
        ({ s with errHeld := t }.queueRecord (rg .errLogBase) (rg .errLogHead) (rg .errLogTail) (rg .errLogMsi) r.bytes).takeKept
      else s
    | [] => s.takeKept

/-! ## The defect ledger (R555 to R561) -/

/-- The 32 bytes of a ledger entry (R557). -/
def LedgerEntry.bytes (e : LedgerEntry) : List W8 :=
  wordsBytes [BitVec.ofNat 64 (e.cls.toNat + e.die.toNat * 2 ^ 8 + e.index.toNat * 2 ^ 16 + e.sub.toNat * 2 ^ 32 +
      e.action.toNat * 2 ^ 48 + e.source.toNat * 2 ^ 52 + e.spare.toNat * 2 ^ 56),
    e.coldStarts.setWidth 64, e.time, e.errSeq.setWidth 64]

/-- A ledger entry from its bytes (R557). -/
def ledgerEntry (bs : List W8) : LedgerEntry :=
  let w (i : Nat) : W64 := leWord ((bs.drop (8 * i)).take 8)
  ⟨(w 0).setWidth 8, (w 0).extractLsb' 8 5, (w 0).extractLsb' 16 16, (w 0).extractLsb' 32 16, (w 0).extractLsb' 48 4,
    (w 0).extractLsb' 52 4, (w 0).extractLsb' 56 8, (w 1).setWidth 32, w 2, (w 3).setWidth 16⟩

/-- The number of entries of a block. -/
def blockCount (b : List W8) : Nat := (b.getD 7 0).toNat

/-- The signed bytes of a block. -/
def blockBody (b : List W8) : List W8 := b.take (0x60 + 32 * blockCount b)

/-- The bytes of a block up to the end of its signature. -/
def blockSigned (b : List W8) : List W8 := b.take (0x60 + 32 * blockCount b + 4627)

/-- The entries of a block. -/
def blockEntries (b : List W8) : List LedgerEntry :=
  (List.range (blockCount b)).map fun i => ledgerEntry ((b.drop (0x60 + 32 * i)).take 32)

/-- What is wrong with a block, as in R594: 3 its format, 2 its place in the chain, 1 its signature; none for a valid block
(R558, R559). `device` tells whether a device block has come before. -/
def blockFault (b : List W8) (seq : Nat) (prev : BitVec 512) (device : Bool) : Option Nat :=
  let signer := (b.getD 6 0).toNat
  let key := if signer = 0 then Config.ledgerKeyDigest else Config.identityKeyDigest
  if leNat (b.take 4) ≠ 0x4A4C4447 || leNat ((b.drop 4).take 2) ≠ 1 || 1 < signer || blockCount b = 0 || 64 < blockCount b ||
    BitVec.ofNat 128 (leNat ((b.drop 0x10).take 16)) ≠ Config.deviceSerial then some 3
  else if leNat ((b.drop 8).take 8) ≠ seq || BitVec.ofNat 512 (leNat ((b.drop 0x20).take 64)) ≠ prev ||
    (signer = 0 && device) then some 2
  else if !Config.mldsaVerify key (blockBody b) ((b.drop (0x60 + 32 * blockCount b)).take 4627) then some 1
  else none

/-- A ledger read block by block: the valid blocks, and the fault of the first that is not, with the blocks ignored (R559). -/
def readBlocksFrom (seq : Nat) (prev : BitVec 512) (device : Bool) : List (List W8) → List (List W8) × Option (Nat × Nat)
  | [] => ([], none)
  | b :: t =>
    match blockFault b seq prev device with
    | some f => ([], some (f, t.length + 1))
    | none =>
      let r := readBlocksFrom (seq + 1) (Config.sha3 (blockSigned b)) (device || b.getD 6 0 ≠ 0) t
      (b :: r.1, r.2)

/-- The blocks of the active half. -/
def Flash.active (f : Flash) : List (List W8) := if f.half then f.blocksB else f.blocksA

/-- The flash with the blocks of the active half replaced. -/
def Flash.setActive (f : Flash) (bs : List (List W8)) : Flash := if f.half then { f with blocksB := bs } else { f with blocksA := bs }

/-- The resource of an entry: class, die, index, sub-index. -/
def LedgerEntry.resource (e : LedgerEntry) : W8 × BitVec 5 × W16 × W16 := (e.cls, e.die, e.index, e.sub)

/-- The fields of `ERR_LEDGER` that follow from the ledger held (R598). -/
def State.ledgerFields (s : State) : State :=
  let r := rg .errLedger
  ((s.fset r 6 0 (min s.ledDigests.length 64)).fset r 7 7 (if s.flash.half then 1 else 0)).fset r 31 16
    (min (s.led.map LedgerEntry.resource).dedup.length 65535)

/-- The ledger read and verified at cold start: its entries count, and each block ignored writes a record but for an invalid last
block (R559). -/
def State.loadLedger (s : State) : State :=
  let bs := s.flash.active
  let r := readBlocksFrom 0 0 false bs
  let s := { s with
    led := r.1.flatMap blockEntries
    ledDigests := r.1.map fun b => Config.sha3 (blockSigned b) }
  let s := match r.2 with
    | none => s.fset (rg .errLedger) 39 32 0
    | some (f, n) =>
      let s := (s.fset (rg .errLedger) 39 32 (min n 255)).fset (rg .errStatus) 48 48 1
      if n = 1 then s
      else (List.range n).foldl (fun s i => s.logErr hd
        { cls := 0x10
          index := BitVec.ofNat 16 (r.1.length + i)
          action := 0x00
          syndrome := BitVec.ofNat 64 (if i = 0 then f else 2) }) s
  s.ledgerFields

/-- A device block with up to 64 entries, signed with the identity key (R556, R558). -/
def deviceBlock (seq : Nat) (prev : BitVec 512) (es : List LedgerEntry) : List W8 :=
  let body := leBytes 4 0x4A4C4447 ++ leBytes 2 1 ++ leBytes 1 1 ++ leBytes 1 es.length ++ leBytes 8 seq ++
    leBytes 16 Config.deviceSerial.toNat ++ leBytes 64 prev.toNat ++ es.flatMap LedgerEntry.bytes
  let bs := body ++ fit 4627 (Config.mldsaSign identityKey body)
  bs ++ List.replicate (8192 - bs.length) 0xFF

/-- Device blocks that hold some entries, 64 each, after a chain of blocks. -/
def deviceBlocks (seq : Nat) (prev : BitVec 512) : Nat → List LedgerEntry → List (List W8)
  | 0, _ => []
  | fuel + 1, es =>
    if es.isEmpty then []
    else
      let b := deviceBlock seq prev (es.take 64)
      b :: deviceBlocks (seq + 1) (Config.sha3 (blockSigned b)) fuel (es.drop 64)

/-- Compaction: the other half gets the Talwen blocks and device blocks with one entry for each resource still out of service,
and becomes active; the old half is erased (R561). -/
def State.compactLedger (s : State) : State :=
  let bs := (readBlocksFrom 0 0 false s.flash.active).1
  let talwen := bs.filter fun b => b.getD 6 0 = 0
  let prev := match talwen.getLast? with | some b => Config.sha3 (blockSigned b) | none => 0
  let one := s.led.foldl (fun (l : List LedgerEntry) e => if l.any fun x => LedgerEntry.resource x = LedgerEntry.resource e then l else l ++ [e]) []
  let new := talwen ++ deviceBlocks talwen.length prev 64 one
  let f := s.flash
  let f' : Flash := if f.half then { f with blocksA := new, blocksB := [], half := false }
    else { f with blocksB := new, blocksA := [], half := true }
  let s := { s with flash := f' }
  let r := (readBlocksFrom 0 0 false new).1
  ({ s with led := r.flatMap blockEntries, ledDigests := r.map fun b => Config.sha3 (blockSigned b) }).ledgerFields

/-- A block appended with up to 64 pending entries: it is written, read back and verified, and only then are its entries counted as
stored; a full half is compacted first. Nothing is signed while id_fail is set (R560, R561, R640). -/
def State.appendBlock (s : State) : State :=
  if s.ledgerPending.isEmpty || s.idFail then s
  else
    let s := if 64 ≤ s.flash.active.length then s.compactLedger else s
    let old := s.flash.active
    let valid := (readBlocksFrom 0 0 false old).1
    let prev := match valid.getLast? with | some b => Config.sha3 (blockSigned b) | none => 0
    let es := s.ledgerPending.take 64
    let b := deviceBlock valid.length prev es
    let s := { s with flash := s.flash.setActive (valid ++ [b]) }
    if (blockFault b valid.length prev (valid.any fun x => x.getD 6 0 ≠ 0)).isSome then s.fset (rg .errStatus) 48 48 1
    else ({ s with
      led := s.led ++ es
      ledDigests := s.ledDigests ++ [Config.sha3 (blockSigned b)]
      ledgerPending := s.ledgerPending.drop 64
      ledgerSince := s.time hd }).ledgerFields

/-- `LEDGER_APPEND`: at 64 pending entries or 10 s after the oldest; appends wait while a firmware handoff is under way (R560,
R685). -/
def execLedgerAppend (s : State) : Out :=
  .next <|
    let due := 64 ≤ s.ledgerPending.length ∨ 10000000000 ≤ (s.time hd - s.ledgerSince).toNat
    if decide due && !s.fw.handoff then s.appendBlock else s

end Sys2Proof.Machine
end

