-- ==== Sys2Proof/Machine/Power.lean ====
section
/-! DEFINITION. Power: quiescence states and transitions (R602 to R612), capping (R613 to R621), power groups (R622 to R628),
throttling (R629 to R631) and the stop sequence (R632 to R637). -/

namespace Sys2Proof.Machine

/-! ## Units under latency tolerance (R602 to R608) -/

/-- The die of a unit (R603). -/
def PUnit.die (u : PUnit) : Nat :=
  if u.val < 192 then u.val / 16 else if u.val < 208 then 12 + (u.val - 192) / 4 else if u.val < 224 then 12 + (u.val - 208) / 4
  else 16

/-- The states below Q0 that a unit may reach (R603). -/
def PUnit.states (u : PUnit) : List Nat :=
  let n := u.val
  if n < 192 then [1, 2, 3, 4] else if n < 208 then [1, 2] else if n < 288 then [1, 2, 3, 4] else if n < 300 then [1, 2]
  else if n < 304 then [2, 4] else [1, 2]

/-- The deepest state of a unit's row. -/
def PUnit.deepest (u : PUnit) : Nat := (PUnit.states u).foldl max 0

/-- The wake time of a state in units of 0.1 µs (R602). -/
def wakeUnits : Nat → Nat
  | 0 => 0 | 1 => 2 | 2 => 80 | 3 => 600 | _ => 20000

/-- The unit of a logical core. -/
def LC.unit (l : LC) : PUnit := Fin.castLE (by omega) l

/-- The logical core of a unit, if it is one. -/
def PUnit.lc (u : PUnit) : Option LC := if h : u.val < 192 then some ⟨u.val, h⟩ else none

/-- The status register of a unit. -/
def unitSt (u : PUnit) : Reg := rg .unitStatus u.val

/-- The state that a unit is in. -/
def State.ustate (s : State) (u : PUnit) : Nat := s.fget (unitSt u) 2 0
/-- An entry is in progress. -/
def State.entering (s : State) (u : PUnit) : Bool := s.fget (unitSt u) 4 4 = 1
/-- The entry is in its switch phase. -/
def State.switching (s : State) (u : PUnit) : Bool := s.fget (unitSt u) 5 5 = 1
/-- A wake is in progress. -/
def State.isWaking (s : State) (u : PUnit) : Bool := s.fget (unitSt u) 6 6 = 1
/-- The unit is enabled. -/
def State.unitEn (s : State) (u : PUnit) : Bool := s.fget (rg .unitCtl u.val) 32 32 = 1
/-- The unit's tolerance in units of 0.1 µs. -/
def State.unitTol (s : State) (u : PUnit) : Nat := s.fget (rg .unitCtl u.val) 31 0

/-- Whether the background writes and the store buffer of a logical core are empty. -/
def Core.quiet (q : Core) : Bool :=
  q.passes.isEmpty && q.drain.isNone && q.front.isNone && q.sb.isEmpty && q.copyQ.isEmpty && q.bg.isEmpty && q.ocMiss.isNone

/-- Whether a context does nothing but wait for a word or a barrier (R603). -/
def Context.restful (k : Context) : Bool :=
  (k.stream.isNone || (k.st = .waiting && (match k.await with | some a => a.kind = .wait || a.kind = .arrival | none => false))) &&
    k.epi.isEmpty && k.pro.isNone && k.rowfix.isNone && k.fills.isEmpty && k.commit.isNone && !k.replayDue

/-- Whether a unit is idle for a state of its row (R603). What the part does not hold of it (a request within the dwell, a hart in
WFI, a port in L1) is for the command to know. -/
def State.idleFor (s : State) (u : PUnit) (k : Nat) : Bool :=
  match (PUnit.lc u) with
  | some l => (s.core l).quiet && (s.core l).takeover.isNone && (ctxsOf l).all (fun c => (s.ctx c).restful) &&
      (k < 3 || (s.core l).streams.isEmpty)
  | none =>
    let n := u.val
    if n < 208 then
      let j : Stack := Fin.ofNat 16 (n - 192)
      (s.stack j).stripes.isEmpty && s.fget (rg .jsStatus j.val) 12 12 = 0
    else if 224 ≤ n && n < 288 then (k < 3 || s.hart (Fin.ofNat 64 (n - 224)) ≠ HartSt.running)
    else if 300 ≤ n && n < 304 then (k ≠ 4 || !(s.host.epUp && s.epPort = some (Fin.ofNat 16 (4 * (n - 300)))))
    else true

/-- The deepest state that a unit may enter now: its row's deepest when it is disabled, else the deepest whose wake time its
tolerance admits and for which it is idle (R604, R609). -/
def State.goal (s : State) (u : PUnit) : Nat :=
  if !s.unitEn u then (PUnit.deepest u)
  else ((PUnit.states u).filter fun k => wakeUnits k ≤ s.unitTol u && s.idleFor u k).foldl max 0

/-- The next state of a unit's row on the way to its goal (R602: entry passes through the states above). -/
def State.nextState (s : State) (u : PUnit) : Option Nat :=
  (PUnit.states u).find? fun k => decide (s.ustate u < k) && decide (k ≤ s.goal u)

/-- An entry begins, in its prepare phase (R611). One caused by a disable takes ready away at once. -/
def State.startEntry (s : State) (u : PUnit) (k : Nat) (byDisable : Bool) : State :=
  let s := (s.fset (unitSt u) 4 4 1).fset (unitSt u) 5 5 0
  let s := if byDisable then s.fset (unitSt u) 3 3 0 else s
  s.setUnit u { s.unit u with target := k, byDisable := byDisable, wakeAfter := false }

/-- Whether the prepare phase of an entry has nothing left to drain (R358, R454, R603). -/
def State.prepared (s : State) (u : PUnit) : Bool :=
  match (PUnit.lc u) with
  | some l => (s.core l).quiet
  | none => if u.val < 208 then (s.stack (Fin.ofNat 16 (u.val - 192))).stripes.isEmpty else true

/-- The scratchpad of a logical core loses its contents: every byte reads as one never written (R603; log entry 10). -/
def State.dropWindow (s : State) (l : LC) : State :=
  let inside (a : Nat) : Bool := decide (windowBase l ≤ a) && decide (a < windowBase l + 0x800000)
  { s with
    mem := s.mem.filter fun x => !inside x.1
    badWords := s.badWords.filter fun w => !inside (8 * w)
    softWords := s.softWords.filter fun w => !inside (8 * w) }

/-- The bits of `MSC_STATUS` bank_off follow the states of a base die's banks (R456). -/
def State.bankOff (s : State) (b : Nat) : State :=
  (List.range 4).foldl (fun s k =>
    s.fset (rg .mscStatus b) (1 + k) (1 + k) (if 3 ≤ s.fget (rg .unitStatus (208 + 4 * b + k)) 2 0 then 1 else 0)) s

/-- What the entry of a unit into a state loses or writes back (R358, R454, R603). -/
def State.enterEffect (s : State) (u : PUnit) (k : Nat) : State :=
  match (PUnit.lc u) with
  | some l =>
    let s := if 3 ≤ k then s.loseLogic l else s
    if k = 4 then s.dropWindow l else s
  | none =>
    let n := u.val
    if 208 ≤ n && n < 224 then
      if k < 3 then s
      else (List.range 4).foldl (fun s i => s.mscEmpty (Fin.ofNat 64 (4 * (n - 208) + i)) fun _ => true) s
    else if 224 ≤ n && n < 288 then
      if k < 3 then s else s.startFlush fun h => h.val = n - 224
    else s

/-- How many domains a unit powers up from a state (R599, R603). -/
def PUnit.domains (u : PUnit) (k : Nat) : Nat := if k < 3 then 0 else if u.val < 192 && k = 4 then 2 else 1

/-- The domains of a die that power up from Q3 or Q4 now. -/
def State.powering (s : State) (d : Nat) : Nat :=
  ((List.finRange 312).filter fun u => PUnit.die u = d && s.isWaking u).foldl (fun n u => n + PUnit.domains u (s.ustate u)) 0

/-- A wake starts, or waits while four domains of the die power up (R607, R608). -/
def State.startWake (s : State) (u : PUnit) : State :=
  let n := PUnit.domains u (s.ustate u)
  if n ≠ 0 && 4 < s.powering (PUnit.die u) + n then s.setUnit u { s.unit u with queued := true }
  else (s.fset (unitSt u) 6 6 1).setUnit u { s.unit u with queued := false, wakeAt := s.time (Fin.ofNat 17 (PUnit.die u)) }

/-- The unit is in Q0 and reports ready. A logical core takes the commands that its register path holds (R605, R612). -/
def State.inQ0 (s : State) (u : PUnit) : State :=
  let s := (s.fset (unitSt u) 2 0 0).fset (unitSt u) 3 3 1
  let s := if 208 ≤ u.val && u.val < 224 then s.bankOff ((u.val - 208) / 4) else s
  match (PUnit.lc u) with
  | some l => (s.updCore l fun q => { q with stepAt := s.now l }).sqDrain l
  | none => s

/-- A wake event that meets a unit in whatever state it is in. One that comes in the prepare phase of an entry chosen by tolerance
abandons the entry, and the unit is in Q0 at once (R612). -/
def State.wakeEvent (s : State) (u : PUnit) : State :=
  if s.entering u then
    if s.switching u then s.setUnit u { s.unit u with wakeAfter := true }
    else if (s.unit u).byDisable then s
    else
      let s := s.fset (unitSt u) 4 4 0
      if s.ustate u = 0 then s else s.inQ0 u
  else if s.isWaking u || (s.unit u).queued || s.ustate u = 0 then s
  else s.startWake u

/-- `QUIESCENCE_ENTRY`: a unit that is idle, or disabled, goes on toward its goal. While no entry is in progress one starts toward
the next state of the row; while one is, its prepare phase ends and its switch phase begins (R602, R604, R610, R611; log entry
70). -/
def execQuiescenceEntry (u : PUnit) (s : State) : Out :=
  .next <|
    if s.stoppedSeq || s.isWaking u || (s.unit u).queued then s
    else if s.entering u then (if s.switching u || !s.prepared u then s else s.fset (unitSt u) 5 5 1)
    else match s.nextState u with
      | none => s
      | some k =>
        let waits : Bool := match (PUnit.lc u) with | some l => !(s.core l).streams.isEmpty | none => false
        if !s.unitEn u && waits then s
        else (s.fset (unitSt u) 8 8 0).startEntry u k (!s.unitEn u)

/-- `ENTRY_COMPLETE`: the entry reaches its state. A wake that came in the switch phase follows, and so does a pending enable once
the shut-down has reached the deepest state (R611, R612). -/
def execEntryComplete (u : PUnit) (s : State) : Out :=
  .next <|
    if !s.entering u || !s.prepared u then s
    else
      let k := (s.unit u).target
      let s := if s.ustate u = 0 then s.bump (unitSt u) 47 16 1 else s
      let s := s.enterEffect u k
      let s := ((((s.fset (unitSt u) 2 0 k).fset (unitSt u) 3 3 0).fset (unitSt u) 4 4 0).fset (unitSt u) 5 5 0)
      let s := if 208 ≤ u.val && u.val < 224 then s.bankOff ((u.val - 208) / 4) else s
      let woken := (s.unit u).wakeAfter
      let s := s.setUnit u { s.unit u with wakeAfter := false }
      if (s.unit u).byDisable then
        if k < (PUnit.deepest u) then s.startEntry u (((PUnit.states u).find? (k < ·)).getD k) true
        else if s.fget (unitSt u) 7 7 = 1 then (s.fset (unitSt u) 7 7 0).startWake u
        else s
      else if woken then s.startWake u else s

/-- `UNIT_WAKE`: a wake event of R605. A disabled unit stays where it is, and a cache bank in Q3 or Q4 wakes only for a change of
its tolerance or enable. -/
def execUnitWake (u : PUnit) (s : State) : Out :=
  .next <|
    let bank : Bool := 208 ≤ u.val && u.val < 224
    if s.stoppedSeq || !s.unitEn u || (bank && decide (3 ≤ s.ustate u)) then s else s.wakeEvent u

/-- The next wake that waits on a die starts, when the domains allow (R608). -/
def State.nextWake (s : State) (d : Nat) : State :=
  match (List.finRange 312).find? fun u => PUnit.die u = d && (s.unit u).queued with
  | none => s
  | some u => s.startWake u

/-- `WAKE_COMPLETE`: the unit is in Q0 and reports ready; one that was disabled meanwhile shuts down instead, a logical core once it
has no stream left (R605, R610, R612). -/
def execWakeComplete (u : PUnit) (s : State) : Out :=
  .next <|
    if !s.isWaking u then s
    else
      let off := (s.unit u).offAfter
      let s := (s.fset (unitSt u) 6 6 0).setUnit u { s.unit u with offAfter := false }
      if off then
        let s := s.fset (unitSt u) 2 0 0
        let s := if 208 ≤ u.val && u.val < 224 then s.bankOff ((u.val - 208) / 4) else s
        let s := s.nextWake (PUnit.die u)
        let streams : Bool := match (PUnit.lc u) with | some l => !(s.core l).streams.isEmpty | none => false
        if streams then s.fset (unitSt u) 8 8 1 else s.startEntry u (((PUnit.states u).head?).getD 1) true
      else (s.inQ0 u).nextWake (PUnit.die u)

/-- `WAKE_TIMEOUT`: a logical core that has not reached Q0 in twice the wake time of its state: its physical core is retired
(R607). The unit then runs on another physical core; the syndrome of the record is not stated and is a free value. -/
def execWakeTimeout (lc : LC) (s : State) : Out :=
  .next <|
    let u := LC.unit lc
    if !s.isWaking u || (s.now lc - (s.unit u).wakeAt).toNat < 200 * wakeUnits (s.ustate u) then s
    else
      let m := s.physOf lc
      let s := ((s.fset (unitSt u) 2 0 0).fset (unitSt u) 6 6 0).fset (unitSt u) 3 3 1
      ((s.drawn.retireCore (LC.cdie lc) m (coreRecord m s.freeVal) (s.unit u).wakeAt).nextWake (PUnit.die u))

/-- en := 1 (R609, R612). -/
def State.unitEnable (s : State) (u : PUnit) : State :=
  let was := s.unitEn u
  let s := (s.fset (rg .unitCtl u.val) 32 32 1).fset (unitSt u) 8 8 0
  if s.stoppedSeq then s
  else if s.entering u && (s.unit u).byDisable then s.fset (unitSt u) 7 7 1
  else if s.isWaking u then s.setUnit u { s.unit u with offAfter := false }
  else if was && !s.entering u && s.ustate u = 0 then s
  else s.wakeEvent u

/-- en := 0 (R609, R610, R612). -/
def State.unitDisable (s : State) (u : PUnit) : State :=
  let s := s.fset (rg .unitCtl u.val) 32 32 0
  let streams : Bool := match (PUnit.lc u) with | some l => !(s.core l).streams.isEmpty | none => false
  if s.stoppedSeq then s
  else if s.fget (unitSt u) 7 7 = 1 then s.fset (unitSt u) 7 7 0
  else if s.isWaking u then s.setUnit u { s.unit u with offAfter := true }
  else if streams then s.fset (unitSt u) 8 8 1
  else
    let s := s.setUnit u { s.unit u with queued := false }
    if s.entering u then (s.fset (unitSt u) 3 3 0).setUnit u { s.unit u with byDisable := true, wakeAfter := false }
    else match (PUnit.states u).find? (s.ustate u < ·) with
      | none => s
      | some k => s.startEntry u k true

/-- `UNIT_ENABLE` (R609). -/
def execUnitEnable (u : PUnit) (s : State) : Out := .next (s.unitEnable u)

/-- `UNIT_DISABLE` (R609, R610). -/
def execUnitDisable (u : PUnit) (s : State) : Out := .next (s.unitDisable u)

/-- A new tolerance. One under which the state or the target of the unit no longer qualifies is a wake event; a higher one changes
an entry only after the dwell of the deeper state (R604, R605, R612). -/
def State.tolWrite (s : State) (u : PUnit) (tol : W32) : State :=
  let s := s.fset (rg .unitCtl u.val) 31 0 tol.toNat
  let k := if s.entering u then (s.unit u).target else s.ustate u
  if s.unitEn u && !s.stoppedSeq && decide (tol.toNat < wakeUnits k) then s.wakeEvent u else s

/-- `TOL_WRITE` (R604). -/
def execTolWrite (u : PUnit) (tol : W32) (s : State) : Out := .next (s.tolWrite u tol)

/-! ## Capping (R613 to R621) -/

/-- A figure of watts held within the bounds of R621. -/
def capClamp (w : Nat) : Nat := max 1400 (min w 5600)

/-- The lowest gap_rate, and its largest change per evaluation (R617). -/
def gapFloor : Nat := 0x333333
/-- The largest change of gap_rate per evaluation (R617). -/
def gapStep : Nat := 0x80000

/-- The bound of R143 at Tj 40 °C in thousandths of a step per ns, by supply in mV. -/
def cadence40 (mv : Nat) : Nat :=
  let t : List (Nat × Nat) := [(550, 800), (600, 1000), (650, 1190), (700, 1380), (720, 1480), (750, 1620), (800, 1840), (850, 2040)]
  ((t.zip (t.drop 1)).find? fun p => decide (p.1.1 ≤ mv) && decide (mv ≤ p.2.1)).elim (if mv < 550 then 0 else 2040) fun p =>
    p.1.2 + (p.2.2 - p.1.2) * (mv - p.1.1) / (p.2.1 - p.1.1)

/-- The lowest supply that firmware gives a die: 0.55 V, or in fixed-rate mode the guard band of R153 (R615, R620). -/
def State.supplyFloor (s : State) (d : Nat) : Nat :=
  if s.fget (rg .paceCtl d) 0 0 = 0 then 550
  else
    let want := 1030 * s.fget (rg .paceCtl d) 63 32
    (((List.range 61).map fun i => 550 + 5 * i).find? fun mv => decide (want ≤ cadence40 (mv - 50) * 2 ^ 24)).getD 850

/-- The supply of a compute die in mV. -/
def State.mv (s : State) (d : Nat) : Nat := (s.die (Fin.ofNat 17 d)).supplyMv
/-- The supply of a compute die set over the AVSBus. -/
def State.setMv (s : State) (d mv : Nat) : State :=
  if s.mv d = mv then s
  else (s.updDie (Fin.ofNat 17 d) fun k => { k with supplyMv := mv }).emit (.avsVoltage (Fin.ofNat 12 d) mv)

/-- The natural cadence of a compute die now, as firmware knows it (R617). -/
def State.natural (s : State) (d : Nat) : Nat :=
  (Config.naturalRate (Fin.ofNat 12 d) (s.mv d) (BitVec.ofNat 16 (s.fget (rg .therm d) 15 0)).toInt).toNat

/-- One more step of gaps on a die: they start at the natural cadence and fall to the floor (R617). -/
def State.lowerGap (s : State) (d : Nat) : State :=
  let r := rg .gap d
  if s.fget r 32 32 = 0 then (s.fset r 31 0 (max gapFloor (s.natural d))).fset r 32 32 1
  else s.fset r 31 0 (max gapFloor (s.fget r 31 0 - gapStep))

/-- One step less of gaps on a die: at its natural cadence they end (R617). -/
def State.raiseGap (s : State) (d : Nat) : State :=
  let r := rg .gap d
  if s.fget r 32 32 = 0 then s
  else if s.natural d ≤ s.fget r 31 0 + gapStep then s.fset r 32 32 0
  else s.fset r 31 0 (s.fget r 31 0 + gapStep)

/-- Whether gaps are at the floor on a die. -/
def State.gapAtFloor (s : State) (d : Nat) : Bool := s.fget (rg .gap d) 32 32 = 1 && s.fget (rg .gap d) 31 0 = gapFloor

/-- The compute dies. -/
def cdies : List Nat := List.range 12

/-- The effective cap at an evaluation (R613, R621). -/
def State.effCap (s : State) : Nat :=
  if s.fget (rg .shiftCtl) 0 0 = 1 then s.fget (rg .capStatus) 28 16 else capClamp (s.fget (rg .capCtl) 12 0)

/-- Firmware lowers power by one step: every supply above its floor by 5 mV, and once none is above, gaps (R615). -/
def State.lowerPower (s : State) : State :=
  if cdies.any fun d => s.supplyFloor d < s.mv d then
    cdies.foldl (fun s d => s.setMv d (max (s.supplyFloor d) (s.mv d - 5))) s
  else cdies.foldl (fun s d => s.lowerGap d) s

/-- Whether a die's supply may not be raised: it throttles, or a base die or HD does (R630). -/
def State.hot (s : State) (d : Nat) : Bool :=
  s.fget (rg .therm d) 32 32 = 1 || ((List.range 5).any fun i => s.fget (rg .therm (12 + i)) 32 32 = 1)

/-- Firmware raises power by one step: gaps first, and from the floor only at 97 % of the cap; then each supply, to vmax_mv
(R615, R619). -/
def State.raisePower (s : State) (mean cap vmax : Nat) : State :=
  if cdies.any fun d => s.fget (rg .gap d) 32 32 = 1 then
    cdies.foldl (fun s d => if s.hot d || (s.gapAtFloor d && decide (97 * cap < 100 * mean)) then s else s.raiseGap d) s
  else cdies.foldl (fun s d => if s.hot d then s else s.setMv d (max (s.supplyFloor d) (min vmax (s.mv d + 5)))) s

/-- The fields of `PMU_CAP_STATUS` that follow the gap registers. -/
def State.gapFields (s : State) : State :=
  let r := rg .capStatus
  (s.fset r 34 34 (if cdies.all s.gapAtFloor then 1 else 0)).fset r 35 35
    (if cdies.any fun d => s.fget (rg .gap d) 32 32 = 1 then 1 else 0)

/-- Whether every supply and every gap_rate is at its floor (R618, R620). -/
def State.allFloor (s : State) : Bool := cdies.all fun d => s.mv d ≤ s.supplyFloor d && s.gapAtFloor d

/-- Since when every supply and every gap_rate has been at its floor. -/
def State.markFloor (s : State) : State :=
  { s with floorSince := if s.allFloor then some (s.floorSince.getD (s.time hd)) else none }

/-- Whether the last 1 ms lies at the floor: R618 judges the mean of such a window (its worked example; log entry 86). -/
def State.longAtFloor (s : State) : Bool :=
  match s.floorSince with
  | some t => decide (1000000 ≤ (s.time hd - t).toNat)
  | none => false

/-- The cap cannot be met, or is met again; a change raises the interrupt of the management target (R618, R619, R702). -/
def State.unmet (s : State) (mean cap : Nat) : State :=
  let r := rg .capStatus
  let was := s.fget r 32 32
  if s.longAtFloor && decide (cap < mean) then
    let s : State := { (s.fset r 32 32 1).fset r 33 33 1 with pins := { s.pins with capUnmet := true } }
    if was = 0 then s.mgtAlert else s
  else if mean ≤ cap then
    let s : State := { s.fset r 32 32 0 with pins := { s.pins with capUnmet := false } }
    if was = 1 then s.mgtAlert else s
  else s

/-- The 10 µs of an evaluation counted toward unmet_ms. -/
def State.countUnmet (s : State) : State :=
  if s.fget (rg .capStatus) 32 32 = 0 then s
  else if s.unmetUs + 10 < 1000 then { s with unmetUs := s.unmetUs + 10 }
  else ({ s with unmetUs := 0 }).bump (rg .capStatus) 63 48 1

/-- The mean power of a millisecond, kept for the ten last (R625). -/
def State.logPower (s : State) (mean : Nat) : State :=
  if s.powerLog ≠ [] && (s.time hd - s.powerAt).toNat < 1000000 then s
  else { s with powerLog := (mean :: s.powerLog).take 10, powerAt := s.time hd }

/-- Whether a tripped stack holds the compute dies down (R426, R631). -/
def State.stackHold (s : State) : Bool := (List.range 16).any fun j => s.fget (rg .jsStatus j) 10 10 = 1

/-- Every compute die at 0.55 V with gap_rate at the floor (R631). -/
def State.holdDown (s : State) : State :=
  cdies.foldl (fun s d => ((s.setMv d 550).fset (rg .gap d) 31 0 gapFloor).fset (rg .gap d) 32 32 1) s

/-- `CAP_EVALUATION`: firmware's evaluation, with the package power of the last 10 µs and its mean over the last 1 ms, laser_w
included (R613 to R621, R631). None takes place during a firmware handoff (R685), nor after a stop. -/
def execCapEvaluation (power mean1ms : BitVec 13) (s : State) : Out :=
  .next <|
    if s.fw.handoff || s.stoppedSeq then s
    else
      let r := rg .capStatus
      let s := (s.logPower mean1ms.toNat).fset r 12 0 mean1ms.toNat
      let cap := s.effCap
      let s := s.fset r 28 16 cap
      let vmax := max 550 (min (s.fget (rg .capCtl) 41 32) 850)
      let s :=
        if s.stackHold then (s.fset r 37 37 1).holdDown
        else
          let s := s.fset r 37 37 0
          if cap < power.toNat then s.lowerPower
          else if cdies.any fun d => max vmax (s.supplyFloor d) < s.mv d then
            cdies.foldl (fun s d => s.setMv d (max (max vmax (s.supplyFloor d)) (s.mv d - 5))) s
          else if power.toNat < cap then s.raisePower mean1ms.toNat cap vmax
          else s
      ((s.gapFields.markFloor).unmet mean1ms.toNat cap).countUnmet

/-! ## Power groups (R622 to R628) -/

/-- Whether this device is in a power group. -/
def State.inGroup (s : State) : Bool := s.fget (rg .shiftCtl) 0 0 = 1

/-- The credit of a transfer in watts. -/
def State.stepW (s : State) : Nat := max 1 (s.fget (rg .shiftCtl) 35 28)
/-- The lowest effective cap. -/
def State.minW (s : State) : Nat := capClamp (s.fget (rg .shiftCtl) 48 36)
/-- The highest effective cap. -/
def State.maxW (s : State) : Nat := capClamp (s.fget (rg .shiftCtl) 61 49)

/-- The acceptance flag (R625). -/
def State.accepts (s : State) : Bool :=
  let eff := s.fget (rg .capStatus) 28 16
  let mean := if s.powerLog = [] then s.fget (rg .capStatus) 12 0 else s.powerLog.foldl (· + ·) 0 / s.powerLog.length
  s.fget (rg .capStatus) 36 36 = 0 && s.fget (rg .capStatus) 32 32 = 0 && decide (eff ≤ mean + 2 * s.stepW)

/-- The partner of a period: the dimensions rotate, and m runs from 1 to n − 1 over the periods spent in one (R623). -/
def State.partner (s : State) (p : Nat) : Option Vertex :=
  let ds := ([0, 1, 2] : List Nat).filter fun d => 1 < s.dimSize d
  if ds.isEmpty then none
  else
    let d := ds.getD (p % ds.length) 0
    let m := p / ds.length % (s.dimSize d - 1) + 1
    some (withCoord s.vertex d (coord s.vertex d ^^^ m))

/-- The message of this device in a period. -/
def State.creditMsg (s : State) (slack : W32) : CreditMsg :=
  { vertex := s.vertex
    group := BitVec.ofNat 12 (s.fget (rg .shiftCtl) 27 16)
    slackNs := slack
    effCap := BitVec.ofNat 13 (s.fget (rg .capStatus) 28 16)
    accept := s.accepts
    refusal := false }

/-- Both messages of a period are there: the member with more slack donates when R626 lets it, lowering its own cap before it sends
the credit (R626, R627). The partner's max_w is not in its message; the donor applies its own (log entry 71). -/
def State.exchange (s : State) (mine theirs : CreditMsg) : State :=
  let s := { s with shiftMine := none, shiftTheirs := none }
  let s := s.fset (rg .shiftStatus) 48 48 0
  let eff := s.fget (rg .capStatus) 28 16
  let w := s.stepW
  if theirs.slackNs.toNat + 1000 < mine.slackNs.toNat && theirs.accept && decide (s.minW + w ≤ eff) &&
      decide (theirs.effCap.toNat + w ≤ s.maxW) then
    ((s.fset (rg .capStatus) 28 16 (eff - w)).bump (rg .shiftStatus) 15 0 1).emit (.creditGrant theirs.vertex (BitVec.ofNat 8 w))
  else s

/-- The slack of this device: the mean of the window that monitor mon has published, its sum divided by its count, in whole ns; a
window without samples has no mean, and a free value stands for it (R623, R698; log entry 87). -/
def State.slack (s : State) : State × W32 :=
  let n := s.fget (rg .shiftCtl) 15 8
  let k := s.fget (rg .monRes n) 63 32
  if k = 0 then (s.drawn, s.freeVal.setWidth 32) else (s, BitVec.ofInt 32 ((s.reg (rg .monRSum n)).toInt / k))

/-- `POWER_CREDIT_EXCHANGE`: the message to the partner of the period, with the slack that monitor mon has measured; a partner that
has already sent its own is answered by it (R623, R624). -/
def execPowerCreditExchange (s : State) : Out :=
  .next <|
    if !s.inGroup then s
    else
      let p := s.shiftPhase
      let x := s.slack
      let s := x.1
      let slack := x.2
      let s := { s with shiftPhase := p + 1, shiftMine := none }
      match s.partner p with
      | none => { s.fset (rg .shiftStatus) 48 48 0 with shiftTheirs := none }
      | some v =>
        let m := s.creditMsg slack
        let s := (s.emit (.powerCredit v m)).fset (rg .shiftStatus) 48 48 1
        match s.shiftTheirs with
        | some t => if t.vertex = v then s.exchange m t else { s with shiftMine := some (v, m), shiftTheirs := none }
        | none => { s with shiftMine := some (v, m) }

/-- `POWER_CREDIT_MESSAGE`: a member answers by the rule of R626; a vertex that is not in the sender's group answers with a refusal
and changes nothing; a refusal ends the period's exchange (R624, R626). -/
def execPowerCreditMessage (m : CreditMsg) (s : State) : Out :=
  .next <|
    if m.refusal then
      match s.shiftMine with
      | some (v, _) => if v = m.vertex then { s.fset (rg .shiftStatus) 48 48 0 with shiftMine := none } else s
      | none => s
    else if !s.inGroup || s.fget (rg .shiftCtl) 27 16 ≠ m.group.toNat then
      s.emit (.powerCredit m.vertex { vertex := s.vertex
                                      group := m.group
                                      slackNs := 0
                                      effCap := 0
                                      accept := false
                                      refusal := true })
    else match s.shiftMine with
      | some (v, mine) => if v = m.vertex then s.exchange mine m else { s with shiftTheirs := some m }
      | none => { s with shiftTheirs := some m }

/-- The effective cap raised by some watts, at most to max_w (R626, R636). -/
def State.raiseCap (s : State) (w : Nat) : State :=
  s.fset (rg .capStatus) 28 16 (max (s.fget (rg .capStatus) 28 16) (min (s.fget (rg .capStatus) 28 16 + w) s.maxW))

/-- `CREDIT_ARRIVAL` (R627). -/
def execCreditArrival (from_ : Vertex) (watts : W8) (s : State) : Out :=
  .next <|
    if !s.inGroup then s
    else (((s.raiseCap watts.toNat).bump (rg .shiftStatus) 31 16 1)).emit (.creditAck from_)

/-- `RECONCILIATION`: this vertex gives its effective cap, or zero when it is no member, to the sum over the lattice; a member takes
its share of the shortfall of the sum against the budget, the lowest member the remainder too (R628). -/
def execReconciliation (sum budget members : W32) (lowest : Bool) (s : State) : Out :=
  .next <|
    let s := s.emit (.powerSum (if s.inGroup then BitVec.ofNat 32 (s.fget (rg .capStatus) 28 16) else 0))
    if !s.inGroup || members = 0 || budget.toNat ≤ sum.toNat then s
    else
      let short := budget.toNat - sum.toNat
      let w := short / members.toNat + (if lowest then short % members.toNat else 0)
      (s.raiseCap w).bump (rg .shiftStatus) 47 32 w

/-! ## Heat (R629 to R631) -/

/-- A step of throttling on a compute die: 5 mV of supply, then gaps (R630). -/
def State.throttleStep (s : State) (d : Nat) : State :=
  if s.supplyFloor d < s.mv d then s.setMv d (max (s.supplyFloor d) (s.mv d - 5)) else s.lowerGap d

/-- Throttling of a hot die, one step per 100 µs: a compute die its own supply, a base die or HD every supply, HD the host-core clock
too (R630). -/
def State.throttle (s : State) (d : Die) : State :=
  let k := s.die d
  if (k.time - k.thrAt).toNat < 100000 then s
  else
    let s := s.setDie d { k with thrAt := k.time }
    if d.val < 12 then s.throttleStep d.val
    else
      let s := cdies.foldl (fun s c => s.throttleStep c) s
      if d = hd then { s with host := { s.host with clockPct := max 10 (s.host.clockPct - 10) } } else s

/-- `THERMAL_SAMPLE`: Tj of a die; throttling from 95 °C until it falls to 92 °C (R629, R630). -/
def execThermalSample (d : Die) (tj : W16) (s : State) : Out :=
  .next <|
    let r := rg .therm d.val
    let s := s.fset r 15 0 tj.toNat
    let top := (BitVec.ofNat 16 (s.fget r 31 16)).toInt
    let s := if top < tj.toInt then s.fset r 31 16 tj.toNat else s
    let s := if 380 ≤ tj.toInt then
        let s := if s.fget r 32 32 = 0 then s.updDie d fun k => { k with thrAt := k.time - 100000 } else s
        (s.fset r 32 32 1).fset r 33 33 1
      else if tj.toInt ≤ 368 then
        let s := s.fset r 32 32 0
        if d = hd then { s with host := { s.host with clockPct := 100 } } else s
      else s
    let s := if s.fget r 32 32 = 1 && !s.fw.handoff && !s.stoppedSeq then s.throttle d else s
    (s.fset (rg .capStatus) 36 36 (if (List.range 17).any fun i => s.fget (rg .therm i) 32 32 = 1 then 1 else 0)).gapFields

/-! ## The stop sequence (R632 to R637) -/

/-- What stops within 100 µs: issue halts on every matrix core, and passes, chain runs, takeovers, commits and rebuilds under way are
abandoned; pending enables and transitions are discarded; the key slots are cleared and the probation of a firmware switch ends
(R612, R633, R635, R653, R687). Engines read `stoppedSeq` and start nothing. -/
def State.stopIssue (s : State) : State :=
  let s := (List.finRange 192).foldl (fun s l =>
    s.updCore l fun q => { q with halted := true, passes := [], drain := none, front := none, takeover := none }) s
  let idle (k : Context) : Context := { k with
    commit := none
    epi := []
    pro := none
    rowfix := none
    rowfixed := false
    sends := [] }
  let s : State := { s with ctxs := s.ctxs.map fun x => (x.1, idle x.2) }
  let s := (List.range 16).foldl (fun s j => s.fset (rg .jsStatus j) 12 12 0) s
  let s := (List.finRange 312).foldl (fun (s : State) u => s.fset (unitSt u) 8 4 0) ({ s with units := [] } : State)
  let s := if s.fget (rg .bootFwStatus) 2 2 = 1 then s.fset (rg .bootFwStatus) 3 2 0 else s
  { s with sec := { s.sec with slots := [], clearing := none } }

/-- HD starts the stop sequence; tripped changes in the telemetry (R633, R702). -/
def State.stopSequence (s : State) : State :=
  if s.stoppedSeq then s
  else
    let s := s.stopIssue.mgtAlert
    { s with stoppedSeq := true }

/-- `THERMAL_TRIP`: the comparator of a die at 110 °C (R632 to R634). The first die to trip is kept. -/
def execThermalTrip (d : Die) (s : State) : Out :=
  .next <|
    let r := rg .trip
    let s := if s.fget r 1 1 = 0 then s.fset r 6 2 d.val else s
    { (s.fset r 1 1 1).stopSequence with pins := { s.pins with thermtrip := true } }

/-- Whether a pulse of a filtered input is recognised: from `hi` ns up it is, below `lo` ns it is not, and between them the manual
leaves it open (R736, R738). -/
def State.recognised (s : State) (ns lo hi : Nat) : State × Bool :=
  if hi ≤ ns then (s, true) else if ns < lo then (s, false) else (s.drawn, s.freeVal.getLsbD 0)

/-- `COOLANT_FAIL`: the input has been low for some time; recognised, it starts the stop sequence (R633, R736). -/
def execCoolantFail (lowNs : Nat) (s : State) : Out :=
  .next <|
    let s := { s with pins := { s.pins with coolantFail := true } }
    if s.pins.pkgReset then s
    else
      let x := s.recognised lowNs 500 2000
      if x.2 then (x.1.fset (rg .trip) 0 0 1).stopSequence else x.1

/-- `STOP_RAIL_RELEASE`: the core rails of the compute dies and `VDDQ_JS` go: T1, every scratchpad and every stream are lost (R633,
R635). -/
def execStopRailRelease (s : State) : Out :=
  .next <|
    if !s.stoppedSeq then s
    else
      let lost (a : Nat) : Bool := regionOf a = .t1 || regionOf a = .window
      let halted : Core := { halted := true }
      { s with
        pins := { s.pins with vrCd := false, vrJs := false }
        mem := s.mem.filter fun x => !lost x.1
        poison := s.poison.filter (!lost ·)
        badWords := []
        softWords := []
        ctxs := []
        cores := (List.finRange 192).map fun l => (l, halted)
        msc := []
        jahel := s.jahel.map fun x => (x.1, { x.2 with stripes := [] })
        lines := s.lines.filter fun x => !lost x.1.toNat }

/-- `STOP_HOST_HALT`: the harts halt, the last-level cache writes back its dirty lines of T2 and drops the rest, and DDR enters
self-refresh (R633). -/
def execStopHostHalt (s : State) : Out :=
  .next <|
    if !s.stoppedSeq then s
    else
      let isLlc (r : Requester) : Bool := match r with | .llc _ => true | _ => false
      let owed := (s.lines.filter fun x => x.2.owner.any isLlc && decide (regionOf x.1.toNat = .t2)).map (·.1)
      { s with
        lines := s.lines.map fun x => (x.1, { x.2 with
          owner := if x.2.owner.any isLlc && decide (regionOf x.1.toNat ≠ .t2) then none else x.2.owner
          sharers := x.2.sharers.filter (!isLlc ·) })
        host := { s.host with
          harts := s.host.harts.map fun x => (x.1, if x.2 = .unavailable then x.2 else .stopped)
          selfRefresh := true
          flushing := (s.host.flushing ++ owed).dedup
          flushAt := s.time hd } }

end Sys2Proof.Machine
end

