-- ==== Sys2Proof/Machine/Startup.lean ====
section
/-! DEFINITION. Start-up (R660 to R676), resets (R535, R677 to R683) and the live firmware update (R684 to R687). -/

namespace Sys2Proof.Machine

/-! ## Stages (R671 to R676) -/

/-- Whether start-up is at a stage: out of reset, neither ready nor stopped by an error, a rail or the stop sequence (R671, R672). -/
def State.atStage (s : State) (k : Nat) : Bool :=
  let r := rg .bootStatus
  !s.pins.pkgReset && !s.stoppedSeq && s.fget r 4 4 = 0 && s.fget r 15 8 = 0 && s.fget r 16 16 = 0 && s.fget r 3 0 = k

/-- The stage in progress. -/
def State.toStage (s : State) (k : Nat) : State := s.fset (rg .bootStatus) 3 0 k

/-- Start-up stops with an error and leaves the stage as it is (R672). -/
def State.bootError (s : State) (e : Nat) : State := s.fset (rg .bootStatus) 15 8 e

/-- Ready set or cleared; a change raises the interrupt of the management target (R676, R702). -/
def State.setReady (s : State) (on : Bool) : State :=
  let r := rg .bootStatus
  let v := if on then 1 else 0
  if s.fget r 4 4 = v then s else (s.fset r 4 4 v).mgtAlert

/-- `BOOT_ROM_STAGE`: REFCLK and the PLLs, the straps, the flash and the two copies of the first stage; M0 and M1. A recovery boot waits
for a first stage from the mailbox (R643, R644, R664 to R666, R671, R672). -/
def execBootRomStage (b : BootRomInput) (s : State) : Out :=
  .next <|
    if !s.atStage 0 then s
    else
      let r := rg .bootStraps
      let boot := s.fget r 13 12
      let role := s.fget r 11 8
      let ends := ((List.range 4).filter fun q => role / 2 ^ q % 2 = 1).length
      if b.edges < 9500 || 10500 < b.edges || !b.pllLock then s.bootError 0x01
      else if 1 < ends || 2 ≤ boot then s.bootError 0x02
      else if boot = 0 && !b.flashOk then s.bootError 0x08
      else if boot = 1 && !s.fw.firstStageLoaded then s
      else if boot = 0 && !b.copyA && !b.copyB then s.bootError 0x04
      else ((s.extend 0 (digestBytes Config.bootRomDigest)).extend 1 (digestBytes b.headerDigest)).toStage 1

/-- New attestation and transport keys, and what ends with the old ones (R638, R642, R648). -/
def State.newKeys (s : State) (attest : Bool) : State :=
  { s with sec := { s.sec with
      attestGen := if attest then s.sec.attestGen + 1 else s.sec.attestGen
      transportGen := s.sec.transportGen + 1
      reports := [] } }

/-- `FIRST_STAGE`: the cold start is counted in the directory, the identity compared, and the boot bank or the other one chosen; M2
(R638 to R640, R644, R669, R673). -/
def execFirstStage (b : FirstStageInput) (s : State) : Out :=
  .next <|
    if !s.atStage 1 then s
    else
      let f := s.flash
      let s := { s with flash := { f with coldStarts := f.coldStarts + 1, dirSeq := f.dirSeq + 1 } }
      let s := s.fset (rg .bootStatus) 63 32 s.flash.coldStarts.toNat
      let s := s.fset (rg .secStatus) 1 0 (if b.idMatches then 1 else 2)
      let img (k : Bool) : FwImage := if k then b.bank1 else b.bank0
      let pick : Option Bool := if (img f.bootBank).verifies then some f.bootBank
        else if (img !f.bootBank).verifies then some !f.bootBank else none
      match pick with
      | none => s.bootError 0x05
      | some k =>
        let n (x : Bool) : Nat := if x then 1 else 0
        let x := img k
        let s := (s.extend 2 (digestBytes x.headerDigest)).newKeys true
        let s := (s.fset (rg .secStatus) 2 2 (n k)).fset (rg .secStatus) 63 32 x.svn.toNat
        let st := rg .bootFwStatus
        let s := (((s.fset st 0 0 (n k)).fset st 1 1 (n f.bootBank)).fset st 4 4 (n (k != f.bootBank))).fset st 63 32
          (img !k).svn.toNat
        { s with
          fw := { s.fw with newDigest := x.headerDigest, oldDigest := (img !k).headerDigest }
          flash := { s.flash with images := [(false, b.bank0), (true, b.bank1)] } }.toStage 2

/-- `LEDGER_READ`: stage 0x2 (R559, R671). -/
def execLedgerRead (s : State) : Out := .next (if s.atStage 2 then s.loadLedger.toStage 3 else s)

/-- Every regulator enable of steps 4 to 7. -/
def State.enables (s : State) (on : Bool) : State :=
  { s with pins := { s.pins with vrBase := on, vrOpt := on, vrJs := on, vrCd := on } }

/-- `RAIL_SEQUENCE`: each compute rail is set to 0.72 V and steps 4 to 7 come up in order, or one of them misses its power-good (R660,
R663, R672). -/
def execRailSequence (good : Bool) (s : State) : Out :=
  .next <|
    if !s.atStage 3 then s
    else if !good then ((s.bootError 0x03).fset (rg .bootStatus) 16 16 1).enables false
    else
      let s := (List.finRange 12).foldl (fun s d =>
        (s.updDie (CDie.die d) fun k => { k with supplyMv := 720 }).emit (.avsVoltage d 720)) s
      (s.enables true).toStage 4

/-- Whether the ledger, or a failure of this start-up, keeps a resource out of service (R550, R551). -/
def State.outOfService (s : State) (cls : Nat) (d i : Nat) (sub : Option Nat) : Bool :=
  (s.led ++ s.ledgerPending).any fun e => e.cls.toNat = cls && e.die.toNat = d && e.index.toNat = i &&
    (match sub with | none => true | some j => e.sub.toNat = j)

/-- A wire remapped at training, as the ledger has it: its group takes its spare, and a second wire of a group disables it (R546). -/
def State.wireFromLedger (s : State) (d : Die) (n : Fin 6) (wire : Nat) : State :=
  let g := wire / 33
  let k := s.chd d n
  let st := rg .chdStatus d.val n.val
  if chordGroups d n ≤ g || g ∈ k.disabled then s
  else if g ∈ k.spareUsed then
    (((s.setChd d n { k with disabled := k.disabled ++ [g] }).fset st 11 6 (s.fget st 11 6 - 1)).fset st 19 19 1).setDegraded 3 true
  else (s.setChd d n { k with spareUsed := k.spareUsed ++ [g] }).fset st 17 12 (k.spareUsed.length + 1)

/-- `CHORD_TRAINING`: every connection trains, with the wire remaps of the ledger (R541, R546, R671). -/
def execChordTraining (s : State) : Out :=
  .next <|
    if !s.atStage 4 then s
    else
      let conns : List (Die × Fin 6) := (List.finRange 17).flatMap fun d =>
        ((List.finRange 6).filter fun n => decide (n.val < chdConns d.val)).map fun n => (d, n)
      let s := conns.foldl (fun s c =>
        let st := rg .chdStatus c.1.val c.2.val
        ((s.setChd c.1 c.2 {}).fset st 5 0 (chordGroups c.1 c.2)).fset st 11 6 (chordGroups c.1 c.2)) s
      let s := (s.led.filter fun e => decide (e.cls = 0x06) && decide (e.die.toNat < 17) && decide (e.index.toNat < 6)).foldl (fun s e =>
        s.wireFromLedger (Fin.ofNat 17 e.die.toNat) (Fin.ofNat 6 e.index.toNat) e.sub.toNat) s
      s.toStage 5

/-- `SELF_TEST`: every unit is tested; a failure that no valid entry records is appended to the ledger with source 0x2 (R549, R551). -/
def execSelfTest (fails : List LedgerEntry) (s : State) : Out :=
  .next <|
    if !s.atStage 5 then s
    else
      let s := fails.foldl (fun s e =>
        if s.led.any fun x => LedgerEntry.resource x = LedgerEntry.resource e then s
        else s.ledger { e with source := 2, coldStarts := s.flash.coldStarts }) s
      s.toStage 6

/-- The ways of the operand cache of a physical core that are out of service. -/
def State.badWays (s : State) (d : CDie) (m : MC) : List Nat :=
  (List.range 8).filter fun w => s.outOfService 3 d.val m.val (some w)

/-- Whether the core logic of a physical core is in service (R137, R550). -/
def State.coreGood (s : State) (d : CDie) (m : MC) : Bool :=
  !s.outOfService 1 d.val m.val none && decide ((s.badWays d m).length ≤ 1)

/-- The assignment of a compute die (R137, R552, R570). -/
def State.assignDie (s : State) (d : CDie) : State :=
  let spd (m : MC) : Bool := !s.outOfService 2 d.val m.val none
  let good := (List.finRange 18).filter fun m => s.coreGood d m && spd m
  let place (m : MC) : McSt :=
    let i := good.idxOf m
    { role := if m ∉ good then .retired else if i < 16 then .active else .spare
      hosts := if m ∈ good ∧ i < 16 then [Fin.ofNat 192 (16 * d.val + i)] else []
      coreOk := s.coreGood d m
      spdOk := spd m }
  let s := (List.finRange 18).foldl (fun s m => s.setMc d m (place m)) s
  let s := (lcsOf d).foldl (fun s l =>
    match good[l.val % 16]? with
    | none => s
    | some m =>
      let ways := (s.badWays d m).foldl (fun n w => n + 2 ^ w) 0
      (((s.fset (rg .coreStatus l.val) 4 0 m.val).fset (rg .coreStatus l.val) 5 5 (if 16 ≤ m.val then 1 else 0)).fset
        (rg .coreStatus l.val) 6 6 0).fset (rg .coreOcCtl l.val) 7 0 ways) s
  let s := ((lcsOf d).filter fun l => decide (good.length ≤ l.val % 16)).foldl (fun s l =>
    (s.placeDegraded l (s.now l)).updCore l fun q => { q with takeover := none, detectAt := none }) s
  s.countSpares d

/-- A way of the memory-side cache that the ledger retires: a spare way stands in for it while one is left (R455, R550). -/
def State.wayFromLedger (s : State) (h : Slice) (way : Nat) : State :=
  let r := rg .mscWays h.val
  if 26 ≤ way || s.fget r way way = 0 then s
  else
    let spare : Option Nat := if s.fget r 25 25 = 1 then none else if s.fget r 24 24 = 1 then some 25 else some 24
    let s := s.fset r way way 0
    match spare with
    | some w => (s.fset r w w 1).bump (rg .mscStatus (Slice.bdie h).val) 21 16 1
    | none => s.setDegraded 6 true

/-- `CORE_ASSIGNMENT`: the physical cores of every compute die, the repairs of the ledger, and the append of what self-test has found
(R137, R552, R560, R671). -/
def execCoreAssignment (s : State) : Out :=
  .next <|
    if !s.atStage 6 then s
    else
      let s := (List.finRange 12).foldl (fun s d => s.assignDie d) s
      let s := ((s.led ++ s.ledgerPending).filter fun e => decide (e.cls = 0x05) && decide (e.index.toNat < 64)).foldl (fun s e =>
        s.wayFromLedger (Fin.ofNat 64 e.index.toNat) e.sub.toNat) s
      let spds := ((List.finRange 12).flatMap fun d => (List.finRange 18).filter fun m => (s.mc d m).spdOk).length
      let s := s.fset (rg .errSpares) 37 32 (min (spds - 192) 63)
      s.appendBlock.toStage 7

/-- A channel of a stack that the ledger or self-test has failed, at training: the spare that the ledger names replaces it, else the
lowest-numbered spare left; without one the stack runs degraded (R434, R437, R438; log entry 73). -/
def State.chanFromLedger (s : State) (j : Stack) (e : LedgerEntry) : State :=
  let map := rg .jsSpareMap j.val
  let st := rg .jsStatus j.val
  let used (i : Nat) : Bool := s.fget map (8 * i + 7) (8 * i) ≠ 0xFF
  let taken : Bool := (List.range 8).any fun i => s.fget map (8 * i + 7) (8 * i) = e.sub.toNat
  if taken || 0x88 ≤ e.sub.toNat then s
  else
    let spare : Option Nat := if e.action = 2 && decide (e.spare.toNat < 8) && !used e.spare.toNat then some e.spare.toNat
      else (List.range 8).find? (!used ·)
    match spare with
    | some i => (s.fset map (8 * i + 7) (8 * i) e.sub.toNat).fset st 19 16 (s.fget st 19 16 + 1)
    | none =>
      let s := s.setStack j { s.stack j with failed := (s.stack j).failed ++ [⟨BitVec.ofNat 8 e.sub.toNat, none, 0⟩] }
      (s.fset st 11 11 1).setDegraded 2 true

/-- T1 holds zeros, and no cache or home state of its lines is left (R671). -/
def State.zeroT1 (s : State) : State :=
  let t1 (a : Nat) : Bool := regionOf a = .t1
  { s with
    mem := s.mem.filter fun x => !t1 x.1
    poison := s.poison.filter (!t1 ·)
    lines := s.lines.filter fun x => !t1 x.1.toNat
    msc := []
    jahel := s.jahel.map fun x => (x.1, { x.2 with stripes := [] }) }

/-- `JAHEL_TRAINING`: the stacks train, firmware writes the spare maps from the ledger where map_lock allows, and T1 is zeroed (R456,
R671). -/
def execJahelTraining (s : State) : Out :=
  .next <|
    if !s.atStage 7 then s
    else
      let s := ((s.led ++ s.ledgerPending).filter fun e => decide (e.cls = 0x04) && decide (e.index.toNat < 16)).foldl (fun s e =>
        let j : Stack := Fin.ofNat 16 e.index.toNat
        if s.fget (rg .jsCtl j.val) 41 41 = 1 then s else s.chanFromLedger j e) s
      s.zeroT1.toStage 8

/-- The speeds of R462 for a DIMM type and a number of DIMMs per channel, in MT/s. -/
def dimmSpeeds (mrdimm : Bool) (perChannel : Nat) : List Nat :=
  if mrdimm then (if perChannel = 1 then [8800, 8000] else if perChannel = 2 then [8000] else [])
  else if perChannel = 1 then [6400, 5600, 4800] else if perChannel = 2 then [5600, 4800] else []

/-- The speed at which a population of DIMMs runs, if R462 and R463 allow it. -/
def ddrSpeed (ds : List Dimm) : Option Nat :=
  match ds.head? with
  | none => none
  | some x =>
    let same := ds.all fun y => y.mrdimm = x.mrdimm && y.perChannel = x.perChannel && y.ranks = x.ranks && y.gib = x.gib
    let size := decide ((if x.mrdimm then 32 else 16) ≤ x.gib) && decide (x.gib ≤ 128)
    if same && size then (dimmSpeeds x.mrdimm x.perChannel).find? fun v => ds.all fun y => y.speeds.contains v else none

/-- Before stage 0x9 the lattice configuration is loaded into `FCT_SHAPE`, and the links that it uses are enabled and begin to train
(R508, R511, R674). -/
def State.loadShape (s : State) : State :=
  let cfg := match s.latticeCfg with
    | some c => some c
    | none => s.flash.lattice
  let s := if s.fget (rg .fctShape) 63 63 = 1 then s
    else s.setReg (rg .fctShape) (withBits (s.reg (rg .fctShape)) 23 0 ((cfg.map BitVec.toNat).getD 0))
  let s := s.shapeApply
  (List.finRange 48).foldl (fun s k =>
    if s.fget (rg .linkStatus k.val) 5 5 = 1 then s else s.fset (rg .linkCtl k.val) 0 0 1) s

/-- `DDR_TRAINING`: the population of the channels, its speed, and training; the ranks leave self-refresh without clearing (R462 to
R464, R496, R672). -/
def execDdrTraining (dimms : List (Option Dimm)) (trained : Bool) (s : State) : Out :=
  .next <|
    if !s.atStage 8 then s
    else
      let chans := (List.range 12).filter fun i => (dimms.getD i none).isSome
      let ds := (List.range 12).filterMap fun i => dimms.getD i none
      if chans ≠ List.range 12 && chans ≠ [0, 2, 4, 6, 8, 10] then s.bootError 0x06
      else match ddrSpeed ds, ds.head? with
        | some v, some x =>
          if !trained then s.bootError 0x07
          else
            let s := { s with host := { s.host with
              ddrChannels := chans
              ddrBytes := chans.length * x.perChannel * x.gib * 2 ^ 30
              ddrSpeed := v
              selfRefresh := false } }
            s.loadShape.toStage 9
        | _, _ => s.bootError 0x06

/-- `FACET_TRAINING`: the stage ends; a link in use that is still down is a failed link, and goes on training (R503, R675). Lanes that
the ledger has retired stay out of service (R550). -/
def execFacetTraining (s : State) : Out :=
  .next <|
    if !s.atStage 9 then s
    else
      let s := (List.finRange 48).foldl (fun (s : State) k =>
        let r := rg .linkStatus k.val
        let bad := ((List.range 2).filter fun l => s.outOfService 7 (Link.die k).val k.val (some l)).foldl (fun n l => n + 2 ^ l) 0
        let s := s.fset r 1 0 (s.fget r 1 0 &&& (3 ^^^ bad))
        let down : Nat := if s.fget r 1 0 = 0 ∨ s.fget r 4 4 = 1 then 1 else 0
        if s.fget r 5 5 = 1 then s else s.fset r 2 2 down) s
      s.routes.toStage 10

/-- The harts after a start: the 64 lowest-numbered good host cores in ascending order, the other good ones spares; fewer than 64 leave
the package degraded (R458, R550). -/
def State.startHarts (s : State) : State :=
  let good := (List.range 72).filter fun p => !s.outOfService 8 16 p none
  let n := min 64 good.length
  let s := { s with host := { s.host with
    harts := (List.range n).map fun i => (i, .running)
    phys := (List.range n).map fun i => (i, good.getD i 0)
    spares := good.drop 64 } }
  (s.setDegraded 5 (decide (good.length < 64))).fset (rg .errSpares) 27 24 (min (good.length - 64) 8)

/-- `HOST_START`: the offsets of the dies, the host firmware measured into M3, the harts, the range of T1 behind the HDM window of an
endpoint, and ready: every unit is in Q0 and the launches held meanwhile are performed (R163, R458, R472, R610, R644, R676). -/
def execHostStart (offs : List (W64 × W64 × W64 × W64)) (hostDigest : BitVec 512) (s : State) : Out :=
  .next <|
    if !s.atStage 10 then s
    else
      let s := (List.range (min offs.length 17)).foldl (fun s d =>
        let o := offs.getD d (0, 0, 0, 0)
        s.publishOffset d o.1 o.2.1 o.2.2.1 o.2.2.2) s
      let s := (s.extend 3 (digestBytes hostDigest)).startHarts
      let s := { s with fw := { s.fw with hostDigest := hostDigest, hostBank := s.fget (rg .bootFwStatus) 0 0 = 1 } }
      let base : LAddr := BitVec.ofNat 44 (s.freeVal.toNat % 513 * 2 ^ 30)
      let s := if s.epPort.isSome then { s.drawn with host := { s.host with hdmBase := some base } } else s
      let s := (List.finRange 312).foldl (fun s u => s.fset (unitSt u) 3 3 1) s
      let s := (s.toStage 15).setReady true
      (List.finRange 192).foldl (fun s l => (s.updCore l fun q => { q with stepAt := s.now l }).sqDrain l) s

/-! ## Package resets (R661 to R665, R677, R678, R681, R683) -/

/-- A package cold reset: everything but the board flash and `PMU_TRIP` is at its state after reset (R637, R677, R683). What lies
outside the part stays as it is: the straps' levels, the laser feeds, the pins driven from outside. The queue, the count of draws,
the numbers of key generations and what has been sent are the model's own. -/
def State.coldReset (s : State) (byPin : Bool) : State :=
  let fresh : State := State.reset
  let s' : State := { fresh with
    pending := s.pending
    draws := s.draws
    out := s.out
    flash := s.flash
    tap := s.tap
    laserA := s.laserA
    laserB := s.laserB
    sec := { attestGen := s.sec.attestGen, transportGen := s.sec.transportGen }
    pins := { s.pins with
      pkgReset := byPin
      vrBase := false
      vrOpt := false
      vrJs := false
      vrCd := false
      capUnmet := false
      thermtrip := s.pins.thermtrip && !byPin
      mgtAlert := false }
    regs := [(rg .trip, s.reg (rg .trip)), (rg .bootStraps, s.reg (rg .bootStraps))] }
  s'.fset (rg .bootStatus) 7 5 (if byPin then 1 else 2)

/-- `PACKAGE_COLD_RESET` (R677). -/
def execPackageColdReset (byPin : Bool) (s : State) : Out := .next (s.coldReset byPin)

/-- `PKG_RESET_N_ASSERT`: recognised, the package is in a cold reset with its regulator enables released (R662, R738). -/
def execPkgResetNAssert (lowNs : Nat) (s : State) : Out :=
  .next <|
    if s.pins.pkgReset then s
    else
      let x := s.recognised lowNs 1000 10000
      if x.2 then x.1.coldReset true else x.1

/-- `PKG_RESET_N_RELEASE`: the straps are sampled and start-up begins (R661, R665). -/
def execPkgResetNRelease (straps : BitVec 16) (s : State) : Out :=
  .next <|
    if !s.pins.pkgReset then s
    else { s with pins := { s.pins with pkgReset := false } }.setReg (rg .bootStraps) (straps.setWidth 64)

/-- The bits of a register that keep their values through a package warm reset (R683, with the counts that run since the last package
cold reset). -/
def RegKind.warmKept (k : RegKind) : W64 :=
  let field (hi lo : Nat) : W64 := BitVec.ofNat 64 (2 ^ (hi + 1) - 2 ^ lo)
  k.maskOf [.rwl] ||| match k with
    | .pmuTime | .toff | .trip | .coreOcCtl | .errSpares | .errLedger | .bootFwCtl | .bootFwStatus | .bootStraps => BitVec.allOnes 64
    | .coreStatus => field 6 0
    | .secStatus => field 2 0 ||| field 63 32
    | .bootStatus | .coreSpdScrub | .jsStatus => field 63 32
    | _ => 0

/-- The registers after a package warm reset. -/
def State.warmRegs (s : State) : Tbl Reg W64 :=
  s.regs.map fun x => (x.1, (x.2 &&& x.1.kind.warmKept) ||| (x.1.kind.resetValue &&& ~~~x.1.kind.warmKept))

/-- A package warm reset: T1, the scratchpads, the streams, key slots, M3 to M7 and the logs, the caches after write-back of dirty T2
lines, and the links are discarded; T2, the repairs, the ledger, M0 to M2, time and the management firmware are kept; stages 0x7
to 0xA follow (R496, R644, R646, R653, R677, R678, R683). It overrides smaller resets, and a second one in progress has no effect
(R681). -/
def State.warmReset (s : State) (byLattice : Bool) : State :=
  if s.fget (rg .bootStatus) 4 4 = 0 || s.stoppedSeq || s.pins.pkgReset then s
  else
    let lost (a : Nat) : Bool := regionOf a = .t1 || regionOf a = .window
    let isHost (r : Requester) : Bool := match r with | .hart _ | .llc _ => true | _ => false
    let owed := (s.lines.filter fun x => x.2.owner.any isHost && !lost x.1.toNat).map (·.1)
    let clean (l : Line) : Line := { l with
      sharers := l.sharers.filter (!isHost ·)
      txn := none
      waiting := [] }
    let die (k : DieSt) : DieSt := { time := k.time, supplyMv := k.supplyMv, errSeq := k.errSeq }
    let role (k : McSt) : McSt := { role := if k.role = .waking then .spare else k.role
                                    hosts := k.hosts
                                    coreOk := k.coreOk
                                    spdOk := k.spdOk }
    let fresh : State := State.reset
    let s' : State := { fresh with
      pending := s.pending
      draws := s.draws
      out := s.out
      regs := s.warmRegs
      mem := s.mem.filter fun x => !lost x.1
      poison := s.poison.filter (!lost ·)
      cnt := s.cnt
      dies := s.dies.map fun x => (x.1, die x.2)
      mcs := s.mcs.map fun x => (x.1, role x.2)
      lines := (s.lines.filter fun x => !lost x.1.toNat).map fun x => (x.1, clean x.2)
      jahel := s.jahel.map fun x => (x.1, { x.2 with stripes := [] })
      laserA := s.laserA
      laserB := s.laserB
      laserOut := s.laserOut
      latticeSeqSent := s.latticeSeqSent
      latticeSeen := s.latticeSeen
      chord := s.chord
      errHeld := s.errHeld
      errKept := s.errKept
      led := s.led
      ledDigests := s.ledDigests
      ledgerPending := s.ledgerPending
      ledgerSince := s.ledgerSince
      sec := { m := s.sec.m.filter fun x => decide (x.1 < 3)
               attestGen := s.sec.attestGen
               transportGen := s.sec.transportGen }
      flash := s.flash
      fw := s.fw
      mgt := s.mgt
      tap := s.tap
      pins := { s.pins with capUnmet := false }
      host := { flushing := (s.host.flushing ++ owed).dedup
                flushAt := s.time hd
                selfRefresh := true
                ddrChannels := s.host.ddrChannels
                ddrBytes := s.host.ddrBytes
                ddrSpeed := s.host.ddrSpeed
                ddrScrubs := s.host.ddrScrubs
                epReady := s.host.epReady }
      latticeCfg := s.latticeCfg }
    let s' := (((s'.newKeys true).fset (rg .bootStatus) 7 5 (if byLattice then 4 else 3)).toStage 7)
    s'.mgtAlert

/-- `PACKAGE_WARM_RESET` (R677, R678). -/
def execPackageWarmReset (byLattice : Bool) (s : State) : Out := .next (s.warmReset byLattice)

/-! ## Lattice reset (R535, R679) -/

/-- A lattice reset sent over some dimensions. -/
def State.sendReset (s : State) (dims : List Nat) (seq : W16) : State := dims.foldl (fun s d => s.emit (.latticeReset d seq)) s

/-- The populated dimensions. -/
def State.popDims (s : State) : List Nat := ([0, 1, 2] : List Nat).filter fun d => decide (1 < s.dimSize d)

/-- Kind 0b110 of `BOOT_RESET`: the reset goes to the peers of the first populated dimension, and this device does a package warm
reset itself (R535, R679). -/
def State.latticeReset (s : State) : State :=
  let seq := s.latticeSeqSent + 1
  let s := { s with latticeSeqSent := seq, latticeSeen := some seq }
  (s.sendReset (s.popDims.take 1) seq).warmReset true

/-- `LATTICE_RESET` (R679). -/
def execLatticeReset (s : State) : Out := .next s.latticeReset

/-- `LATTICE_RESET_RECEIVE`, from a peer in a dimension: a repeated copy is ignored; any other is forwarded over the next populated
dimension (log entry 74) and causes a package warm reset, or with lattice_reset_en at 0 is only recorded (R535, R679). The class of
that record is not in the manual: a free value. -/
def execLatticeResetReceive (dim : Fin 3) (seq : W16) (s : State) : Out :=
  .next <|
    if s.latticeSeen = some seq then s
    else
      let s := ({ s with latticeSeen := some seq }.sendReset ((s.popDims.filter fun d => decide (dim.val < d)).take 1) seq).fset (rg .bootCtl) 23 8 seq.toNat
      if s.fget (rg .bootCtl) 0 0 = 0 then
        (s.logErr hd { cls := s.freeVal.setWidth 8
                       index := 0xFFFF
                       action := 0x00
                       syndrome := seq.setWidth 64 }).drawn
      else s.warmReset true

/-! ## Smaller resets (R677, R680 to R683) -/

/-- Requests of some agents that wait at a home are dropped, and a write of theirs that has not been accepted writes nothing; the
number of the writes (R356, R496). -/
def State.dropRequests (s : State) (p : Requester → Bool) : State × Nat :=
  let isWrite (k : TxnKind) : Bool := match k with | .wrPart .. | .wrLine _ | .atomic .. => true | _ => false
  let early (t : Txn) : Bool := p t.req.r && isWrite t.req.kind && (match t.phase with | .recall .. | .stack | .tier _ => true | _ => false)
  let queued := (s.lines.map fun x => (x.2.waiting.filter fun q => p q.r && isWrite q.kind).length).foldl (· + ·) 0
  let active := (s.lines.filter fun x => match x.2.txn with | some t => early t | none => false).length
  let empty (t : Txn) : Txn := if early t then { t with req := { t.req with kind := .wrPart 0 (List.replicate 128 0) } } else t
  let clean (l : Line) : Line := { l with waiting := l.waiting.filter fun q => !p q.r, txn := l.txn.map empty }
  ({ s with lines := s.lines.map fun x => (x.1, clean x.2) }, queued + active)

/-- A free digest. -/
def State.freeDigest (s : State) : State × BitVec 512 :=
  ({ s with draws := s.draws + 8 }, BitVec.ofNat 512 ((List.range 8).foldl (fun n i => n + (Config.freeValue (s.draws + i)).toNat * 2 ^ (64 * i)) 0))

/-- A host core-complex reset: the harts restart with their caches flushed for up to 1 ms, their stores that no home has accepted are
dropped and counted, M3 to M7, the program and weight logs and the transport key are renewed, and host_epoch rises (R496, R497,
R638, R644, R646, R677, R683). The digest of another bank's host firmware is not known here: a free value. -/
def State.hostReset (s : State) : State :=
  if s.fget (rg .bootStatus) 4 4 = 0 || s.stoppedSeq then s
  else
    let x := s.dropRequests fun r => match r with | .hart _ => true | _ => false
    let s := x.1.startFlush fun _ => true
    let s := s.logErr hd { cls := 0x05
                           index := 0xFFFF
                           action := 0x00
                           count := BitVec.ofNat 16 (min x.2 65535) }
    let restart (h : Nat × HartSt) : Nat × HartSt := (h.1, if h.2 = .unavailable then h.2 else .running)
    let s := { s with
      sec := { s.sec with m := s.sec.m.filter fun x => decide (x.1 < 3), programs := [], weights := [], progOver := false, weightOver := false }
      host := { s.host with harts := s.host.harts.map restart } }
    let bank : Bool := s.fget (rg .bootFwStatus) 0 0 = 1
    let y := if bank = s.fw.hostBank then (s, s.fw.hostDigest) else s.freeDigest
    let s := { y.1 with fw := { y.1.fw with hostDigest := y.2, hostBank := bank } }.newKeys false
    let s := s.extend 3 (digestBytes y.2)
    let s := ((List.range 64).foldl (fun s i => (s.setReg (rg .unitCtl (224 + i)) (RegKind.resetValue .unitCtl)).setReg
      (rg .unitStatus (224 + i)) (RegKind.resetValue .unitStatus)) s)
    s.bump (rg .secStatus) 31 16 1

/-- `HOST_CORE_COMPLEX_RESET` (R677). -/
def execHostCoreComplexReset (s : State) : Out := .next s.hostReset

/-- The chains that the contexts of a logical core have bound are no longer loaded (R680). -/
def State.unloadChains (s : State) (l : LC) : State :=
  (ctxsOf l).foldl (fun s c => (s.ctx c).chains.foldl (fun s x =>
    let y := s.chainSt c x
    s.setChainSt c x { y with status := y.status &&& ~~~0x8000000007FF0300 }) s) s

/-- A per-core reset: the streams of a logical core end without a record, its store buffer, operand cache, TLB, weights, slots and
counters are discarded, and the stores not accepted are counted in the record (R355 to R357, R680, R683). -/
def State.coreReset (s : State) (l : LC) : State :=
  if s.fget (rg .bootStatus) 4 4 = 0 || s.stoppedSeq then s
  else
    let q := s.core l
    let mine (r : Requester) : Bool := match r with | .ctx c => c.lc = l | _ => false
    let s := s.unloadChains l
    let x := s.dropRequests mine
    let local_ := ((q.sb ++ q.copyQ).filter fun e => !(e.sent && s.isLocal e.line)).length
    let s := (ctxsOf l).foldl (fun s c => (s.dropWalks (.ctx c)).setCtx c {}) x.1
    let s := { s with
      resetEnded := (s.resetEnded ++ q.streams.map fun (x : Stream) => (l, x.id)).dedup
      cnt := s.cnt.filter fun x => x.1.1.lc ≠ l }
    let s := s.setCore l { events := q.events, sqHeld := q.sqHeld, takeover := q.takeover, detectAt := q.detectAt, stepAt := q.stepAt, steps := q.steps, nextId := q.nextId }
    let s := (List.range 64).foldl (fun s n => s.setReg (rg .lcCnt l.val n) 0) s
    let s := ([.coreSlice, .coreCksCount, .coreSpdEcc] : List RegKind).foldl (fun s k =>
      s.setReg (rg k l.val) (s.reg (rg k l.val) &&& ~~~k.maskOf [.rc])) s
    s.logErr (LC.die l) { cls := 0x05
                          index := BitVec.ofNat 16 l.val
                          action := 0x00
                          count := BitVec.ofNat 16 (min (x.2 + local_) 65535) }

/-- `PER_CORE_RESET` (R680). -/
def execPerCoreReset (lc : LC) (s : State) : Out := .next (s.coreReset lc)

/-- The status and RC fields of some registers at their reset values (R683). -/
def State.domainRegs (s : State) (rs : List Reg) : State :=
  rs.foldl (fun s r =>
    let m := if r.kind ∈ [.jsStatus, .mscStatus, .linkStatus, .unitStatus] then BitVec.allOnes 64 else r.kind.maskOf [.rc]
    s.setReg r ((s.reg r &&& ~~~m) ||| (r.kind.resetValue &&& m))) s

/-- A per-domain reset of a target, with its result (R682, R683). -/
def State.domainReset (s : State) (t : Nat) : State × Nat :=
  if 192 ≤ t && t < 208 then
    let j : Stack := Fin.ofNat 16 (t - 192)
    if !(s.stack j).stripes.isEmpty then (s, 3)
    else (s.domainRegs [rg .jsStatus j.val, rg .jsErr j.val, rg .unitStatus t], 0)
  else if 208 ≤ t && t < 224 then
    let s := (List.range 4).foldl (fun s i => s.mscEmpty (Fin.ofNat 64 (4 * (t - 208) + i)) fun _ => true) s
    let s := s.domainRegs (rg .unitStatus t :: (List.range 4).map fun i => rg .mscCount (4 * (t - 208) + i))
    (s.bankOff ((t - 208) / 4), 0)
  else if 288 ≤ t && t < 300 then (s.domainRegs [rg .unitStatus t], 0)
  else if 300 ≤ t && t < 304 then
    let s := if s.epPort = some (Fin.ofNat 16 (4 * (t - 300))) then s.epLost else s
    (s.domainRegs [rg .unitStatus t], 0)
  else if 304 ≤ t && t < 312 then
    let isMine (r : Requester) : Bool := r = .llc (Fin.ofNat 8 (t - 304))
    let owed := (s.lines.filter fun x => x.2.owner.any isMine).map (·.1)
    let drop (l : Line) : Line := { l with sharers := l.sharers.filter (!isMine ·) }
    let s := { s with
      lines := s.lines.map fun (x : LAddr × Line) => (x.1, drop x.2)
      host := { s.host with flushing := (s.host.flushing ++ owed).dedup, flushAt := s.time hd } }
    (s.domainRegs [rg .unitStatus t], 0)
  else if 312 ≤ t && t < 360 then
    let k : Link := Fin.ofNat 48 (t - 312)
    let s := (s.setLanes k 0 0).setLink k {}
    let kept := s.fget (rg .linkStatus k.val) 7 5
    (((s.domainRegs [rg .linkErr k.val]).fset (rg .linkStatus k.val) 4 3 0).fset (rg .linkStatus k.val) 7 5 kept, 0)
  else if t < 312 then (s, 2) else (s, 1)

/-- `PER_DOMAIN_RESET`: kind 0b101 of `BOOT_RESET`, which shows its result (R682, R688). -/
def State.perDomain (s : State) (t : Nat) : State :=
  if s.fget (rg .bootStatus) 4 4 = 0 || s.stoppedSeq then s
  else
    let x := s.domainReset t
    x.1.fset (rg .bootReset) 39 32 x.2

/-- `PER_DOMAIN_RESET` (R682). -/
def execPerDomainReset (target : BitVec 9) (s : State) : Out := .next (s.perDomain target.toNat)

/-! ## Rails and REFCLK in service (R663, R664, R742) -/

/-- `RAIL_FAULT`: the enables are released and the device stays in reset until `PKG_RESET_N` is asserted again; in start-up the error
of the stage stays (R663, R672). -/
def execRailFault (rail : Fin 20) (s : State) : Out :=
  .next <|
    let r := rg .bootStatus
    if s.pins.pkgReset then s
    else if s.fget r 4 4 = 0 && s.fget r 3 0 = 3 then ((s.bootError 0x03).fset r 16 16 1).enables false
    else
      let s := s.coldReset false
      let s := if rail.val < 3 then s.setReg (rg .trip) 0 else s
      (s.setReg r 0).fset r 16 16 1

/-- `REFCLK_LOSS`: the counters go on from the internal oscillator, and the links that depend on REFCLK fail (R162, R664, R742). -/
def execRefclkLoss (s : State) : Out :=
  .next <|
    let s := { s with pins := { s.pins with refclkLost := true } }
    let s := (List.range 17).foldl (fun s d => s.fset (rg .cadStatus d) 2 2 1) s
    let s := (List.finRange 48).foldl (fun s k => s.setLanes k 0 0) s
    let s := { s with host := { s.host with lostPorts := (s.host.hdm.map fun (x : LAddr × Nat × Port) => x.2.2).dedup } }
    s.epLost

/-! ## Live firmware update (R684 to R687) -/

/-- The result of a switch. -/
def State.fwResult (s : State) (code : Nat) : State := s.fset (rg .bootFwStatus) 15 8 code

/-- A switch is requested: one while another is in progress ends with result 0x2; a bank that does not verify, or whose image does not
initialise, changes nothing (R684, R687). -/
def State.fwSwitch (s : State) (img : FwImage) : State :=
  let r := rg .bootFwStatus
  if s.fget r 3 3 = 1 then s.fwResult 2
  else if !img.verifies then s.fwResult 1
  else if !img.initialises then s.fwResult 3
  else { s.fset r 3 3 1 with fw := { s.fw with image := some img } }

/-- `FW_SWITCH` (R684). -/
def execFwSwitch (img : FwImage) (s : State) : Out := .next (s.fwSwitch img)

/-- Probation ends well: the directory names the running bank as the boot bank, and the old image is released (R669, R684, R687). -/
def State.fwCommit (s : State) : State :=
  let r := rg .bootFwStatus
  if s.fget r 2 2 = 0 then s
  else
    let bank := s.fget r 0 0
    let s := ((s.fset r 1 1 bank).fset r 3 2 0).fwResult 0
    { s with flash := { s.flash with bootBank := bank = 1, dirSeq := s.flash.dirSeq + 1 } }

/-- `PROBATION_END`: probation_s seconds after the handoff; 0 acts as 1 (R684, R688). -/
def execProbationEnd (s : State) : Out :=
  .next <|
    let secs := max 1 (s.fget (rg .bootFwCtl) 31 16)
    if (s.time hd - s.fw.probAt).toNat < secs * 1000000000 then s else s.fwCommit

/-- `FW_COMMIT` (R684). -/
def execFwCommit (s : State) : Out := .next s.fwCommit

/-- `WATCHDOG_EXPIRY`: 2 ms without a refresh in probation: the old image runs again, M2 is extended with its digest, and the directory
stays (R686). -/
def execWatchdogExpiry (s : State) : Out :=
  .next <|
    let r := rg .bootFwStatus
    if s.fget r 2 2 = 0 then s
    else
      let bank := 1 - s.fget r 0 0
      let svn := s.fget r 63 32
      let s := s.extend 2 (digestBytes s.fw.oldDigest)
      let s := (s.fset r 63 32 (s.fget (rg .secStatus) 63 32)).fset (rg .secStatus) 63 32 svn
      let s := (((s.fset (rg .secStatus) 2 2 bank).fset r 0 0 bank).fset r 3 2 0).fset r 5 5 1
      { s with fw := { s.fw with newDigest := s.fw.oldDigest, oldDigest := s.fw.newDigest } }

end Sys2Proof.Machine
end

