-- ==== Sys2Proof/Machine/Manage.lean ====
section
/-! DEFINITION. Monitors (R689 to R699), the management mailbox (R704 to R712), the handoff of a firmware switch, which the mailbox
waits for (R684, R685, R711), the management bus (R700) and the test port (R703). -/

namespace Sys2Proof.Machine

/-! ## Monitors (R689 to R698) -/

/-- The die of a monitor (R689). -/
def Mon.die (m : Mon) : Die :=
  if m.val < 192 then Fin.ofNat 17 (m.val / 16) else if m.val < 240 then Fin.ofNat 17 (12 + (m.val - 192) / 12) else hd

/-- The source that a monitor watches: one that its die or index lacks acts as none (R690, R699). -/
def Mon.source (m : Mon) (src index : W8) : W8 :=
  let cd : Bool := decide (m.val < 192)
  let bd : Bool := decide (192 ≤ m.val) && decide (m.val < 240)
  let i := index.toNat
  let ok : Bool := match src.toNat with
    | 0x01 => bd && decide (i < 4)
    | 0x02 => bd && decide (i < 12)
    | 0x03 => cd && (decide (i < 16) || i = 0xFF)
    | 0x04 => !cd && decide (i < 8)
    | 0x10 => cd && i = 0
    | 0x11 => i = 0
    | 0x12 => bd && decide (i < 4)
    | 0x13 => !cd && !bd && i = 0
    | _ => false
  if ok then src else 0

/-- The 31 edges of a monitor as its registers hold them. -/
def State.monEdges (s : State) (m : Mon) : List W32 :=
  (List.range 31).map fun e => (s.reg (rg .monEdge m.val (e / 2))).extractLsb' (32 * (e % 2)) 32

/-- The edges as they act: one below its predecessor equals it (R691). -/
def risingEdges : Option Int → List W32 → List Int
  | _, [] => []
  | none, e :: t => e.toInt :: risingEdges (some e.toInt) t
  | some p, e :: t => max p e.toInt :: risingEdges (some (max p e.toInt)) t

/-- A window opens at a time: src, index and the edges are those in the registers now, and the working totals are clear (R693, R695,
R696). `len` is the window's length in µs. -/
def State.monOpen (s : State) (m : Mon) (at_ : W64) (len : W32) : State :=
  let c := s.reg (rg .monCtl m.val)
  s.setMon m { opened := true
               armAt := (s.mon m).armAt
               start := at_
               src := c.extractLsb' 0 8
               index := c.extractLsb' 8 8
               lenUs := len
               edges := s.monEdges m
               bins := List.replicate 32 0 }

/-- The end of a monitor's open window. -/
def MonSt.stop (k : MonSt) : W64 := k.start + BitVec.ofNat 64 (Nat.max 1 k.lenUs.toNat * 1000)

/-- The results of a window published at its close (R692, R695). -/
def State.monPublish (s : State) (m : Mon) (stop : W64) (part : Bool) : State :=
  let k := s.mon m
  let r := rg .monRes m.val
  let s := (s.fset r 15 0 (s.fget r 15 0 + 1)).fset r 16 16 (if part then 1 else 0)
  let s := s.fset r 63 32 k.count
  let s := s.setReg (rg .monRMinMax m.val) ((BitVec.ofInt 32 k.max) ++ (BitVec.ofInt 32 k.min))
  let s := (s.setReg (rg .monRStart m.val) k.start).setReg (rg .monREnd m.val) stop
  let s := s.setReg (rg .monRSum m.val) (BitVec.ofInt 64 k.sum)
  (List.range 16).foldl (fun s j => s.setReg (rg .monBin m.val j)
    (BitVec.ofNat 64 (k.bins.getD (2 * j) 0 + k.bins.getD (2 * j + 1) 0 * 2 ^ 32))) s

/-- arm := 1 (R693). -/
def State.monArm (s : State) (m : Mon) : State :=
  let r := rg .monCtl m.val
  if s.fget r 16 16 = 1 then s
  else (s.fset r 16 16 1).setMon m { s.mon m with opened := false, armAt := s.time (Mon.die m) }

/-- arm := 0: an open window closes at once (R695). -/
def State.monDisarm (s : State) (m : Mon) : State :=
  let s' := s.fset (rg .monCtl m.val) 16 16 0
  if (s.mon m).opened then (s'.monPublish m (s.time (Mon.die m)) true).setMon m {} else s'

/-- `MONITOR_ARM` (R693). -/
def execMonitorArm (m : Mon) (s : State) : Out := .next (s.monArm m)

/-- `MONITOR_DISARM` (R695). -/
def execMonitorDisarm (m : Mon) (s : State) : Out := .next (s.monDisarm m)

/-- The window of an armed monitor opens at its start time, or at the time of arming when that has passed (R693). -/
def State.monStarts (s : State) (m : Mon) : State :=
  let k := s.mon m
  let start := s.reg (rg .monStart m.val)
  let at_ := if start.toNat < k.armAt.toNat then k.armAt else start
  if s.fget (rg .monCtl m.val) 16 16 = 0 || k.opened || decide ((s.time (Mon.die m)).toNat < at_.toNat) then s
  else s.monOpen m at_ (BitVec.ofNat 32 (s.fget (rg .monCtl m.val) 55 24))

/-- `MONITOR_WINDOW_OPEN` (R693). -/
def execMonitorWindowOpen (m : Mon) (s : State) : Out := .next (s.monStarts m)

/-- A window closes at its end; with repeat the next one opens there, else the monitor disarms itself (R694, R695). -/
def State.monClose (s : State) (m : Mon) : State :=
  let k := s.mon m
  let s := s.monPublish m k.stop false
  if s.fget (rg .monCtl m.val) 17 17 = 1 then s.monOpen m k.stop k.lenUs
  else (s.fset (rg .monCtl m.val) 16 16 0).setMon m {}

/-- A sample in the open window of a monitor that watches its source (R691, R692). -/
def State.monCount (s : State) (m : Mon) (src : W8) (v : W32) : State :=
  let k := s.mon m
  if !k.opened || src = 0 || Mon.source m k.src k.index ≠ src then s
  else
    let x := v.toInt
    let bin := ((risingEdges none k.edges).filter fun e => decide (e ≤ x)).length
    let top : Int := 2 ^ 63 - 1
    s.setMon m { k with
      count := min (k.count + 1) 0xFFFFFFFF
      sum := max (-top - 1) (min top (k.sum + x))
      min := min k.min x
      max := max k.max x
      bins := k.bins.modify bin fun n => min (n + 1) 0xFFFFFFFF }

/-- `MONITOR_SAMPLE`: a sample belongs to the window that holds its time, which opens with it where it has not yet; within 2 ns of
the end, `late` says that arbitration gives it to the next window (R693, R697). -/
def execMonitorSample (m : Mon) (src : W8) (v : W32) (late : Bool) (s : State) : Out :=
  .next <|
    let s := s.monStarts m
    let k := s.mon m
    let now := (s.time (Mon.die m)).toNat
    let stop := k.stop.toNat
    let past : Bool := if stop ≤ now + 2 && now ≤ stop + 2 then late else decide (stop ≤ now)
    (if k.opened && past then s.monClose m else s).monCount m src v

/-- `MONITOR_WINDOW_CLOSE` (R694, R695). -/
def execMonitorWindowClose (m : Mon) (s : State) : Out :=
  .next <|
    let k := s.mon m
    if !k.opened || decide ((s.time (Mon.die m)).toNat < k.stop.toNat) then s else s.monClose m

/-! ## The mailbox (R704 to R711) -/

/-- The status register of the mailbox. -/
def mbSt : Reg := rg .mbStatus

/-- The words of a byte string, the last one padded with zero bytes (R706). -/
def bytesWords32 (bs : List W8) : List W32 :=
  (List.range ((bs.length + 3) / 4)).map fun i => BitVec.ofNat 32 (leNat ((bs.drop (4 * i)).take 4))

/-- The bytes of words. -/
def words32Bytes (ws : List W32) : List W8 := ws.flatMap fun w => leBytes 4 w.toNat

/-- The halves of registers, low then high. -/
def halves (ws : List W64) : List W32 := ws.flatMap fun w => [w.extractLsb' 0 32, w.extractLsb' 32 32]

/-- The input words that a command must have: some counts, or any from 1 (none here) (R709). -/
def mbInput (op : Nat) : Option Nat :=
  match op with
  | 0x10 | 0x12 | 0x13 => none
  | 0x21 => some 16
  | 0x22 => some 424
  | 0x30 => some 2
  | _ => some 0

/-- The opcodes of R709. -/
def mbOpcodes : List Nat :=
  [0x01, 0x02, 0x03, 0x10, 0x11, 0x12, 0x13, 0x20, 0x21, 0x22, 0x23, 0x30, 0x31, 0x32, 0x33, 0x3F]

/-- Whether a command may have an argument (R709). -/
def mbArgOk (op arg : Nat) : Bool :=
  match op with
  | 0x02 => decide (1 ≤ arg) && decide (arg ≤ 255)
  | 0x03 => decide (arg ≤ 255)
  | 0x10 => decide (arg ≤ 1)
  | 0x22 => decide (arg ≤ 63)
  | 0x31 => decide (arg ≤ 3)
  | 0x32 => arg / 8 % 32 = 0 && decide (arg < 2 ^ 17)
  | _ => arg = 0

/-- Whether a command is allowed in the current state (R640, R709). -/
def State.mbAllowed (s : State) (op arg : Nat) : Bool :=
  match op with
  | 0x10 => arg ≠ s.fget (rg .bootFwStatus) 0 0
  | 0x11 => s.fget (rg .bootFwStatus) 3 3 = 0
  | 0x12 => s.atStage 0 && s.fget (rg .bootStraps) 13 12 = 1
  | 0x21 => !s.idFail
  | 0x22 => !s.idFail && (s.keySlot arg).isNone
  | _ => true

/-- A command with output: its words wait to be read (R707). Without a word it has ended. -/
def State.mbOutput (s : State) (ws : List W32) : State :=
  if ws.isEmpty then s.mbEnd 0
  else { (s.fset mbSt 1 1 1).fset mbSt 55 32 ws.length with mb := { s.mb with output := ws, input := [] } }

/-- The value written to `BOOT_RESET`: a kind and a target (R677, R679, R682, R688). -/
def State.bootReset (s : State) (kind target : Nat) : State :=
  match kind with
  | 1 => s.coldReset false
  | 2 => s.warmReset false
  | 3 => s.hostReset
  | 4 => if h : target < 192 then (s.coreReset ⟨target, h⟩).fset (rg .bootReset) 39 32 0 else s.fset (rg .bootReset) 39 32 1
  | 5 => s.perDomain target
  | 6 => s.latticeReset
  | _ => s

/-- An image as its words verify (R643). -/
def imageOf (ws : List W32) : FwImage :=
  let x := Config.firmwareImage ws
  ⟨x.1, x.2.1, x.2.2.1, x.2.2.2⟩

/-- The oldest `n` error records taken from the holding store (R597, R709). -/
def State.takeRecords (s : State) (n : Nat) : State × List W32 :=
  let rs := s.errHeld.take n
  ({ s with errHeld := s.errHeld.drop n }.takeKept, rs.flatMap fun r => bytesWords32 r.bytes)

/-- A command performed with its input (R709, R710). -/
def State.mbPerform (s : State) (op arg : Nat) (input : List W32) : State :=
  match op with
  | 0x01 => s.mbOutput (halves [s.regView (rg .bootStatus), s.regView (rg .errStatus)])
  | 0x02 => let x := s.takeRecords arg; x.1.mbOutput x.2
  | 0x03 => s.mbOutput (halves ((([.monRes, .monRMinMax, .monRStart, .monREnd, .monRSum] : List RegKind).map fun k => s.reg (rg k arg)) ++
      (List.range 16).map fun j => s.reg (rg .monBin arg j)))
  | 0x10 =>
    let x := imageOf input
    let bank : Bool := arg = 1
    let s := { s with flash := { s.flash with images := Tbl.set s.flash.images bank x } }
    if x.verifies then (s.fset (rg .bootFwStatus) 63 32 x.svn.toNat).mbEnd 0 else s.mbEnd 3
  | 0x11 =>
    let bank : Bool := s.fget (rg .bootFwStatus) 0 0 = 0
    let x := Tbl.get (⟨false, false, 0, 0⟩ : FwImage) s.flash.images bank
    (s.fwSwitch x).mbEnd (if x.verifies then 0 else 3)
  | 0x12 =>
    if (imageOf input).verifies then { s with fw := { s.fw with firstStageLoaded := true } }.mbEnd 0 else s.mbEnd 3
  | 0x13 =>
    match Config.screeningProgram input with
    | some x => (({ s with screening := s.screening ++ [⟨x.1, x.2⟩] } : State).logScreen x.1).fset (rg .errScreen) 0 0 1 |>.mbEnd 0
    | none => (s.logErr hd { cls := 0x10
                             index := 0
                             action := 0x00
                             syndrome := 1 }).mbEnd 3
  | 0x20 => s.mbOutput ((readBlocksFrom 0 0 false s.flash.active).1.flatMap bytesWords32)
  | 0x21 => let x := s.signReport (words32Bytes input); x.1.mbOutput (bytesWords32 x.2)
  | 0x22 =>
    let x := s.loadSlot arg (words32Bytes input)
    x.1.mbEnd (if x.2 = 0 then 0 else if x.2 = 3 ∨ x.2 = 4 then 3 else 4)
  | 0x23 =>
    let id := bytesWords32 s.flash.idCert
    s.mbOutput (BitVec.ofNat 32 id.length :: (id ++ bytesWords32 (Config.attestationCert s.sec.attestGen s.flash.coldStarts)))
  | 0x30 =>
    let c : BitVec 24 := (input.headD 0).extractLsb' 0 24
    { s with latticeCfg := some c, flash := { s.flash with lattice := some c } }.mbEnd 0
  | 0x31 =>
    let bit : BitVec 2 := BitVec.ofNat 2 (2 ^ (arg % 2))
    let out := if arg / 2 % 2 = 1 then s.laserOut ||| bit else s.laserOut &&& ~~~bit
    { s with laserOut := out }.laserMode.mbEnd 0
  | 0x32 => (s.mbEnd 0).bootReset (arg % 8) (arg / 2 ^ 8 % 2 ^ 9)
  | 0x33 => s.mbOutput (match s.host.hdmBase with
      | some a => halves [a.setWidth 64]
      | none => [0xFFFFFFFF, 0xFFFFFFFF])
  | _ => s.mbEnd 0

/-- A command that has been taken runs: it is refused with its result, waits for its input, or is performed (R706, R709). -/
def State.mbStart (s : State) (op length arg : Nat) : State :=
  let lengthOk : Bool := match mbInput op with | none => decide (1 ≤ length) | some n => length = n
  if op ∉ mbOpcodes then s.mbEnd 1
  else if !lengthOk || !mbArgOk op arg then s.mbEnd 2
  else if !s.mbAllowed op arg then s.mbEnd 4
  else if length = 0 then s.mbPerform op arg []
  else (s.fset mbSt 26 16 (min 1024 length)).fset mbSt 55 32 length

/-- A write of `MB_CMD` over a path: it starts a command while busy is 0 and makes the path its owner; the owner may abort with 0x3F;
any other is ignored. During a firmware handoff the command waits (R705, R711). -/
def State.mbCommand (s : State) (p : MbPath) (op length arg : Nat) : State :=
  if s.pins.pkgReset then s
  else if s.mbBusy then
    if p = s.mb.owner && op = 0x3F then { s with mb := { s.mb with waits := false, lastAt := s.time hd } }.mbEnd 6 else s
  else
    let s := ((((s.fset mbSt 0 0 1).fset mbSt 1 1 0).fset mbSt 5 4 (MbPath.code p)).fset mbSt 15 8 0).fset mbSt 63 56 op
    let s := { s with mb :=
      { owner := p
        op := BitVec.ofNat 8 op
        length := BitVec.ofNat 24 length
        arg := BitVec.ofNat 24 arg
        lastAt := s.time hd } }
    if s.fw.handoff then { s with mb := { s.mb with waits := true } } else s.mbStart op length arg

/-- A command that waited for a handoff runs (R711). -/
def State.mbResume (s : State) : State :=
  if s.mb.waits then { s with mb := { s.mb with waits := false } }.mbStart s.mb.op.toNat s.mb.length.toNat s.mb.arg.toNat else s

/-- `HANDOFF`: the first begins the handoff of a prepared image, which holds back mailbox commands, evaluations and appends; the second
ends it: the new image has taken the state record, M2 is extended, `SEC_STATUS` names the bank, probation begins, and a mailbox
command that waited runs (R644, R684, R685, R711; log entry 75). -/
def execHandoff (pauseNs : W16) (s : State) : Out :=
  .next <|
    let r := rg .bootFwStatus
    match s.fw.image with
    | none => s
    | some img =>
      if !s.fw.handoff then { s with fw := { s.fw with handoff := true } }
      else
        let bank := 1 - s.fget r 0 0
        let old := s.fget (rg .secStatus) 63 32
        let s := s.extend 2 (digestBytes img.headerDigest)
        let s := (s.fset (rg .secStatus) 2 2 bank).fset (rg .secStatus) 63 32 img.svn.toNat
        let s := (((s.fset r 0 0 bank).fset r 2 2 (if s.stoppedSeq then 0 else 1)).fset r 31 16 pauseNs.toNat).fset r 63 32 old
        { s with fw := { s.fw with
            image := none
            handoff := false
            oldDigest := s.fw.newDigest
            newDigest := img.headerDigest
            probAt := s.time hd } }.mbResume

/-- A write of `MB_DATA` over a path: the owner's next input word; the last one performs the command. A word for which there is no
room is discarded and sets overrun, which ends the command in progress (R705, R706). -/
def State.mbWrite (s : State) (p : MbPath) (w : W32) : State :=
  if s.pins.pkgReset || (s.mbBusy && p ≠ s.mb.owner) then s
  else
    let s := { s with mb := { s.mb with lastAt := s.time hd } }
    if s.fget mbSt 26 16 = 0 then
      let s := s.fset mbSt 2 2 1
      if s.mbBusy && !s.mb.waits then s.mbEnd 5 else s
    else
      let input := s.mb.input ++ [w]
      let left := s.fget mbSt 55 32 - 1
      let s := { (s.fset mbSt 55 32 left).fset mbSt 26 16 (min 1024 left) with mb := { s.mb with input := input } }
      if left = 0 then s.mbPerform s.mb.op.toNat s.mb.arg.toNat input else s

/-- `STATUS` (R709). -/
def execMbStatus (p : MbPath) (s : State) : Out := .next (s.mbCommand p 0x01 0 0)
/-- `READ_ERROR_RECORDS` (R709). -/
def execReadErrorRecords (p : MbPath) (arg : BitVec 24) (s : State) : Out := .next (s.mbCommand p 0x02 0 arg.toNat)
/-- `READ_MONITOR` (R709). -/
def execReadMonitor (p : MbPath) (arg : BitVec 24) (s : State) : Out := .next (s.mbCommand p 0x03 0 arg.toNat)
/-- `WRITE_FIRMWARE_IMAGE` (R709, R710). -/
def execWriteFirmwareImage (p : MbPath) (length arg : BitVec 24) (s : State) : Out :=
  .next (s.mbCommand p 0x10 length.toNat arg.toNat)
/-- `SWITCH_FIRMWARE_BANK` (R684, R709). -/
def execSwitchFirmwareBank (p : MbPath) (s : State) : Out := .next (s.mbCommand p 0x11 0 0)
/-- `DELIVER_FIRST_STAGE` (R665, R709). -/
def execDeliverFirstStage (p : MbPath) (length : BitVec 24) (s : State) : Out := .next (s.mbCommand p 0x12 length.toNat 0)
/-- `LOAD_SCREENING_PROGRAM` (R589, R709). -/
def execLoadScreeningProgram (p : MbPath) (length : BitVec 24) (s : State) : Out := .next (s.mbCommand p 0x13 length.toNat 0)
/-- `READ_LEDGER` (R709). -/
def execMbReadLedger (p : MbPath) (s : State) : Out := .next (s.mbCommand p 0x20 0 0)
/-- `REPORT` (R647, R709). -/
def execMbReport (p : MbPath) (s : State) : Out := .next (s.mbCommand p 0x21 16 0)
/-- `LOAD_KEY_BLOB` (R650, R709). -/
def execLoadKeyBlob (p : MbPath) (arg : BitVec 24) (s : State) : Out := .next (s.mbCommand p 0x22 424 arg.toNat)
/-- `CERTIFICATES` (R709). -/
def execMbCertificates (p : MbPath) (s : State) : Out := .next (s.mbCommand p 0x23 0 0)
/-- `LATTICE_CONFIGURATION` (R674, R709). -/
def execLatticeConfiguration (p : MbPath) (s : State) : Out := .next (s.mbCommand p 0x30 2 0)
/-- `LASER_SERVICE` (R505, R709). -/
def execLaserService (p : MbPath) (arg : BitVec 24) (s : State) : Out := .next (s.mbCommand p 0x31 0 arg.toNat)
/-- `RESET_COMMAND` (R677, R709). -/
def execResetCommand (p : MbPath) (arg : BitVec 24) (s : State) : Out := .next (s.mbCommand p 0x32 0 arg.toNat)
/-- `HDM_RANGE` (R472, R709). -/
def execMbHdmRange (p : MbPath) (s : State) : Out := .next (s.mbCommand p 0x33 0 0)
/-- `ABORT` (R705). -/
def execMbAbort (p : MbPath) (s : State) : Out := .next (s.mbCommand p 0x3F 0 0)

/-- `MB_DATA_WRITE` (R706). -/
def execMbDataWrite (p : MbPath) (w : W32) (s : State) : Out := .next (s.mbWrite p w)

/-- `MB_DATA_READ` (R707). -/
def execMbDataRead (p : MbPath) (s : State) : Out := .next (let x := s.mbRead p; x.1.emit (.readData (x.2.setWidth 64)))

/-- `MAILBOX_TIMEOUT`: the owner has accessed no mailbox register for 1 s, or its path has lost its link (R708). -/
def execMailboxTimeout (s : State) : Out :=
  .next <|
    let lost : Bool := match s.mb.owner with
      | .harts => false
      | .pcie => !s.host.epUp
      | .i3c => s.mgt = .smbus
      | .smbus => s.mgt ≠ .smbus
    if !s.mbBusy || (!lost && decide ((s.time hd - s.mb.lastAt).toNat < 1000000000)) then s
    else { s with mb := { s.mb with waits := false } }.mbEnd 6

/-! ## The management bus (R700) -/

/-- Whether the target answers on its bus: not in reset, nor during a firmware handoff (R685). -/
def State.mgtAnswers (s : State) : Bool := !s.pins.pkgReset && !s.fw.handoff

/-- A dynamic address is assigned to a target that has none (R700). -/
def State.assign (s : State) (addr : BitVec 7) : State :=
  if !s.mgtAnswers then s
  else match s.mgt with
    | .smbus => { s with mgt := .i3c addr }
    | .i3c _ => s

/-- `SETDASA` (R700). -/
def execSetdasa (addr : BitVec 7) (s : State) : Out := .next (s.assign addr)

/-- `ENTDAA` (R700). -/
def execEntdaa (addr : BitVec 7) (s : State) : Out := .next (s.assign addr)

/-- `RSTDAA`: back to SMBus (R700). -/
def execRstdaa (s : State) : Out := .next (if s.mgtAnswers then { s with mgt := .smbus } else s)

/-! ## The test port (R703) -/

/-- An instruction that takes effect only while `PKG_RESET_N` is asserted acts as BYPASS at any other time (R703). -/
def State.tapInReset (s : State) (i : TapInstr) : State := { s with tap := if s.pins.pkgReset then i else .bypass }

/-- `BYPASS` (R703). -/
def execTapBypass (s : State) : Out := .next { s with tap := .bypass }
/-- `IDCODE` (R703). -/
def execTapIdcode (s : State) : Out := .next { s with tap := .idcode }
/-- `SAMPLE_PRELOAD` (R703). -/
def execTapSamplePreload (s : State) : Out := .next { s with tap := .samplePreload }
/-- `EXTEST` (R703). -/
def execTapExtest (s : State) : Out := .next (s.tapInReset .extest)
/-- `EXTEST_PULSE` (R703). -/
def execTapExtestPulse (s : State) : Out := .next (s.tapInReset .extestPulse)
/-- `EXTEST_TRAIN` (R703). -/
def execTapExtestTrain (s : State) : Out := .next (s.tapInReset .extestTrain)
/-- `CLAMP` (R703). -/
def execTapClamp (s : State) : Out := .next (s.tapInReset .clamp)
/-- `HIGHZ` (R703). -/
def execTapHighz (s : State) : Out := .next (s.tapInReset .highz)

end Sys2Proof.Machine
end

