-- ==== Sys2Proof/Machine/RegWrite.lean ====
section
/-! DEFINITION. Accesses to register space: what a write of each register does (R14 to R17 and the register tables), reads (R14, R719
to R721, R726), and inbound requests from PCIe (R474, R722). -/

namespace Sys2Proof.Machine

/-! ## Writes of registers with an effect of their own -/

/-- The state that a meaning goes on to. -/
def State.after (s : State) (o : Out) : State :=
  match o with
  | .next t => t
  | _ => s

/-- A write of `CORE_CTL` (R84, R131, R135): contexts that may run streams take waiting ones. -/
def State.writeCoreCtl (s : State) (l : LC) (v : W64) : State :=
  let s := s.regStore (rg .coreCtl l.val) (BitVec.allOnes 64) v
  let s := if v.getLsbD 8 then s.after (execFrontReload l s) else s
  s.schedule l

/-- A write of `CORE_CKS_CTL` (R135): a bit that inject_off forbids has no effect. -/
def State.writeCksCtl (s : State) (l : LC) (v : W64) : State :=
  let s := s.regStore (rg .coreCksCtl l.val) (BitVec.allOnes 64) v
  let s := if v.getLsbD 0 then s.after (execInjectCell l s) else s
  if v.getLsbD 1 then s.after (execInjectOpchk l s) else s

/-- A write of `CORE_OC_CTL` (R337). -/
def State.writeOcCtl (s : State) (l : LC) (v : W64) : State :=
  let s := s.regStore (rg .coreOcCtl l.val) (BitVec.allOnes 64) v
  if v.getLsbD 16 then s.ocEmpty l else s

/-- A write of `PMU_SHIFT_CTL`: a device that joins a group starts with its cap_w (R622). -/
def State.writeShift (s : State) (v : W64) : State :=
  let was := s.inGroup
  let s := s.regStore (rg .shiftCtl) (BitVec.allOnes 64) v
  if !was && s.inGroup then s.fset (rg .capStatus) 28 16 (capClamp (s.fget (rg .capCtl) 12 0)) else s

/-- A write of `PMU_UNIT_CTL_u` (R604, R609). -/
def State.writeUnit (s : State) (u : PUnit) (v : W64) : State :=
  let s := s.tolWrite u (v.extractLsb' 0 32)
  if v.getLsbD 32 then s.unitEnable u else s.unitDisable u

/-- A write of `TIER_CNT_CMD` (R407). -/
def State.writeCntCmd (s : State) (v : W64) : State :=
  match bits v 1 0 with
  | 1 => s.after (execCounterFlush s)
  | 2 => s.after (execCounterHalve s)
  | 3 => s.after (execCounterClear s)
  | _ => s

/-- A write of `XLT_RESOLVE`: action 0b01 retries and 0b10 fails; any other has no effect (R395, R417). -/
def State.writeResolve (s : State) (v : W64) : State :=
  match bits v 33 32 with
  | 1 => s.after (execResolveRetry (v.extractLsb' 0 32) s)
  | 2 => s.after (execResolveFail (v.extractLsb' 0 32) s)
  | _ => s

/-- A write of `JS_CTL` (R434, R456). -/
def State.writeJsCtl (s : State) (j : Stack) (v : W64) : State :=
  let s := s.regStore (rg .jsCtl j.val) (BitVec.allOnes 64) v
  if v.getLsbD 40 then s.declareFailed j (v.extractLsb' 32 8) else s

/-- A write of `MSC_CTL` (R452). -/
def State.writeMscCtl (s : State) (b : BDie) (v : W64) : State :=
  let s := s.regStore (rg .mscCtl b.val) (BitVec.allOnes 64) v
  let s := if v.getLsbD 8 then s.after (execMscFlush b s) else s
  if v.getLsbD 9 then s.after (execMscInvalidate b s) else s

/-- A write of `MSC_WAYS_s`: a way that leaves use is emptied first (R455, R456). -/
def State.writeWays (s : State) (h : Slice) (v : W64) : State :=
  let r := rg .mscWays h.val
  let old := s.reg r
  let s := s.regStore r (BitVec.allOnes 64) v
  s.mscEmpty h fun l => old.getLsbD l.way && !(s.reg r).getLsbD l.way

/-- A write of `CE_CTL` (R495, R499). -/
def State.writeCeCtl (s : State) (e : CopyEng) (v : W64) : State :=
  let s := s.regStore (rg .ceCtl e.val) (BitVec.allOnes 64) v
  if v.getLsbD 1 then s.after (execRingReset e s) else s

/-- A write of `FCT_LINK_CTL_k`: lanes declared failed, a change of mode, a link enabled or disabled. The outcome of a retrain is that
of the `RETRAIN` that follows it (R502, R503, R505, R548; log entry 76). -/
def State.writeLinkCtl (s : State) (k : Link) (v : W64) : State :=
  let r := rg .linkCtl k.val
  let old := s.reg r
  let s := s.regStore r (BitVec.allOnes 64) v
  let s := if old.getLsbD 1 = v.getLsbD 1 then s else s.setLink k { s.link k with switching := true }
  let s := s.failLanes k (bits v 3 2)
  if old.getLsbD 0 && !v.getLsbD 0 then s.setLanes k 0 0 else s.routes

/-- A write of `BOOT_FW_CTL` (R684). -/
def State.writeFwCtl (s : State) (v : W64) : State :=
  let s := s.regStore (rg .bootFwCtl) (BitVec.allOnes 64) v
  let other : Bool := s.fget (rg .bootFwStatus) 0 0 = 0
  let s := if v.getLsbD 0 then s.fwSwitch (Tbl.get (⟨false, false, 0, 0⟩ : FwImage) s.flash.images other) else s
  if v.getLsbD 1 then s.fwCommit else s

/-- A write of `MON_CTL_n` (R693, R695). -/
def State.writeMonCtl (s : State) (m : Mon) (v : W64) : State :=
  let r := rg .monCtl m.val
  let arm := s.fget r 16 16
  let s := (s.regStore r (BitVec.allOnes 64) v).fset r 16 16 arm
  if v.getLsbD 16 then s.monArm m else s.monDisarm m

/-- An access to the mailbox by its owner's path keeps its command alive (R708). -/
def State.mbTouch (s : State) (p : MbPath) (k : RegKind) : State :=
  if k ∈ [.mbCmd, .mbStatus, .mbData, .mbTelem] && p = s.mb.owner then { s with mb := { s.mb with lastAt := s.time hd } } else s

/-- A write of a register by an agent: the effect that its table gives it, else the write of its fields by their types (R14, R15). -/
def State.regWrite (s : State) (g : Agent) (r : Reg) (v : W64) : State :=
  let s := s.mbTouch (Agent.path g) r.kind
  let lc : LC := Fin.ofNat 192 r.i
  match r.kind with
  | .coreCtl => s.writeCoreCtl lc v
  | .coreCksCtl => s.writeCksCtl lc v
  | .coreOcCtl => s.writeOcCtl lc v
  | .sqCmd => s.sqCommand lc v
  | .lcSnap => if v.getLsbD 0 then s.after (execSnap lc s) else s
  | .shiftCtl => s.writeShift v
  | .unitCtl => s.writeUnit (Fin.ofNat 312 r.i) v
  | .xltResolve => s.writeResolve v
  | .xltInvVa | .xltInvCmd => s.invWrite r.kind (BitVec.allOnes 64) v
  | .tierCntCmd => s.writeCntCmd v
  | .tierCharge => s.chargeWrite (Fin.ofNat 16 r.i) (BitVec.allOnes 64) v
  | .jsCtl => s.writeJsCtl (Fin.ofNat 16 r.i) v
  | .mscCtl => s.writeMscCtl (Fin.ofNat 4 r.i) v
  | .mscWays => s.writeWays (Fin.ofNat 64 r.i) v
  | .ceCtl => s.writeCeCtl (Fin.ofNat 48 r.i) v
  | .ceDb => s.after (execDoorbell (Fin.ofNat 48 r.i) (v.extractLsb' 0 16) s)
  | .linkCtl => s.writeLinkCtl (Fin.ofNat 48 r.i) v
  | .fctShape => (s.regStore r (BitVec.allOnes 64) v).shapeApply.routes
  | .fctDetour => (s.regStore r (BitVec.allOnes 64) v).routes
  | .fctArrive => s.hartArrive (Fin.ofNat 4 r.i) (v.extractLsb' 0 44)
  | .chdCtl =>
    let s := s.regStore r (BitVec.allOnes 64) v
    if v.getLsbD 11 then s.wireFailed (Fin.ofNat 17 r.i) (Fin.ofNat 6 r.j) (bits v 10 0) 0 else s
  | .secCmd => s.secCommand v
  | .bootReset => s.bootReset (bits v 2 0) (bits v 16 8)
  | .bootFwCtl => s.writeFwCtl v
  | .monCtl => s.writeMonCtl (Fin.ofNat 256 r.i) v
  | .mbCmd => s.mbCommand (Agent.path g) (bits v 7 0) (bits v 39 16) (bits v 63 40)
  | .mbData => s.mbWrite (Agent.path g) (v.extractLsb' 0 32)
  | _ => s.regStore r (BitVec.allOnes 64) v

/-! ## Accesses (R714 to R721, R726) -/

/-- The bytes of an access size; 0 for one that no register takes. -/
def AccSize.bytes : AccSize → Nat
  | .four => 4 | .eight => 8 | .other => 0

/-- The register access that an agent makes at an address: only its own vertex reaches register space, `SEC_` and `BOOT_` answer harts
and management cores only, and BAR0 exists on an endpoint only (R655, R688, R721, R722, R726). -/
def State.agentAccess (s : State) (g : Agent) (a : PAddr) (n : Nat) : RegAcc :=
  let bar : Bool := match g with | .bar0 => s.epPort.isNone | .engine | .remote => true | _ => false
  if !s.isLocal a || regionOf (PAddr.loc a).toNat ≠ .regs || bar || pageShut g (PAddr.loc a).toNat then .hole
  else match regAccess (PAddr.loc a).toNat n with
    | .reg r m k => if agentMay g r.kind then .reg r m k else .hole
    | x => x

/-- A read of register space: the value goes back, and the RC fields that lie in the bits read are cleared (R14, R716, R719). -/
def State.readAccess (s : State) (g : Agent) (a : PAddr) (n : Nat) : State :=
  match s.agentAccess g a n with
  | .reg r m k =>
    let x := (s.mbTouch (Agent.path g) r.kind).regRead g r m
    x.1.emit (.readData (x.2 >>> k))
  | .nothing => s.emit (.readData 0)
  | .hole | .badSize => s.emit .accessFault

/-- A write to register space: 8 bytes, or 4 to `MB_DATA`; any other size or alignment has no effect (R716, R719). -/
def State.writeAccess (s : State) (g : Agent) (a : PAddr) (n : Nat) (v : W64) : State :=
  match s.agentAccess g a n with
  | .reg r _ _ => if r.kind = .mbData || n = 8 then s.regWrite g r v else s.emit .accessFault
  | .nothing => if n = 8 then s else s.emit .accessFault
  | .hole | .badSize => s.emit .accessFault

/-- `RC_FIELD_READ` (R14, R719). -/
def execRcFieldRead (g : Agent) (a : PAddr) (size : AccSize) (s : State) : Out :=
  .next (s.readAccess g a (AccSize.bytes size))

/-- `REGISTER_WRITE` (R14, R15, R719). -/
def execRegisterWrite (g : Agent) (a : PAddr) (size : AccSize) (v : W64) (s : State) : Out :=
  .next (s.writeAccess g a (AccSize.bytes size) v)

/-! ## Inbound requests (R474, R714, R721) -/

/-- An inbound read of coherent memory (R474). -/
def State.inboundRead (s : State) (p : Port) (pa : PAddr) (n : Nat) : State :=
  match s.gather (.port p) .normal (physPieces pa n) with
  | (t, .ok ds) => t.emit (.pcieData p ds false)
  | (t, .error (_, .poison)) => t.emit (.pcieData p [] true)
  | (_, .error (_, .blocked)) => s
  | (t, .error _) => t.emit (.pcieUnsupported p)

/-- An inbound write of coherent memory (R474). -/
def State.inboundWrite (s : State) (p : Port) (pa : PAddr) (d : List W8) : State :=
  match s.scatter (.port p) .normal (physPieces pa d.length) d with
  | (t, none) => t
  | (_, some (_, .blocked)) => s
  | (t, some (_, .poison)) => t
  | (t, some _) => t.emit (.pcieUnsupported p)

/-- `INBOUND_REQUEST`: a request that the IOMMU rejects, or whose translation reaches a hole, PCIe MMIO or another vertex's registers,
completes as unsupported; one to register space is an access of its size; any other is performed at the homes (R474, R714, R721,
R725). A request that meets a busy line waits (log entry 15). -/
def execInboundRequest (p : Port) (q : InboundReq) (s : State) : Out :=
  .next <|
    match q.pa with
    | none => s.emit (.pcieUnsupported p)
    | some pa =>
      let n := match q.write with | some d => d.length | none => q.length
      match regionOf (PAddr.loc pa).toNat with
      | .regs =>
        match s.agentAccess (.port p) pa n, q.write with
        | .reg r _ _, some d =>
          if r.kind = .mbData || n = 8 then s.regWrite (.port p) r (leWord d) else s.emit (.pcieUnsupported p)
        | .reg r m k, none =>
          let x := s.regRead (.port p) r m
          x.1.emit (.pcieData p (leBytes n (x.2 >>> k).toNat) false)
        | .nothing, some _ => if n = 8 then s else s.emit (.pcieUnsupported p)
        | .nothing, none => s.emit (.pcieData p (List.replicate n 0) false)
        | _, _ => s.emit (.pcieUnsupported p)
      | .hole | .mmio => s.emit (.pcieUnsupported p)
      | _ => match q.write with
        | some d => s.inboundWrite p pa d
        | none => s.inboundRead p pa n

end Sys2Proof.Machine
end

