-- ==== Sys2Proof/Machine/Scalar.lean ====
section
/-! DEFINITION. Scalar integer, immediate, FP32, status, seed and time instructions (majors 0x01, 0x02, 0x03, 0x08: R228 to
R231). -/

namespace Sys2Proof.Machine

/-! ## Shared forms -/

/-- s[d] := g s[x] s[y]. -/
def scalarOp (min : W8) (g : W64 → W64 → W64) (c : Cx) (f : SForm) (s : State) : Out :=
  dtiS 0x01 min c f (onCtx c fun k => k.sset f.d (g (k.sget f.x) (k.sget f.y))) s

/-- s[d] := g s[x] imm34. -/
def scalarImm (min : W8) (g : W64 → BitVec 34 → W64) (c : Cx) (f : IForm) (s : State) : Out :=
  dtiI 0x02 min c f (onCtx c fun k => k.sset f.d (g (k.sget f.x) f.imm34)) s

/-- A value and its flags from the FP32 sources into bits [31:0] of s[d], with bits [63:32] cleared (R230). -/
def scalarFp (min : W8) (g : W32 → W32 → W32 → W32 × W32) (c : Cx) (f : SForm) (s : State) : Out :=
  dtiS 0x03 min c f (onCtx c fun k =>
    let r := g ((k.sget f.x).setWidth 32) ((k.sget f.y).setWidth 32) ((k.sget f.z).setWidth 32)
    (k.sset f.d (r.1.setWidth 64)).raiseFlags r.2) s

/-- A comparison of the FP32 sources into s[d] (R230). -/
def scalarCmp (min : W8) (g : W32 → W32 → Bool × W32) (c : Cx) (f : SForm) (s : State) : Out :=
  dtiS 0x03 min c f (onCtx c fun k =>
    let r := g ((k.sget f.x).setWidth 32) ((k.sget f.y).setWidth 32)
    (k.sset f.d (if r.1 then 1 else 0)).raiseFlags r.2) s

/-! ## Scalar integer and logic (R228) -/

/-- `add` (R228). -/
def execAdd (c : Cx) (f : SForm) (s : State) : Out := scalarOp 0x00 (fun x y => x + y) c f s

/-- `sub` (R228). -/
def execSub (c : Cx) (f : SForm) (s : State) : Out := scalarOp 0x01 (fun x y => x - y) c f s

/-- `mul` (R228). -/
def execMul (c : Cx) (f : SForm) (s : State) : Out := scalarOp 0x02 (fun x y => x * y) c f s

/-- `mulh` (R228). -/
def execMulh (c : Cx) (f : SForm) (s : State) : Out := scalarOp 0x03 (fun x y => BitVec.ofInt 64 (x.toInt * y.toInt / 2 ^ 64)) c f s

/-- `mulhu` (R228). -/
def execMulhu (c : Cx) (f : SForm) (s : State) : Out := scalarOp 0x04 (fun x y => BitVec.ofNat 64 (x.toNat * y.toNat / 2 ^ 64)) c f s

/-- `divu` (R228). -/
def execDivu (c : Cx) (f : SForm) (s : State) : Out := scalarOp 0x05 (fun x y => if y = 0 then BitVec.allOnes 64 else x / y) c f s

/-- `remu` (R228). -/
def execRemu (c : Cx) (f : SForm) (s : State) : Out := scalarOp 0x06 (fun x y => if y = 0 then x else x % y) c f s

/-- `and` (R228). -/
def execAnd (c : Cx) (f : SForm) (s : State) : Out := scalarOp 0x07 (fun x y => x &&& y) c f s

/-- `or` (R228). -/
def execOr (c : Cx) (f : SForm) (s : State) : Out := scalarOp 0x08 (fun x y => x ||| y) c f s

/-- `xor` (R228). -/
def execXor (c : Cx) (f : SForm) (s : State) : Out := scalarOp 0x09 (fun x y => x ^^^ y) c f s

/-- `sll` (R228). -/
def execSll (c : Cx) (f : SForm) (s : State) : Out := scalarOp 0x0A (fun x y => x <<< (y.toNat % 64)) c f s

/-- `srl` (R228). -/
def execSrl (c : Cx) (f : SForm) (s : State) : Out := scalarOp 0x0B (fun x y => x >>> (y.toNat % 64)) c f s

/-- `sra` (R228). -/
def execSra (c : Cx) (f : SForm) (s : State) : Out := scalarOp 0x0C (fun x y => x.sshiftRight (y.toNat % 64)) c f s

/-- `slt` (R228). -/
def execSlt (c : Cx) (f : SForm) (s : State) : Out := scalarOp 0x0D (fun x y => if x.slt y then 1 else 0) c f s

/-- `sltu` (R228). -/
def execSltu (c : Cx) (f : SForm) (s : State) : Out := scalarOp 0x0E (fun x y => if x.ult y then 1 else 0) c f s

/-- `min` (R228). -/
def execMin (c : Cx) (f : SForm) (s : State) : Out := scalarOp 0x0F (fun x y => if x.slt y then x else y) c f s

/-- `max` (R228). -/
def execMax (c : Cx) (f : SForm) (s : State) : Out := scalarOp 0x10 (fun x y => if x.slt y then y else x) c f s

/-- `mv.a`: a[d] := s[x], sign-extended from bit 56 (R228). -/
def execMvA (c : Cx) (f : SForm) (s : State) : Out :=
  dtiS 0x01 0x20 c f (onCtx c fun k => k.aset (f.d.setWidth 4) (k.sget f.x)) s

/-- `mv.s`: s[d] := a[x] (R228). -/
def execMvS (c : Cx) (f : SForm) (s : State) : Out :=
  dtiS 0x01 0x21 c f (onCtx c fun k => k.sset f.d (k.aget (f.x.setWidth 4))) s

/-- `add.a`: a[d] := a[x] + s[y], sign-extended from bit 56 (R228). -/
def execAddA (c : Cx) (f : SForm) (s : State) : Out :=
  dtiS 0x01 0x22 c f (onCtx c fun k => k.aset (f.d.setWidth 4) (k.aget (f.x.setWidth 4) + k.sget f.y)) s

/-! ## Scalar with immediate (R229) -/

/-- `addi` (R229). -/
def execAddi (c : Cx) (f : IForm) (s : State) : Out := scalarImm 0x00 (fun x i => x + i.signExtend 64) c f s

/-- `andi` (R229). -/
def execAndi (c : Cx) (f : IForm) (s : State) : Out := scalarImm 0x01 (fun x i => x &&& i.setWidth 64) c f s

/-- `ori` (R229). -/
def execOri (c : Cx) (f : IForm) (s : State) : Out := scalarImm 0x02 (fun x i => x ||| i.setWidth 64) c f s

/-- `xori` (R229). -/
def execXori (c : Cx) (f : IForm) (s : State) : Out := scalarImm 0x03 (fun x i => x ^^^ i.setWidth 64) c f s

/-- `slli` (R229). -/
def execSlli (c : Cx) (f : IForm) (s : State) : Out := scalarImm 0x04 (fun x i => x <<< i.toNat) c f s

/-- `srli` (R229). -/
def execSrli (c : Cx) (f : IForm) (s : State) : Out := scalarImm 0x05 (fun x i => x >>> i.toNat) c f s

/-- `srai` (R229). -/
def execSrai (c : Cx) (f : IForm) (s : State) : Out := scalarImm 0x06 (fun x i => x.sshiftRight i.toNat) c f s

/-- `li` (R229). -/
def execLi (c : Cx) (f : IForm) (s : State) : Out := scalarImm 0x07 (fun _ i => i.signExtend 64) c f s

/-- `lui` (R229). -/
def execLui (c : Cx) (f : IForm) (s : State) : Out := scalarImm 0x08 (fun _ i => i.setWidth 64 <<< 30) c f s

/-- `addi.a`: a[d] := a[x] + sext(imm34), sign-extended from bit 56 (R229, R176). -/
def execAddiA (c : Cx) (f : IForm) (s : State) : Out :=
  dtiI 0x02 0x09 c f (onCtx c fun k => k.aset (f.d.setWidth 4) (k.aget (f.x.setWidth 4) + f.imm34.signExtend 64)) s

/-! ## Scalar FP32 (R230) -/

/-- `fadd` (R230). -/
def execFadd (c : Cx) (f : SForm) (s : State) : Out := scalarFp 0x00 (fun x y _ => fAdd x y) c f s

/-- `fsub` (R230). -/
def execFsub (c : Cx) (f : SForm) (s : State) : Out := scalarFp 0x01 (fun x y _ => fSub x y) c f s

/-- `fmul` (R230). -/
def execFmul (c : Cx) (f : SForm) (s : State) : Out := scalarFp 0x02 (fun x y _ => fMul x y) c f s

/-- `fma` (R230). -/
def execFma (c : Cx) (f : SForm) (s : State) : Out := scalarFp 0x03 fFma c f s

/-- `fdiv` (R230). -/
def execFdiv (c : Cx) (f : SForm) (s : State) : Out := scalarFp 0x04 (fun x y _ => fDiv x y) c f s

/-- `fsqrt` (R230). -/
def execFsqrt (c : Cx) (f : SForm) (s : State) : Out := scalarFp 0x05 (fun x _ _ => fSqrt x) c f s

/-- `fmin` (R230). -/
def execFmin (c : Cx) (f : SForm) (s : State) : Out := scalarFp 0x06 (fun x y _ => fMin x y) c f s

/-- `fmax` (R230). -/
def execFmax (c : Cx) (f : SForm) (s : State) : Out := scalarFp 0x07 (fun x y _ => fMax x y) c f s

/-- `fcvt.s.i`: a signed 64-bit integer to FP32 (R230). -/
def execFcvtSI (c : Cx) (f : SForm) (s : State) : Out :=
  dtiS 0x03 0x08 c f (onCtx c fun k =>
    (k.sset f.d ((fFromInt (k.sget f.x)).1.setWidth 64)).raiseFlags (fFromInt (k.sget f.x)).2) s

/-- `fcvt.i.s`: FP32 to a signed 64-bit integer, toward zero and saturated (R230). -/
def execFcvtIS (c : Cx) (f : SForm) (s : State) : Out :=
  dtiS 0x03 0x09 c f (onCtx c fun k =>
    (k.sset f.d (fToInt ((k.sget f.x).setWidth 32)).1).raiseFlags (fToInt ((k.sget f.x).setWidth 32)).2) s

/-- `feq` (R230). -/
def execFeq (c : Cx) (f : SForm) (s : State) : Out := scalarCmp 0x0A fEq c f s

/-- `flt` (R230). -/
def execFlt (c : Cx) (f : SForm) (s : State) : Out := scalarCmp 0x0B fLt c f s

/-- `fle` (R230). -/
def execFle (c : Cx) (f : SForm) (s : State) : Out := scalarCmp 0x0C fLe c f s

/-! ## Status, generator seed and time (R231) -/

/-- `astat.rd`: s[d] := astat (R231). -/
def execAstatRd (c : Cx) (f : IForm) (s : State) : Out :=
  dtiI 0x08 0x00 c f (onCtx c fun k => k.sset f.d (k.astat.setWidth 64)) s

/-- `astat.clr`: clears the flags named in imm34[6:0] (R231). -/
def execAstatClr (c : Cx) (f : IForm) (s : State) : Out :=
  dtiI 0x08 0x01 c f (onCtx c fun k => { k with astat := k.astat &&& ~~~(f.imm34.setWidth 32) }) s

/-- The generator state that a seed gives (R60). -/
def seedOf (w : W32) : W32 := if w = 0 then 1 else w

/-- `srseed`: srstate := s[x][31:0], a seed of zero giving 1 (R231, R60). -/
def execSrseed (c : Cx) (f : IForm) (s : State) : Out :=
  dtiI 0x08 0x02 c f (onCtx c fun k => { k with srstate := seedOf ((k.sget f.x).setWidth 32) }) s

/-- `srstate.rd`: s[d] := srstate (R231). -/
def execSrstateRd (c : Cx) (f : IForm) (s : State) : Out :=
  dtiI 0x08 0x03 c f (onCtx c fun k => k.sset f.d (k.srstate.setWidth 64)) s

/-- `time.rd`: s[d] := die-local time of the core's compute die, journaled as kind 0x8 (R231, R211). -/
def execTimeRd (c : Cx) (f : IForm) (s : State) : Out :=
  dtiI 0x08 0x04 c f (journaled c 8
    (fun s => onCtx c (fun k => k.sset f.d (s.now c.lc)) (s.jAppend c 8 0 (s.ctx c).pc (s.now c.lc)))
    (fun s v => onCtx c (fun k => k.sset f.d v) s)) s

end Sys2Proof.Machine
end

