-- ==== Sys2Proof/Machine/Store.lean ====
section
/-! DEFINITION. Stores (R245, R246, R254, R329 to R334), `ld.v` and the atomics (R248, R249), block copies and prefetches (R250 to
R253), `flag.set`, `wait` and `bar.arrive` (R258 to R260). -/

namespace Sys2Proof.Machine

/-! ## Stores -/

/-- The bytes of pieces of an access, as the checking digest takes them (R586). -/
def State.digests (s : State) (c : Cx) (va : W64) (pieces : List (Nat × Nat)) (bs : List W8) : State :=
  pieces.foldl (fun s p => s.digest c (va + BitVec.ofNat 64 p.1) ((bs.drop p.1).take p.2)) s

/-- The parts of a store that is written: those in the own scratchpad at once (log entry 20), the others into the store buffer; none
when that has no room (R330, R334). -/
def State.storeParts (s : State) (c : Cx) (va : W64) (ps : List Part) (bs : List W8) (h : Hint) (tag : WriteTag) :
    Option State :=
  (s.sbParts c va (ps.filter (s.outside c)) bs h tag).map fun t =>
    (ps.filter fun p => !s.outside c p).foldl (fun t p => t.ownPut c va bs p) t

/-- The parts of an access for writing, or why there are none: a page that needs a walk, an address error, device space reached in more
than one piece (R194, R322, R714). -/
def State.storePlan (s : State) (c : Cx) (va : W64) (n : Nat) (pieces : List (Nat × Nat)) : Except Eff (List Part) :=
  match s.plan c va 1 pieces with
  | .error v => .error (.hold (s.askWalk ⟨.ctx c, v, 1, s.rootOf c, false, none, false⟩) .ocmiss)
  | .ok (ps, _) =>
    match ps.find? fun p => decide (s.place c p.pa true ≠ .bad) && (s.place c p.pa true).refused with
    | some p => .error (.exc s .align (va + BitVec.ofNat 64 p.dst) (BitVec.ofNat 64 n))
    | none => match ps.find? fun p => decide (s.place c p.pa true = .bad) with
      | some p => .error (.exc s .addr (va + BitVec.ofNat 64 p.dst) (addrDetail p))
      | none => .ok ps

/-- A store of pieces of `n` bytes to memory: it enters the store buffer, or waits for room (R331, R334). -/
def storeThen (c : Cx) (va : W64) (n : Nat) (pieces : List (Nat × Nat)) (bs : List W8) (h : Hint) (tag : WriteTag)
    (guard : (State → Eff) → State → Eff) (s : State) : Eff :=
  match s.storePlan c va n pieces with
  | .error e => e
  | .ok ps =>
    match s.storeParts c va ps bs h tag with
    | none => .hold s .sync
    | some _ => guard (fun s => match s.storeParts c va ps bs h tag with
        | none => .hold s .sync
        | some t => .done (t.digests c va pieces bs)) s

/-- The instruction has completed; an effect on the rest of the machine follows. -/
def completed (c : Cx) (s : State) (g : State → State) : Eff := .stop (g ((s.updCtx c Context.advance).issued c))

/-- A store of `n` bytes to device space: a register is written once per interval, after the digests agree (R211, R587, R719, R723);
PCIe MMIO takes the bytes as they are (R322). -/
def State.deviceWrite (s : State) (c : Cx) (a n : Nat) (isReg : Bool) (va v : W64) : Eff :=
  if isReg then
    let ring (f : State → State) : Eff := guardOp c (journaled c 7
      (fun s => completed c ((s.jAppend c 7 0 (s.ctx c).pc 0).digest c va (leBytes n v.toNat)) f) (fun s _ => .done s)) s
    if pageShut (.dti c) a then .exc s .addr va (BitVec.ofNat 64 a)
    else match regAccess a n with
    | .hole => .exc s .addr va (BitVec.ofNat 64 a)
    | .badSize => .exc s .align va (BitVec.ofNat 64 n)
    | .nothing => if n = 8 then ring id else .exc s .align va (BitVec.ofNat 64 n)
    | .reg r _ _ =>
      if r.kind ≠ .mbData && n ≠ 8 then .exc s .align va (BitVec.ofNat 64 n)
      else if !agentMay (.dti c) r.kind then .exc s .addr va (BitVec.ofNat 64 a)
      else ring fun s => s.regWrite (.dti c) r v
  else .done ((s.emit (.mmioWrite (BitVec.ofNat 44 a) (leBytes n v.toNat))).digest c va (leBytes n v.toNat))

/-- A scalar store of `n` bytes of a word. -/
def scalarStore (c : Cx) (va v : W64) (n : Nat) (h : Hint) (tag : WriteTag) (guard : (State → Eff) → State → Eff)
    (s : State) : Eff :=
  match s.deviceAt c va n 1 with
  | some (a, isReg) => s.deviceWrite c a n isReg va v
  | none => storeThen c va n [(0, n)] (leBytes n v.toNat) h tag guard s

/-- `st`: the low bytes of s[d] (R245). -/
def execSt (c : Cx) (f : MForm) (s : State) : Out :=
  dtiM 0x20 0x2 false c f (fun s =>
    scalarStore c ((s.ctx c).ea f) ((s.ctx c).sget f.d) (sizeOf4 f.size) (hintOf f.hint) .store id s) s

/-- The bytes of `n` lanes of v[d] from lane `base`. -/
def Context.laneBytes (k : Context) (d : BitVec 5) (base n : Nat) : List W8 :=
  (List.range n).flatMap fun i => leBytes 4 (k.vlane d (base + i)).toNat

/-- A vector store of `n` lanes of v[d] from lane `base`; lanes whose predicate is false write nothing (R192, R246). -/
def vectorStore (min : BitVec 4) (base : Nat) (n : Nat) (c : Cx) (f : MForm) (s : State) : Out :=
  dtiM 0x21 min true c f (fun s =>
    let k := s.ctx c
    let va := k.ea f
    if va.toNat % 4 ≠ 0 then .exc s .align va (BitVec.ofNat 64 (4 * n))
    else storeThen c va (4 * n) (k.lanePieces f base n) (k.laneBytes f.d base n) (hintOf f.hint) .store id s) s

/-- `vst`: v[d] to 2 KiB (R246). -/
def execVst (c : Cx) (f : MForm) (s : State) : Out := vectorStore 0x1 0 512 c f s

/-- `vst.p`: the low lanes of v[d] (R246). -/
def execVstP (c : Cx) (f : MForm) (s : State) : Out := vectorStore 0x3 0 (packedLanes f.size) c f s

/-- `vst.s`: lanes 384 to 387 (R246). -/
def execVstS (c : Cx) (f : MForm) (s : State) : Out := vectorStore 0x5 384 4 c f s

/-- `vst.c`: lanes 388 to 391 (R246). -/
def execVstC (c : Cx) (f : MForm) (s : State) : Out := vectorStore 0x6 388 4 c f s

/-- `tst`: t[d] to 48 bytes (R254). -/
def execTst (c : Cx) (f : MForm) (s : State) : Out :=
  dtiM 0x24 0x1 false c f (fun s =>
    let va := (s.ctx c).ea f
    if va.toNat % 8 ≠ 0 then .exc s .align va 48
    else storeThen c va 48 [(0, 48)] ((s.ctx c).tget (f.d.setWidth 3)).bytes (hintOf f.hint) .store id s) s

/-- `flag.set`: a store of s[d] that does not allocate in the operand cache, and that a checked interval performs once the digests
agree (R258, R587). -/
def execFlagSet (c : Cx) (f : MForm) (s : State) : Out :=
  dtiM 0x31 0x0 false c f (fun s =>
    let va := (s.ctx c).ea f
    if va.toNat % 8 ≠ 0 then .exc s .align va 8
    else scalarStore c va ((s.ctx c).sget f.d) 8 .normal .flag (guardOp c) s) s

/-! ## `ld.v`, atomics, `wait` and `bar.arrive` (R248, R258 to R260) -/

/-- The one place that a naturally aligned access of `n` bytes reaches, with its line and its offset there. -/
def State.aligned (s : State) (c : Cx) (va : W64) (n : Nat) (acc : Acc) (write : Bool) (body : Place → PAddr → Nat → Eff) :
    Eff :=
  if va.toNat % n ≠ 0 then .exc s .align va (BitVec.ofNat 64 n)
  else match s.plan c va acc [(0, n)] with
    | .error v => .hold (s.askWalk ⟨.ctx c, v, acc, s.rootOf c, false, none, false⟩) .ocmiss
    | .ok (p :: _, _) => match s.place c p.pa write with
      | .bad => .exc s .addr va (addrDetail p)
      | pl => body pl p.line p.off
    | .ok ([], _) => .done s

/-- A request of a context leaves for the home of its line: here, or on the vertex of a remote line by the message given (R248,
R370). -/
def State.ask (s : State) (c : Cx) (w : Await) (kind : TxnKind) (far : OutMsg) : State :=
  let s := s.updCtx c fun k => { k with await := some w }
  if s.isLocal w.line then s.request (.ctx c) s.vertex (PAddr.loc w.line) .normal kind else s.emit far

/-- The scalar issue unit waits for a context (R114, R248). -/
def State.block (s : State) (c : Cx) : State := s.updCore c.lc fun q => { q with blockedBy := some c.ix }

/-- A value that a journaled read has returned: its entry is written, then s[d] (R212). -/
def State.recorded (s : State) (c : Cx) (kind : Nat) (d : BitVec 5) (v : W64) : State :=
  (s.jAppend c kind 0 (s.ctx c).pc v).updCtx c fun k => k.sset d v

/-- A replay's recorded value is delivered without the access (R215). -/
def again (c : Cx) (d : BitVec 5) (s : State) (v : W64) : Eff := onCtx c (fun k => k.sset d v) s

/-- `ld.v`: the word as its home has it, past the operand cache (R248, R723). -/
def execLdV (c : Cx) (f : MForm) (s : State) : Out :=
  dtiM 0x22 0x0 false c f (fun s =>
    let va := (s.ctx c).ea f
    let n := sizeOf4 f.size
    let dev (a : Nat) (isReg : Bool) : Eff := match s.deviceRead c a n isReg va with
      | .error e => e
      | .ok _ => journaled c 2 (fun s => match s.deviceRead c a n isReg va with
          | .error e => e
          | .ok (s, v) => .done (s.recorded c 2 f.d v)) (again c f.d) s
    s.aligned c va n 0 false fun pl line off => match pl with
      | .regs a => dev a true
      | .mmio a => dev a false
      | _ => journaled c 2 (fun s => .pend ((s.block c).ask c
          { kind := .ldv, d := f.d, cond := 0, size := n, line := line, off := off, va := va } .rdOnce (.remoteRead line))
          .ocmiss) (again c f.d) s) s

/-- An atomic: performed at the home of its line, in a checked interval once the digests agree; device space has no home (R248,
R328, R587). -/
def atomicOp (min : BitVec 4) (op : Context → AmoOp) (val : Context → W64) (c : Cx) (f : MForm) (s : State) : Out :=
  dtiM 0x22 min false c f (fun s =>
    let k := s.ctx c
    let va := k.ea f
    let n := sizeOf4 f.size
    s.aligned c va n 2 true fun pl line off => match pl with
      | .regs a | .mmio a => .exc s .addr va (BitVec.ofNat 64 a)
      | _ => guardOp c (journaled c 1 (fun s => .pend ((s.block c).ask c
          { kind := .amo, d := f.d, cond := 0, size := n, line := line, off := off, op := op k, val := val k, va := va }
          (.atomic (op k) off (n = 8) (val k)) (.remoteAtomic (line + BitVec.ofNat 56 off) (op k) (n = 8) (val k))) .ocmiss)
          (again c f.d)) s) s

/-- An atomic whose operand is s[d]. -/
def plainAtomic (min : BitVec 4) (op : AmoOp) (c : Cx) (f : MForm) (s : State) : Out :=
  atomicOp min (fun _ => op) (fun k => k.sget f.d) c f s

/-- `amo.add` (R248). -/
def execAmoAdd (c : Cx) (f : MForm) (s : State) : Out := plainAtomic 0x1 .add c f s
/-- `amo.and` (R248). -/
def execAmoAnd (c : Cx) (f : MForm) (s : State) : Out := plainAtomic 0x2 .and c f s
/-- `amo.or` (R248). -/
def execAmoOr (c : Cx) (f : MForm) (s : State) : Out := plainAtomic 0x3 .or c f s
/-- `amo.xor` (R248). -/
def execAmoXor (c : Cx) (f : MForm) (s : State) : Out := plainAtomic 0x4 .xor c f s
/-- `amo.min` (R248). -/
def execAmoMin (c : Cx) (f : MForm) (s : State) : Out := plainAtomic 0x5 .min c f s
/-- `amo.max` (R248). -/
def execAmoMax (c : Cx) (f : MForm) (s : State) : Out := plainAtomic 0x6 .max c f s
/-- `amo.minu` (R248). -/
def execAmoMinu (c : Cx) (f : MForm) (s : State) : Out := plainAtomic 0x7 .minu c f s
/-- `amo.maxu` (R248). -/
def execAmoMaxu (c : Cx) (f : MForm) (s : State) : Out := plainAtomic 0x8 .maxu c f s
/-- `amo.swap` (R248). -/
def execAmoSwap (c : Cx) (f : MForm) (s : State) : Out := plainAtomic 0x9 .swap c f s
/-- `amo.cas`: s[d] is compared and s[d+1] stored (R248, R249). -/
def execAmoCas (c : Cx) (f : MForm) (s : State) : Out :=
  atomicOp 0xA (fun k => .cas (k.sget f.d)) (fun k => k.sget (f.d + 1)) c f s

/-- `wait`: reads at the point of coherence, or in device space, until the condition holds; only its own context stalls (R258 to
R260). -/
def execWait (c : Cx) (f : MForm) (s : State) : Out :=
  dtiM 0x31 0x1 false c f (fun s =>
    let va := (s.ctx c).ea f
    let w (line : PAddr) (off : Nat) (sent : Bool) : Await :=
      { kind := .wait, d := f.d, cond := f.size, size := 8, line := line, off := off, sent := sent, va := va }
    let dev (a : Nat) (isReg : Bool) (line : PAddr) (off : Nat) : Eff := match s.deviceRead c a 8 isReg va with
      | .error e => e
      | .ok _ => journaled c 3 (fun s => match s.deviceRead c a 8 isReg va with
          | .error e => e
          | .ok (s, v) =>
            if waitMet f.size v ((s.ctx c).sget f.d) then .done (s.recorded c 3 f.d v)
            else .pend (s.updCtx c fun k => { k with await := some (w line off false) }) .sync) (again c f.d) s
    s.aligned c va 8 0 false fun pl line off => match pl with
      | .regs a => dev a true line off
      | .mmio a => dev a false line off
      | _ => journaled c 3 (fun s => .pend (s.ask c (w line off true) .rdOnce (.remoteRead line)) .sync) (again c f.d) s) s

/-- `bar.arrive`: one arrival at the barrier line that holds ea, sent once the digests of a checked interval agree; the instruction
ends when the engine accepts it. A line outside the coherent memory of this vertex raises `ADDR` (R258, R259, R529, R587). -/
def execBarArrive (c : Cx) (f : MForm) (s : State) : Out :=
  dtiM 0x31 0x2 false c f (fun s =>
    let va := (s.ctx c).ea f
    let w (line : PAddr) (off : Nat) : Await :=
      { kind := .arrival, d := 0, cond := 0, size := 8, line := line, off := off, va := va }
    s.aligned c va 8 1 true fun pl line off => match pl with
      | .regs _ | .mmio _ | .remote => .exc s .addr va ((PAddr.loc (line + BitVec.ofNat 56 off)).setWidth 64)
      | _ => guardOp c (journaled c 4 (fun s => .pend (s.updCtx c fun k => { k with await := some (w line off) }) .sync)
          (fun s _ => .done s)) s) s

/-! ## Block copies and prefetches (R250 to R253) -/

/-- The operand of a block copy (R250): the scratchpad offset, the length, the slot and whether it is valid. -/
structure CopyOp where
  off : Nat
  len : Nat
  slot : BitVec 4
  slotEn : Bool
  deriving DecidableEq, Repr

/-- The fields of s[d]; none when a reserved bit is set or the length lies outside its range (R250). -/
def copyOp (limit : Nat) (w : W64) : Option CopyOp :=
  let len := bits w 47 24
  if bits w 23 23 ≠ 0 ∨ bits w 63 53 ≠ 0 ∨ len = 0 ∨ limit < len then none
  else some ⟨bits w 22 0, len, w.extractLsb' 48 4, w.getLsbD 52⟩

/-- The frame of a block copy: a bad operand raises `ILLEGAL`, and nothing is copied (R250). -/
def copyFrame (min : BitVec 4) (limit : Nat) (body : CopyOp → State → Eff) (c : Cx) (f : MForm) (s : State) : Out :=
  dtiM 0x23 min false c f (fun s => match copyOp limit ((s.ctx c).sget f.d) with
    | none => .exc s .illegal 0 (f.word 0x23 min)
    | some o => body o s) s

/-- The first byte of a range that lies outside [lo, hi), if one does. -/
def outOf (lo hi off len : Nat) : Option Nat :=
  if off < lo then some off else if hi < off + len then some (max off hi) else none

/-- The detail of `ADDR` for an offset of the own scratchpad (R280). -/
def ownDetail (c : Cx) (off : Nat) : W64 := BitVec.ofNat 64 (windowBase c.lc + off)

/-- `bcp.in`: a fill of its slot, whose bytes are copied when it ends (R251, R91, R226). -/
def execBcpIn (c : Cx) (f : MForm) (s : State) : Out :=
  copyFrame 0x0 6029312 (fun o s =>
    let k := s.ctx c
    let sl := k.slot o.slot
    let base := 256 * sl.base.toNat
    let limit := if 2 ≤ s.levelOf c then 0x2E0000 else 0x5C0000
    if !o.slotEn then .exc s .illegal 0 (f.word 0x23 0x0)
    else match outOf base (min limit (base + 256 * sl.len.toNat)) o.off o.len with
      | some x => .exc s .addr 0 (ownDetail c x)
      | none =>
        if sl.st = .filling then .hold s .sync
        else
          let filling : Slot := ⟨.filling, 0, sl.base, sl.len⟩
          let start (k : Context) : Context := { (k.setSlot o.slot filling) with
            fills := k.fills ++ [⟨o.slot, .bcpIn (k.ea f) o.off o.len (hintOf f.hint)⟩] }
          onCtx c start s) c f s

/-- Where a source range of `bcp.out` first leaves the scratchpad: beyond its end, or under Steel in the part that R582 makes a tail
(R252). -/
def State.sourceOut (s : State) (c : Cx) (off len : Nat) : Option Nat :=
  if 2 ≤ s.levelOf c ∧ off < 0x5C0000 ∧ 0x2E0000 < off + len then some (max off 0x2E0000)
  else outOf 0 0x600000 off len

/-- `bcp.out`: its bytes are taken from the scratchpad at acceptance (log entry 21) and leave through the copy queue; a ninth
outstanding one waits (R252, R226, R227). A source that holds an uncorrectable word fails with `POISON` as a background write does
(R120; log entry 79). -/
def execBcpOut (c : Cx) (f : MForm) (s : State) : Out :=
  copyFrame 0x1 6029312 (fun o s =>
    let k := s.ctx c
    let va := k.ea f
    let a := windowBase c.lc + o.off
    if o.slotEn then .exc s .illegal 0 (f.word 0x23 0x1)
    else match s.sourceOut c o.off o.len with
      | some x => .exc s .addr 0 (ownDetail c x)
      | none =>
        if 8 ≤ k.bcpOuts.length then .hold s .sync
        else
          let t := s.spdTouch a o.len
          match s.spdBad a o.len with
          | some w => .done (t.bgFailed c .poison va ((mkPA s.vertex (BitVec.ofNat 44 (8 * w))).setWidth 64))
          | none =>
            let id := (s.core c.lc).nextId
            let t := t.updCore c.lc fun q => { q with
              nextId := id + 1
              bg := q.bg ++ [⟨c.ix, va, s.peek a o.len, hintOf f.hint, .bcpOut id⟩] }
            .done (t.updCtx c fun k => { k with bcpOuts := k.bcpOuts ++ [id] })) c f s

/-- The physical lines of a range that a prefetch may fetch; none when one of its accesses would fault (R253, R722). -/
def State.prefetchLines (s : State) (c : Cx) (va : W64) (n : Nat) : Option (List PAddr) :=
  (List.range ((va.toNat % 128 + n - 1) / 128 + 1)).foldl (fun l i =>
    match l, s.vmap c (BitVec.ofNat 64 (va.toNat / 128 * 128 + 128 * i)) 0 with
    | some l, some pa => if (s.place c pa false).refused then none else some (l ++ [pa])
    | _, _ => none) (some [])

/-- One line prefetched: read at its home, and kept by `keep`; a line that does not give its data is left out (log entry 78). -/
def State.prefetchLine (s : State) (c : Cx) (h : Hint) (keep : PAddr → List W8 → State → State) (pa : PAddr) : State :=
  match s.place c pa false with
  | .own _ => s
  | _ => match s.readLine (.ctx c) pa h with
    | (t, .data d) => keep pa d t
    | _ => s

/-- A prefetch: what would fault is dropped (R253). -/
def prefetch (min : BitVec 4) (keep : Hint → PAddr → List W8 → State → State) (c : Cx) (f : MForm) (s : State) : Out :=
  copyFrame min 65536 (fun o s =>
    let h := hintOf f.hint
    match s.prefetchLines c ((s.ctx c).ea f) o.len with
    | none => .done s
    | some ls => .done (ls.foldl (fun s pa => s.prefetchLine c h (keep h) pa) s)) c f s

/-- `pf.oc`: the lines enter the operand cache, with the core's own stores merged (R253, R112, R331). -/
def execPfOc (c : Cx) (f : MForm) (s : State) : Out :=
  prefetch 0x2 (fun h pa d s => if (s.ocFind c.lc pa).isSome then s
    else s.ocInstall c.lc pa (fillAge h) (s.forward c.lc pa d)) c f s

/-- `pf.msc`: the homes read the lines with the hint (R253, R449). -/
def execPfMsc (c : Cx) (f : MForm) (s : State) : Out := prefetch 0x3 (fun _ _ _ s => s) c f s

end Sys2Proof.Machine
end

