-- ==== Sys2Proof/Machine/Dispatch.lean ====
section
/-! DEFINITION. The dispatcher: one arm for each row of the table of operations and events. -/

namespace Sys2Proof.Machine

/-- The effect of a command on everything but the queue. -/
def exec (i : Instr) (s : State) : Host.Outcome State Fault Refusal :=
  match i with
  | .add c f => Sys2Proof.Machine.execAdd c f s
  | .sub c f => Sys2Proof.Machine.execSub c f s
  | .mul c f => Sys2Proof.Machine.execMul c f s
  | .mulh c f => Sys2Proof.Machine.execMulh c f s
  | .mulhu c f => Sys2Proof.Machine.execMulhu c f s
  | .divu c f => Sys2Proof.Machine.execDivu c f s
  | .remu c f => Sys2Proof.Machine.execRemu c f s
  | .and c f => Sys2Proof.Machine.execAnd c f s
  | .or c f => Sys2Proof.Machine.execOr c f s
  | .xor c f => Sys2Proof.Machine.execXor c f s
  | .sll c f => Sys2Proof.Machine.execSll c f s
  | .srl c f => Sys2Proof.Machine.execSrl c f s
  | .sra c f => Sys2Proof.Machine.execSra c f s
  | .slt c f => Sys2Proof.Machine.execSlt c f s
  | .sltu c f => Sys2Proof.Machine.execSltu c f s
  | .min c f => Sys2Proof.Machine.execMin c f s
  | .max c f => Sys2Proof.Machine.execMax c f s
  | .mvA c f => Sys2Proof.Machine.execMvA c f s
  | .mvS c f => Sys2Proof.Machine.execMvS c f s
  | .addA c f => Sys2Proof.Machine.execAddA c f s
  | .addi c f => Sys2Proof.Machine.execAddi c f s
  | .andi c f => Sys2Proof.Machine.execAndi c f s
  | .ori c f => Sys2Proof.Machine.execOri c f s
  | .xori c f => Sys2Proof.Machine.execXori c f s
  | .slli c f => Sys2Proof.Machine.execSlli c f s
  | .srli c f => Sys2Proof.Machine.execSrli c f s
  | .srai c f => Sys2Proof.Machine.execSrai c f s
  | .li c f => Sys2Proof.Machine.execLi c f s
  | .lui c f => Sys2Proof.Machine.execLui c f s
  | .addiA c f => Sys2Proof.Machine.execAddiA c f s
  | .fadd c f => Sys2Proof.Machine.execFadd c f s
  | .fsub c f => Sys2Proof.Machine.execFsub c f s
  | .fmul c f => Sys2Proof.Machine.execFmul c f s
  | .fma c f => Sys2Proof.Machine.execFma c f s
  | .fdiv c f => Sys2Proof.Machine.execFdiv c f s
  | .fsqrt c f => Sys2Proof.Machine.execFsqrt c f s
  | .fmin c f => Sys2Proof.Machine.execFmin c f s
  | .fmax c f => Sys2Proof.Machine.execFmax c f s
  | .fcvtSI c f => Sys2Proof.Machine.execFcvtSI c f s
  | .fcvtIS c f => Sys2Proof.Machine.execFcvtIS c f s
  | .feq c f => Sys2Proof.Machine.execFeq c f s
  | .flt c f => Sys2Proof.Machine.execFlt c f s
  | .fle c f => Sys2Proof.Machine.execFle c f s
  | .astatRd c f => Sys2Proof.Machine.execAstatRd c f s
  | .astatClr c f => Sys2Proof.Machine.execAstatClr c f s
  | .srseed c f => Sys2Proof.Machine.execSrseed c f s
  | .srstateRd c f => Sys2Proof.Machine.execSrstateRd c f s
  | .timeRd c f => Sys2Proof.Machine.execTimeRd c f s
  | .vadd c f => Sys2Proof.Machine.execVadd c f s
  | .vsub c f => Sys2Proof.Machine.execVsub c f s
  | .vmul c f => Sys2Proof.Machine.execVmul c f s
  | .vfma c f => Sys2Proof.Machine.execVfma c f s
  | .vfms c f => Sys2Proof.Machine.execVfms c f s
  | .vdiv c f => Sys2Proof.Machine.execVdiv c f s
  | .vsqrt c f => Sys2Proof.Machine.execVsqrt c f s
  | .vrcp c f => Sys2Proof.Machine.execVrcp c f s
  | .vrsqrt c f => Sys2Proof.Machine.execVrsqrt c f s
  | .vmin c f => Sys2Proof.Machine.execVmin c f s
  | .vmax c f => Sys2Proof.Machine.execVmax c f s
  | .vabs c f => Sys2Proof.Machine.execVabs c f s
  | .vneg c f => Sys2Proof.Machine.execVneg c f s
  | .vmov c f => Sys2Proof.Machine.execVmov c f s
  | .vbcast c f => Sys2Proof.Machine.execVbcast c f s
  | .vsel c f => Sys2Proof.Machine.execVsel c f s
  | .vext c f => Sys2Proof.Machine.execVext c f s
  | .vins c f => Sys2Proof.Machine.execVins c f s
  | .vrsum c f => Sys2Proof.Machine.execVrsum c f s
  | .vrmax c f => Sys2Proof.Machine.execVrmax c f s
  | .vrmin c f => Sys2Proof.Machine.execVrmin c f s
  | .vrsumsq c f => Sys2Proof.Machine.execVrsumsq c f s
  | .vexp2 c f => Sys2Proof.Machine.execVexp2 c f s
  | .vlog2 c f => Sys2Proof.Machine.execVlog2 c f s
  | .vexp c f => Sys2Proof.Machine.execVexp c f s
  | .vlog c f => Sys2Proof.Machine.execVlog c f s
  | .vtanh c f => Sys2Proof.Machine.execVtanh c f s
  | .vsigm c f => Sys2Proof.Machine.execVsigm c f s
  | .vsilu c f => Sys2Proof.Machine.execVsilu c f s
  | .vgelu c f => Sys2Proof.Machine.execVgelu c f s
  | .vsin c f => Sys2Proof.Machine.execVsin c f s
  | .vcos c f => Sys2Proof.Machine.execVcos c f s
  | .cvtN c f => Sys2Proof.Machine.execCvtN c f s
  | .cvtW c f => Sys2Proof.Machine.execCvtW c f s
  | .vcmpEq c f => Sys2Proof.Machine.execVcmpEq c f s
  | .vcmpLt c f => Sys2Proof.Machine.execVcmpLt c f s
  | .vcmpLe c f => Sys2Proof.Machine.execVcmpLe c f s
  | .vcmpUn c f => Sys2Proof.Machine.execVcmpUn c f s
  | .pand c f => Sys2Proof.Machine.execPand c f s
  | .por c f => Sys2Proof.Machine.execPor c f s
  | .pxor c f => Sys2Proof.Machine.execPxor c f s
  | .pnot c f => Sys2Proof.Machine.execPnot c f s
  | .pfirst c f => Sys2Proof.Machine.execPfirst c f s
  | .ld c f => Sys2Proof.Machine.execLd c f s
  | .lds c f => Sys2Proof.Machine.execLds c f s
  | .st c f => Sys2Proof.Machine.execSt c f s
  | .vld c f => Sys2Proof.Machine.execVld c f s
  | .vst c f => Sys2Proof.Machine.execVst c f s
  | .vldP c f => Sys2Proof.Machine.execVldP c f s
  | .vstP c f => Sys2Proof.Machine.execVstP c f s
  | .vldS c f => Sys2Proof.Machine.execVldS c f s
  | .vstS c f => Sys2Proof.Machine.execVstS c f s
  | .vstC c f => Sys2Proof.Machine.execVstC c f s
  | .vldAcc c f => Sys2Proof.Machine.execVldAcc c f s
  | .vstAcc c f => Sys2Proof.Machine.execVstAcc c f s
  | .ldV c f => Sys2Proof.Machine.execLdV c f s
  | .amoAdd c f => Sys2Proof.Machine.execAmoAdd c f s
  | .amoAnd c f => Sys2Proof.Machine.execAmoAnd c f s
  | .amoOr c f => Sys2Proof.Machine.execAmoOr c f s
  | .amoXor c f => Sys2Proof.Machine.execAmoXor c f s
  | .amoMin c f => Sys2Proof.Machine.execAmoMin c f s
  | .amoMax c f => Sys2Proof.Machine.execAmoMax c f s
  | .amoMinu c f => Sys2Proof.Machine.execAmoMinu c f s
  | .amoMaxu c f => Sys2Proof.Machine.execAmoMaxu c f s
  | .amoSwap c f => Sys2Proof.Machine.execAmoSwap c f s
  | .amoCas c f => Sys2Proof.Machine.execAmoCas c f s
  | .bcpIn c f => Sys2Proof.Machine.execBcpIn c f s
  | .bcpOut c f => Sys2Proof.Machine.execBcpOut c f s
  | .pfOc c f => Sys2Proof.Machine.execPfOc c f s
  | .pfMsc c f => Sys2Proof.Machine.execPfMsc c f s
  | .tld c f => Sys2Proof.Machine.execTld c f s
  | .tst c f => Sys2Proof.Machine.execTst c f s
  | .fenceLd c f => Sys2Proof.Machine.execFenceLd c f s
  | .fenceSt c f => Sys2Proof.Machine.execFenceSt c f s
  | .fenceAll c f => Sys2Proof.Machine.execFenceAll c f s
  | .flagSet c f => Sys2Proof.Machine.execFlagSet c f s
  | .wait c f => Sys2Proof.Machine.execWait c f s
  | .barArrive c f => Sys2Proof.Machine.execBarArrive c f s
  | .beq c f => Sys2Proof.Machine.execBeq c f s
  | .bne c f => Sys2Proof.Machine.execBne c f s
  | .blt c f => Sys2Proof.Machine.execBlt c f s
  | .bge c f => Sys2Proof.Machine.execBge c f s
  | .bltu c f => Sys2Proof.Machine.execBltu c f s
  | .bgeu c f => Sys2Proof.Machine.execBgeu c f s
  | .jal c f => Sys2Proof.Machine.execJal c f s
  | .jr c f => Sys2Proof.Machine.execJr c f s
  | .brk c f => Sys2Proof.Machine.execBrk c f s
  | .loop c f => Sys2Proof.Machine.execLoop c f s
  | .lbreak c f => Sys2Proof.Machine.execLbreak c f s
  | .commit c f => Sys2Proof.Machine.execCommit c f s
  | .commitCopyWrite c => Sys2Proof.Machine.execCommitCopyWrite c s
  | .commitFinalize c => Sys2Proof.Machine.execCommitFinalize c s
  | .halt c f => Sys2Proof.Machine.execHalt c f s
  | .chainLd c f => Sys2Proof.Machine.execChainLd c f s
  | .chainRowfix c f => Sys2Proof.Machine.execChainRowfix c f s
  | .chainDrop c f => Sys2Proof.Machine.execChainDrop c f s
  | .mmLdwS c f => Sys2Proof.Machine.execMmLdwS c f s
  | .mmLdwF c f => Sys2Proof.Machine.execMmLdwF c f s
  | .mmPass c f => Sys2Proof.Machine.execMmPass c f s
  | .mmSwap c f => Sys2Proof.Machine.execMmSwap c f s
  | .mmDrain c f => Sys2Proof.Machine.execMmDrain c f s
  | .slotDef c f => Sys2Proof.Machine.execSlotDef c f s
  | .slotMark c f => Sys2Proof.Machine.execSlotMark c f s
  | .slotRel c f => Sys2Proof.Machine.execSlotRel c f s
  | .fctSend c f => Sys2Proof.Machine.execFctSend c f s
  | .fctRecv c f => Sys2Proof.Machine.execFctRecv c f s
  | .illegalInstruction c w => Sys2Proof.Machine.execIllegalInstruction c w s
  | .eventRecordWrite lc => Sys2Proof.Machine.execEventRecordWrite lc s
  | .launch lc desc => Sys2Proof.Machine.execLaunch lc desc s
  | .resume lc stream => Sys2Proof.Machine.execResume lc stream s
  | .restart lc stream => Sys2Proof.Machine.execRestart lc stream s
  | .endStream lc stream => Sys2Proof.Machine.execEndStream lc stream s
  | .stepBoundary lc => Sys2Proof.Machine.execStepBoundary lc s
  | .shadowLoadDone lc => Sys2Proof.Machine.execShadowLoadDone lc s
  | .frontLoadDone lc => Sys2Proof.Machine.execFrontLoadDone lc s
  | .weightSwap lc => Sys2Proof.Machine.execWeightSwap lc s
  | .weightReacquire c => Sys2Proof.Machine.execWeightReacquire c s
  | .prologueRun c => Sys2Proof.Machine.execPrologueRun c s
  | .epilogueRun c => Sys2Proof.Machine.execEpilogueRun c s
  | .rowfixRun c => Sys2Proof.Machine.execRowfixRun c s
  | .chainSend c => Sys2Proof.Machine.execChainSend c s
  | .slotFillComplete c slot tile => Sys2Proof.Machine.execSlotFillComplete c slot tile s
  | .ocLineFill lc => Sys2Proof.Machine.execOcLineFill lc s
  | .pacerTick d => Sys2Proof.Machine.execPacerTick d s
  | .droopTrigger d => Sys2Proof.Machine.execDroopTrigger d s
  | .droopGateEnd d => Sys2Proof.Machine.execDroopGateEnd d s
  | .droopHoldoffEnd d => Sys2Proof.Machine.execDroopHoldoffEnd d s
  | .timePllUnlock d => Sys2Proof.Machine.execTimePllUnlock d s
  | .timeOffsetMeasure d t1 t2 t3 t4 => Sys2Proof.Machine.execTimeOffsetMeasure d t1 t2 t3 t4 s
  | .snap lc => Sys2Proof.Machine.execSnap lc s
  | .frontReload lc => Sys2Proof.Machine.execFrontReload lc s
  | .injectCell lc => Sys2Proof.Machine.execInjectCell lc s
  | .injectOpchk lc => Sys2Proof.Machine.execInjectOpchk lc s
  | .ocInvalidate lc => Sys2Proof.Machine.execOcInvalidate lc s
  | .scratchpadScrub lc => Sys2Proof.Machine.execScratchpadScrub lc s
  | .storeBufferSend lc ix => Sys2Proof.Machine.execStoreBufferSend lc ix s
  | .waitReread c => Sys2Proof.Machine.execWaitReread c s
  | .rdOnce r vertex a h => Sys2Proof.Machine.execRdOnce r vertex a h s
  | .rdShared r a h => Sys2Proof.Machine.execRdShared r a h s
  | .rdUnique r a h => Sys2Proof.Machine.execRdUnique r a h s
  | .wrPart r vertex a h mask data => Sys2Proof.Machine.execWrPart r vertex a h mask data s
  | .wrLine r vertex a h data => Sys2Proof.Machine.execWrLine r vertex a h data s
  | .atomic r vertex a op dbl v => Sys2Proof.Machine.execAtomic r vertex a op dbl v s
  | .evict r a data => Sys2Proof.Machine.execEvict r a data s
  | .recall a holder => Sys2Proof.Machine.execRecall a holder s
  | .recallResponse a holder data => Sys2Proof.Machine.execRecallResponse a holder data s
  | .acknowledgement a r => Sys2Proof.Machine.execAcknowledgement a r s
  | .homeResponse a => Sys2Proof.Machine.execHomeResponse a s
  | .homeTimeout a => Sys2Proof.Machine.execHomeTimeout a s
  | .remoteWriteTimeout lc ix => Sys2Proof.Machine.execRemoteWriteTimeout lc ix s
  | .pageWalk r => Sys2Proof.Machine.execPageWalk r s
  | .faultRecordPost b => Sys2Proof.Machine.execFaultRecordPost b s
  | .resolveRetry id => Sys2Proof.Machine.execResolveRetry id s
  | .resolveFail id => Sys2Proof.Machine.execResolveFail id s
  | .invalidation cmd => Sys2Proof.Machine.execInvalidation cmd s
  | .invalidationComplete => Sys2Proof.Machine.execInvalidationComplete s
  | .counterFlush => Sys2Proof.Machine.execCounterFlush s
  | .counterHalve => Sys2Proof.Machine.execCounterHalve s
  | .counterClear => Sys2Proof.Machine.execCounterClear s
  | .tierCharge g tier regions => Sys2Proof.Machine.execTierCharge g tier regions s
  | .tierRelease g tier regions => Sys2Proof.Machine.execTierRelease g tier regions s
  | .tierLateTimeout a => Sys2Proof.Machine.execTierLateTimeout a s
  | .tierStallRetry a => Sys2Proof.Machine.execTierStallRetry a s
  | .stackTemperatureReport j temp => Sys2Proof.Machine.execStackTemperatureReport j temp s
  | .t1Read a o => Sys2Proof.Machine.execT1Read a o s
  | .stripeRetire j ix => Sys2Proof.Machine.execStripeRetire j ix s
  | .rebuildStep j => Sys2Proof.Machine.execRebuildStep j s
  | .patrolScrub j bad => Sys2Proof.Machine.execPatrolScrub j bad s
  | .jsFailGo j chan => Sys2Proof.Machine.execJsFailGo j chan s
  | .mscFlush b => Sys2Proof.Machine.execMscFlush b s
  | .mscInvalidate b => Sys2Proof.Machine.execMscInvalidate b s
  | .mscWayReplace h way => Sys2Proof.Machine.execMscWayReplace h way s
  | .ddrPatrolScrub bad => Sys2Proof.Machine.execDdrPatrolScrub bad s
  | .hartUncorrectableError h inCache => Sys2Proof.Machine.execHartUncorrectableError h inCache s
  | .expanderLinkLost p => Sys2Proof.Machine.execExpanderLinkLost p s
  | .inboundRequest p q => Sys2Proof.Machine.execInboundRequest p q s
  | .doorbell e count => Sys2Proof.Machine.execDoorbell e count s
  | .descriptorFetch e => Sys2Proof.Machine.execDescriptorFetch e s
  | .descriptorRefetch e => Sys2Proof.Machine.execDescriptorRefetch e s
  | .copy e count => Sys2Proof.Machine.execCopy e count s
  | .copyAndDecrypt e count => Sys2Proof.Machine.execCopyAndDecrypt e count s
  | .fillPattern e count => Sys2Proof.Machine.execFillPattern e count s
  | .descriptorComplete e => Sys2Proof.Machine.execDescriptorComplete e s
  | .ringReset e => Sys2Proof.Machine.execRingReset e s
  | .hostFlushTimeout => Sys2Proof.Machine.execHostFlushTimeout s
  | .epLinkRetrain => Sys2Proof.Machine.execEpLinkRetrain s
  | .epLinkDown => Sys2Proof.Machine.execEpLinkDown s
  | .perstNAssert => Sys2Proof.Machine.execPerstNAssert s
  | .flitReceive k seq ok => Sys2Proof.Machine.execFlitReceive k seq ok s
  | .resendRequest k seq => Sys2Proof.Machine.execResendRequest k seq s
  | .laneSignalLoss k l => Sys2Proof.Machine.execLaneSignalLoss k l s
  | .laneErrorWindow k l uncorr symErr symTotal => Sys2Proof.Machine.execLaneErrorWindow k l uncorr symErr symTotal s
  | .laneRetrainAttempt k l trained => Sys2Proof.Machine.execLaneRetrainAttempt k l trained s
  | .laneReturn k l => Sys2Proof.Machine.execLaneReturn k l s
  | .laneFail k lanes => Sys2Proof.Machine.execLaneFail k lanes s
  | .retrain k trained => Sys2Proof.Machine.execRetrain k trained s
  | .laserFeedLow unit moduleB => Sys2Proof.Machine.execLaserFeedLow unit moduleB s
  | .laserFeedRestored unit moduleB => Sys2Proof.Machine.execLaserFeedRestored unit moduleB s
  | .linkTrainingComplete k lanes peer farLink reachRx => Sys2Proof.Machine.execLinkTrainingComplete k lanes peer farLink reachRx s
  | .routeUpdate => Sys2Proof.Machine.execRouteUpdate s
  | .packetHop k cls vc => Sys2Proof.Machine.execPacketHop k cls vc s
  | .tileHeaderArrival hdr => Sys2Proof.Machine.execTileHeaderArrival hdr s
  | .clearToSend lc ix => Sys2Proof.Machine.execClearToSend lc ix s
  | .headerHoldTimeout lc ix => Sys2Proof.Machine.execHeaderHoldTimeout lc ix s
  | .hartArrival b line => Sys2Proof.Machine.execHartArrival b line s
  | .collectiveArrival line => Sys2Proof.Machine.execCollectiveArrival line s
  | .barrier line => Sys2Proof.Machine.execBarrier line s
  | .allReduce line => Sys2Proof.Machine.execAllReduce line s
  | .reduceScatter line => Sys2Proof.Machine.execReduceScatter line s
  | .allGather line => Sys2Proof.Machine.execAllGather line s
  | .broadcast line => Sys2Proof.Machine.execBroadcast line s
  | .snapshot line => Sys2Proof.Machine.execSnapshot line s
  | .collectivePartialReceive line p => Sys2Proof.Machine.execCollectivePartialReceive line p s
  | .digestBlockReceive line b => Sys2Proof.Machine.execDigestBlockReceive line b s
  | .roundComplete line => Sys2Proof.Machine.execRoundComplete line s
  | .snapshotMarker line => Sys2Proof.Machine.execSnapshotMarker line s
  | .contributionFailNotice from_ step block => Sys2Proof.Machine.execContributionFailNotice from_ step block s
  | .latticeResetReceive dim seq => Sys2Proof.Machine.execLatticeResetReceive dim seq s
  | .chordFlitReceive d conn seq ok => Sys2Proof.Machine.execChordFlitReceive d conn seq ok s
  | .chordResend d conn grp diff => Sys2Proof.Machine.execChordResend d conn grp diff s
  | .chdFailGo d conn wire => Sys2Proof.Machine.execChdFailGo d conn wire s
  | .chordRemapComplete d conn => Sys2Proof.Machine.execChordRemapComplete d conn s
  | .heartbeatTimeout lc => Sys2Proof.Machine.execHeartbeatTimeout lc s
  | .probeTimeout lc => Sys2Proof.Machine.execProbeTimeout lc s
  | .supplyOutOfRegulation d m => Sys2Proof.Machine.execSupplyOutOfRegulation d m s
  | .parityError c => Sys2Proof.Machine.execParityError c s
  | .spareWakeComplete lc => Sys2Proof.Machine.execSpareWakeComplete lc s
  | .replayRestore c => Sys2Proof.Machine.execReplayRestore c s
  | .replayCatchUp lc => Sys2Proof.Machine.execReplayCatchUp lc s
  | .checkDigestCompare c check => Sys2Proof.Machine.execCheckDigestCompare c check s
  | .screeningRun d m => Sys2Proof.Machine.execScreeningRun d m s
  | .screeningResult d m digest => Sys2Proof.Machine.execScreeningResult d m digest s
  | .plannedMigration c => Sys2Proof.Machine.execPlannedMigration c s
  | .errorRecordWrite => Sys2Proof.Machine.execErrorRecordWrite s
  | .ledgerAppend => Sys2Proof.Machine.execLedgerAppend s
  | .quiescenceEntry u => Sys2Proof.Machine.execQuiescenceEntry u s
  | .entryComplete u => Sys2Proof.Machine.execEntryComplete u s
  | .unitWake u => Sys2Proof.Machine.execUnitWake u s
  | .wakeComplete u => Sys2Proof.Machine.execWakeComplete u s
  | .wakeTimeout lc => Sys2Proof.Machine.execWakeTimeout lc s
  | .unitEnable u => Sys2Proof.Machine.execUnitEnable u s
  | .unitDisable u => Sys2Proof.Machine.execUnitDisable u s
  | .tolWrite u tol => Sys2Proof.Machine.execTolWrite u tol s
  | .capEvaluation power mean1ms => Sys2Proof.Machine.execCapEvaluation power mean1ms s
  | .powerCreditExchange => Sys2Proof.Machine.execPowerCreditExchange s
  | .powerCreditMessage m => Sys2Proof.Machine.execPowerCreditMessage m s
  | .creditArrival from_ watts => Sys2Proof.Machine.execCreditArrival from_ watts s
  | .reconciliation sum budget members lowest => Sys2Proof.Machine.execReconciliation sum budget members lowest s
  | .thermalSample d tj => Sys2Proof.Machine.execThermalSample d tj s
  | .thermalTrip d => Sys2Proof.Machine.execThermalTrip d s
  | .coolantFail lowNs => Sys2Proof.Machine.execCoolantFail lowNs s
  | .stopRailRelease => Sys2Proof.Machine.execStopRailRelease s
  | .stopHostHalt => Sys2Proof.Machine.execStopHostHalt s
  | .extendMeasurement index => Sys2Proof.Machine.execExtendMeasurement index s
  | .measureProgram => Sys2Proof.Machine.execMeasureProgram s
  | .issueReport => Sys2Proof.Machine.execIssueReport s
  | .loadBlob slot => Sys2Proof.Machine.execLoadBlob slot s
  | .clearSlot slot => Sys2Proof.Machine.execClearSlot slot s
  | .pkgResetNAssert lowNs => Sys2Proof.Machine.execPkgResetNAssert lowNs s
  | .pkgResetNRelease straps => Sys2Proof.Machine.execPkgResetNRelease straps s
  | .railFault rail => Sys2Proof.Machine.execRailFault rail s
  | .refclkLoss => Sys2Proof.Machine.execRefclkLoss s
  | .bootRomStage b => Sys2Proof.Machine.execBootRomStage b s
  | .firstStage b => Sys2Proof.Machine.execFirstStage b s
  | .ledgerRead => Sys2Proof.Machine.execLedgerRead s
  | .railSequence good => Sys2Proof.Machine.execRailSequence good s
  | .chordTraining => Sys2Proof.Machine.execChordTraining s
  | .selfTest fails => Sys2Proof.Machine.execSelfTest fails s
  | .coreAssignment => Sys2Proof.Machine.execCoreAssignment s
  | .jahelTraining => Sys2Proof.Machine.execJahelTraining s
  | .ddrTraining dimms trained => Sys2Proof.Machine.execDdrTraining dimms trained s
  | .facetTraining => Sys2Proof.Machine.execFacetTraining s
  | .hostStart offs hostDigest => Sys2Proof.Machine.execHostStart offs hostDigest s
  | .packageColdReset byPin => Sys2Proof.Machine.execPackageColdReset byPin s
  | .packageWarmReset byLattice => Sys2Proof.Machine.execPackageWarmReset byLattice s
  | .hostCoreComplexReset => Sys2Proof.Machine.execHostCoreComplexReset s
  | .perCoreReset lc => Sys2Proof.Machine.execPerCoreReset lc s
  | .perDomainReset target => Sys2Proof.Machine.execPerDomainReset target s
  | .latticeReset => Sys2Proof.Machine.execLatticeReset s
  | .fwSwitch img => Sys2Proof.Machine.execFwSwitch img s
  | .handoff pauseNs => Sys2Proof.Machine.execHandoff pauseNs s
  | .probationEnd => Sys2Proof.Machine.execProbationEnd s
  | .fwCommit => Sys2Proof.Machine.execFwCommit s
  | .watchdogExpiry => Sys2Proof.Machine.execWatchdogExpiry s
  | .monitorArm m => Sys2Proof.Machine.execMonitorArm m s
  | .monitorDisarm m => Sys2Proof.Machine.execMonitorDisarm m s
  | .monitorWindowOpen m => Sys2Proof.Machine.execMonitorWindowOpen m s
  | .monitorSample m src v late => Sys2Proof.Machine.execMonitorSample m src v late s
  | .monitorWindowClose m => Sys2Proof.Machine.execMonitorWindowClose m s
  | .mbStatus p => Sys2Proof.Machine.execMbStatus p s
  | .readErrorRecords p arg => Sys2Proof.Machine.execReadErrorRecords p arg s
  | .readMonitor p arg => Sys2Proof.Machine.execReadMonitor p arg s
  | .writeFirmwareImage p length arg => Sys2Proof.Machine.execWriteFirmwareImage p length arg s
  | .switchFirmwareBank p => Sys2Proof.Machine.execSwitchFirmwareBank p s
  | .deliverFirstStage p length => Sys2Proof.Machine.execDeliverFirstStage p length s
  | .loadScreeningProgram p length => Sys2Proof.Machine.execLoadScreeningProgram p length s
  | .mbReadLedger p => Sys2Proof.Machine.execMbReadLedger p s
  | .mbReport p => Sys2Proof.Machine.execMbReport p s
  | .loadKeyBlob p arg => Sys2Proof.Machine.execLoadKeyBlob p arg s
  | .mbCertificates p => Sys2Proof.Machine.execMbCertificates p s
  | .latticeConfiguration p => Sys2Proof.Machine.execLatticeConfiguration p s
  | .laserService p arg => Sys2Proof.Machine.execLaserService p arg s
  | .resetCommand p arg => Sys2Proof.Machine.execResetCommand p arg s
  | .mbHdmRange p => Sys2Proof.Machine.execMbHdmRange p s
  | .mbAbort p => Sys2Proof.Machine.execMbAbort p s
  | .mbDataWrite p w => Sys2Proof.Machine.execMbDataWrite p w s
  | .mbDataRead p => Sys2Proof.Machine.execMbDataRead p s
  | .mailboxTimeout => Sys2Proof.Machine.execMailboxTimeout s
  | .setdasa addr => Sys2Proof.Machine.execSetdasa addr s
  | .entdaa addr => Sys2Proof.Machine.execEntdaa addr s
  | .rstdaa => Sys2Proof.Machine.execRstdaa s
  | .tapBypass => Sys2Proof.Machine.execTapBypass s
  | .tapIdcode => Sys2Proof.Machine.execTapIdcode s
  | .tapSamplePreload => Sys2Proof.Machine.execTapSamplePreload s
  | .tapExtest => Sys2Proof.Machine.execTapExtest s
  | .tapExtestPulse => Sys2Proof.Machine.execTapExtestPulse s
  | .tapExtestTrain => Sys2Proof.Machine.execTapExtestTrain s
  | .tapClamp => Sys2Proof.Machine.execTapClamp s
  | .tapHighz => Sys2Proof.Machine.execTapHighz s
  | .rcFieldRead g a size => Sys2Proof.Machine.execRcFieldRead g a size s
  | .registerWrite g a size v => Sys2Proof.Machine.execRegisterWrite g a size v s
  | .lowerTierResponse a o => Sys2Proof.Machine.execLowerTierResponse a o s
  | .channelFaultReport j chan => Sys2Proof.Machine.execChannelFaultReport j chan s
  | .perstNRelease => Sys2Proof.Machine.execPerstNRelease s
  | .pcieCompletionTimeout e count seg => Sys2Proof.Machine.execPcieCompletionTimeout e count seg s
  | .modeSwitchComplete k => Sys2Proof.Machine.execModeSwitchComplete k s

end Sys2Proof.Machine
end

