-- ==== Sys2Proof/Safety.lean ====
section
/-! DEFINITION. The terms in which claims about the part are stated: when an instruction is offered, what it leaves when it only works
on its context, what such an instruction may write, and the invariant of memory. -/

namespace Sys2Proof.Machine

/-- A context's instruction issues in this step of its core: the context holds a stream that runs, and neither R95's gates nor another
context keep the scalar issue unit from it (R95, R114, R129). -/
def State.offers (s : State) (c : Cx) : Prop := s.canIssue c = true ∧ s.gate c = none

/-- The state after an instruction that does no more than change its context: the change, the next pc, and the issue slot and
counters of the step (R129, R154, R195, R262). -/
def State.ran (s : State) (c : Cx) (g : Context → Context) : State := ((s.updCtx c g).updCtx c Context.advance).issued c

/-- The state after an instruction whose effect on the machine has already been made. -/
def State.finished (s : State) (c : Cx) : State := (s.updCtx c Context.advance).issued c

/-- A command answers a next state, and the state has a property. -/
def Leads (i : Instr) (s : State) (P : State → Prop) : Prop := ∃ t, exec i s = .next t ∧ P t

/-- The memory keeps its canonical form: addresses rise, and no listed byte reads as an unlisted one does. -/
def State.memOk (s : State) : Prop := Memory.wf s.mem

/-! ## The DTI instructions -/

/-- The context of a DTI instruction (R186). -/
def Instr.cx : Instr → Option Cx
  | .add c _ | .sub c _ | .mul c _ | .mulh c _ | .mulhu c _ | .divu c _ | .remu c _ | .and c _ | .or c _ | .xor c _ | .sll c _
  | .srl c _ | .sra c _ | .slt c _ | .sltu c _ | .min c _ | .max c _ | .mvA c _ | .mvS c _ | .addA c _ | .addi c _ | .andi c _
  | .ori c _ | .xori c _ | .slli c _ | .srli c _ | .srai c _ | .li c _ | .lui c _ | .addiA c _ | .fadd c _ | .fsub c _
  | .fmul c _ | .fma c _ | .fdiv c _ | .fsqrt c _ | .fmin c _ | .fmax c _ | .fcvtSI c _ | .fcvtIS c _ | .feq c _ | .flt c _
  | .fle c _ | .astatRd c _ | .astatClr c _ | .srseed c _ | .srstateRd c _ | .timeRd c _ | .vadd c _ | .vsub c _ | .vmul c _
  | .vfma c _ | .vfms c _ | .vdiv c _ | .vsqrt c _ | .vrcp c _ | .vrsqrt c _ | .vmin c _ | .vmax c _ | .vabs c _ | .vneg c _
  | .vmov c _ | .vbcast c _ | .vsel c _ | .vext c _ | .vins c _ | .vrsum c _ | .vrmax c _ | .vrmin c _ | .vrsumsq c _
  | .vexp2 c _ | .vlog2 c _ | .vexp c _ | .vlog c _ | .vtanh c _ | .vsigm c _ | .vsilu c _ | .vgelu c _ | .vsin c _ | .vcos c _
  | .cvtN c _ | .cvtW c _ | .vcmpEq c _ | .vcmpLt c _ | .vcmpLe c _ | .vcmpUn c _ | .pand c _ | .por c _ | .pxor c _
  | .pnot c _ | .pfirst c _ | .ld c _ | .lds c _ | .st c _ | .vld c _ | .vst c _ | .vldP c _ | .vstP c _ | .vldS c _
  | .vstS c _ | .vstC c _ | .vldAcc c _ | .vstAcc c _ | .ldV c _ | .amoAdd c _ | .amoAnd c _ | .amoOr c _ | .amoXor c _
  | .amoMin c _ | .amoMax c _ | .amoMinu c _ | .amoMaxu c _ | .amoSwap c _ | .amoCas c _ | .bcpIn c _ | .bcpOut c _ | .pfOc c _
  | .pfMsc c _ | .tld c _ | .tst c _ | .fenceLd c _ | .fenceSt c _ | .fenceAll c _ | .flagSet c _ | .wait c _ | .barArrive c _
  | .beq c _ | .bne c _ | .blt c _ | .bge c _ | .bltu c _ | .bgeu c _ | .jal c _ | .jr c _ | .brk c _ | .loop c _ | .lbreak c _
  | .commit c _ | .halt c _ | .chainLd c _ | .chainRowfix c _ | .chainDrop c _ | .mmLdwS c _ | .mmLdwF c _ | .mmPass c _
  | .mmSwap c _ | .mmDrain c _ | .slotDef c _ | .slotMark c _ | .slotRel c _ | .fctSend c _ | .fctRecv c _ => some c
  | _ => none

/-- The DTI instructions whose lanes are predicated each (R192); the predicate of lane 0 decides about every other (R193). -/
def Instr.laned : Instr → Bool
  | .vadd _ _ | .vsub _ _ | .vmul _ _ | .vfma _ _ | .vfms _ _ | .vdiv _ _ | .vsqrt _ _ | .vrcp _ _ | .vrsqrt _ _ | .vmin _ _
  | .vmax _ _ | .vabs _ _ | .vneg _ _ | .vmov _ _ | .vbcast _ _ | .vsel _ _ | .vins _ _ | .vrsum _ _ | .vrmax _ _ | .vrmin _ _
  | .vrsumsq _ _ | .vexp2 _ _ | .vlog2 _ _ | .vexp _ _ | .vlog _ _ | .vtanh _ _ | .vsigm _ _ | .vsilu _ _ | .vgelu _ _
  | .vsin _ _ | .vcos _ _ | .cvtN _ _ | .cvtW _ _ | .vcmpEq _ _ | .vcmpLt _ _ | .vcmpLe _ _ | .vcmpUn _ _ | .pand _ _
  | .por _ _ | .pxor _ _ | .pnot _ _ | .pfirst _ _ | .vld _ _ | .vst _ _ | .vldP _ _ | .vstP _ _ | .vldS _ _ | .vstS _ _
  | .vstC _ _ | .vldAcc _ _ | .vstAcc _ _ => true
  | _ => false

/-! ## What an instruction on registers may write -/

/-- The register that an instruction of a context writes. -/
inductive Dest where
  | none
  | s (r : BitVec 5)
  | a (r : BitVec 4)
  | v (r : BitVec 5)
  | p (r : BitVec 3)
  deriving DecidableEq, Repr

/-- What an instruction that works on registers writes: its context, its destination, whether its rule lets it raise or clear flags
of astat, and whether it moves the random state. -/
structure Writes where
  c : Cx
  dest : Dest
  flags : Bool
  sr : Bool
  deriving DecidableEq, Repr

/-- The instructions that read and write registers of their context only, and what each writes (R228 to R243). -/
def Instr.writes : Instr → Option Writes
  | .add c f | .sub c f | .mul c f | .mulh c f | .mulhu c f | .divu c f | .remu c f | .and c f | .or c f | .xor c f
  | .sll c f | .srl c f | .sra c f | .slt c f | .sltu c f | .min c f | .max c f | .mvS c f | .vext c f =>
    some ⟨c, .s f.d, false, false⟩
  | .mvA c f | .addA c f => some ⟨c, .a (f.d.setWidth 4), false, false⟩
  | .addi c f | .andi c f | .ori c f | .xori c f | .slli c f | .srli c f | .srai c f | .li c f | .lui c f | .astatRd c f
  | .srstateRd c f => some ⟨c, .s f.d, false, false⟩
  | .addiA c f => some ⟨c, .a (f.d.setWidth 4), false, false⟩
  | .fadd c f | .fsub c f | .fmul c f | .fma c f | .fdiv c f | .fsqrt c f | .fmin c f | .fmax c f | .fcvtSI c f | .fcvtIS c f
  | .feq c f | .flt c f | .fle c f => some ⟨c, .s f.d, true, false⟩
  | .astatClr c _ => some ⟨c, .none, true, false⟩
  | .srseed c _ => some ⟨c, .none, false, true⟩
  | .vadd c f | .vsub c f | .vmul c f | .vfma c f | .vfms c f | .vdiv c f | .vsqrt c f | .vrcp c f | .vrsqrt c f | .vmin c f
  | .vmax c f | .vrsum c f | .vrmax c f | .vrmin c f | .vrsumsq c f | .vexp2 c f | .vlog2 c f | .vexp c f | .vlog c f
  | .vtanh c f | .vsigm c f | .vsilu c f | .vgelu c f | .vsin c f | .vcos c f | .cvtW c f => some ⟨c, .v f.d, true, false⟩
  | .vabs c f | .vneg c f | .vmov c f | .vbcast c f | .vsel c f | .vins c f => some ⟨c, .v f.d, false, false⟩
  | .cvtN c f => some ⟨c, .v f.d, true, true⟩
  | .vcmpEq c f | .vcmpLt c f | .vcmpLe c f | .vcmpUn c f => some ⟨c, .p (f.d.setWidth 3), true, false⟩
  | .pand c f | .por c f | .pxor c f | .pnot c f | .pfirst c f => some ⟨c, .p (f.d.setWidth 3), false, false⟩
  | _ => none

/-- What such an instruction leaves of its context and of the machine, whether it runs, waits or raises an exception: every register
but its destination, astat and the random state unless its rule names them, every other context, every register of the register map,
and every byte of memory. -/
structure RegFrame (w : Writes) (s t : State) : Prop where
  scalar : ∀ r, w.dest ≠ .s r → (t.ctx w.c).sget r = (s.ctx w.c).sget r
  address : ∀ r, w.dest ≠ .a r → (t.ctx w.c).aget r = (s.ctx w.c).aget r
  vector : ∀ r i, w.dest ≠ .v r → (t.ctx w.c).vlane r i = (s.ctx w.c).vlane r i
  predicate : ∀ r i, w.dest ≠ .p r → (t.ctx w.c).plane r i = (s.ctx w.c).plane r i
  tile : ∀ r, (t.ctx w.c).tget r = (s.ctx w.c).tget r
  slots : ∀ r, (t.ctx w.c).slot r = (s.ctx w.c).slot r
  claims : (t.ctx w.c).live = (s.ctx w.c).live ∧ (t.ctx w.c).shadow = (s.ctx w.c).shadow
  flags : w.flags = false → (t.ctx w.c).astat = (s.ctx w.c).astat
  random : w.sr = false → (t.ctx w.c).srstate = (s.ctx w.c).srstate
  stream : (t.ctx w.c).stream = (s.ctx w.c).stream
  others : ∀ c', c' ≠ w.c → t.ctx c' = s.ctx c'
  registers : ∀ r, t.reg r = s.reg r
  memory : ∀ a, Memory.read t.mem a = Memory.read s.mem a

/-! ## Commands of management -/

/-- The commands of power, start-up, firmware, monitors, mailbox, management bus and test port that reach neither a core nor memory
(R602 to R631, R644, R671, R684, R689 to R711). -/
def Instr.manages : Instr → Bool
  | .quiescenceEntry _ | .unitWake _ | .unitEnable _ | .unitDisable _ | .tolWrite _ _ | .capEvaluation _ _
  | .powerCreditExchange | .powerCreditMessage _ | .creditArrival _ _ | .reconciliation _ _ _ _ | .thermalSample _ _
  | .pkgResetNRelease _ | .bootRomStage _ | .firstStage _ | .ledgerRead | .railSequence _ | .chordTraining | .selfTest _
  | .ddrTraining _ _ | .facetTraining | .fwSwitch _ | .probationEnd | .fwCommit | .watchdogExpiry | .clearSlot _
  | .monitorArm _ | .monitorDisarm _ | .monitorWindowOpen _ | .monitorSample _ _ _ _ | .monitorWindowClose _
  | .mbStatus _ | .readErrorRecords _ _ | .readMonitor _ _ | .writeFirmwareImage _ _ _ | .switchFirmwareBank _
  | .deliverFirstStage _ _ | .loadScreeningProgram _ _ | .mbReadLedger _ | .mbReport _ | .loadKeyBlob _ _ | .mbCertificates _
  | .latticeConfiguration _ | .mbHdmRange _ | .mbAbort _ | .mbDataRead _ | .mailboxTimeout | .setdasa _ | .entdaa _ | .rstdaa
  | .tapBypass | .tapIdcode | .tapSamplePreload | .tapExtest | .tapExtestPulse | .tapExtestTrain | .tapClamp | .tapHighz => true
  | _ => false

end Sys2Proof.Machine
end

