-- ==== Sys2Proof/Certificates/Slice0/Obligations.lean ====
section
/-! DEFINITION. The statements about the part. Each says in its text which rules of the manual it rests on. -/

open Sys2Proof Sys2Proof.Machine


/-- A step takes the front command, and idles on an empty queue. With command c at the front of the queue, a step is exec of c on
the state with the queue's rest. With no command waiting, a step leaves the state as it is (the model's own choice: log entry
30). (95_what_each_step_holds.md.) -/
def Obligations.StepRunsFrontCommand : Prop :=
  (∀ (c : Instr) (rest : List Instr) (s : State), step { s with pending := c :: rest } = exec c { s with pending := rest }) ∧
  ∀ s : State, s.pending = [] → step s = .next s

/-- Every step keeps the memory in its canonical form. In the memory the addresses rise and no listed byte has the value that an
unlisted byte reads as (the form is the model's own). From every state in which this holds, a step that answers a next state
gives one in which it holds. (R117, R321, R713.) -/
def Obligations.MemoryStaysCanonical : Prop :=
  ∀ s t : State, s.memOk → step s = .next t → t.memOk

/-- What reset leaves: an empty canonical memory, no command waiting, and the registers at their reset values. The state after reset
has its memory in canonical form, and each byte of it reads as zero (zero is the manual's for T1 after start-up and the model's
own choice elsewhere: log entry 10); no command waits. Fields whose table gives a value other than 0 hold it, for every number
of the unit: ctx_en 0xF, quantum_us 200, period_s 600, rate 0x0180_0000, threshold_mv and gate_ns 25, size_log2 12, t2_us 20 and
t3_us 100, rebuild_share 4, scrub_s 3,600, keep_max 16, budget 10, cap_w 4,800, laser_w 40, vmax_mv 720, lattice_reset_en 1.
(R135, R165, R417, R456, R598, R636, R671, R688, R713.) -/
def Obligations.StateAfterReset : Prop :=
  (State.reset.memOk ∧ ∀ a, Memory.read State.reset.mem a = 0) ∧ State.reset.pending = [] ∧
  ∀ n : Nat, let f (k : RegKind) (hi lo : Nat) : Nat := State.reset.fget (rg k n) hi lo
    f .coreCtl 3 0 = 0xF ∧ f .coreSlice 15 0 = 200 ∧ f .coreSpdScrub 15 0 = 600 ∧
    f .paceCtl 63 32 = 0x01800000 ∧ f .droopCtl 7 0 = 25 ∧ f .droopCtl 15 8 = 25 ∧
    f .xltInvVa 62 57 = 12 ∧ f .tierLate 15 0 = 20 ∧ f .tierLate 31 16 = 100 ∧
    f .jsCtl 5 0 = 4 ∧ f .jsCtl 23 8 = 3600 ∧ f .mscCtl 4 0 = 16 ∧ f .errScreen 11 8 = 10 ∧
    f .capCtl 12 0 = 4800 ∧ f .capCtl 23 16 = 40 ∧ f .capCtl 41 32 = 720 ∧ f .bootCtl 0 0 = 1

/-- Decoding the word of an allowed DTI instruction gives the instruction. For each of the 152 DTI instructions, with every value of
every field that R188 and its row allow: the word written for it by R186 and the opcode tables decodes, in its own context, to
that instruction with the same fields. (No context is part of a word.) (R185, R186, R187, R188, R189.) -/
def Obligations.InstructionWordsDecode : Prop :=
  ∀ (i : Instr) (w : W64) (c : Cx), dtiWord i = some w → Instr.cx i = some c → i.legal = true → decodeDti c w = some i

/-- A DTI instruction that R188 does not allow raises ILLEGAL. For each DTI instruction whose fields break R188 or its row, when it
is offered to its context: it raises ILLEGAL with its own 64-bit word as the detail, and has no other effect. A word that stands
for no instruction does the same. (R188.) -/
def Obligations.IllegalInstructionStops : Prop :=
  (∀ (i : Instr) (w : W64) (c : Cx) (s : State), dtiWord i = some w → Instr.cx i = some c → i.legal = false → s.offers c →
    exec i s = .next (s.raise c .illegal (s.ctx c).pc 0 w)) ∧
  ∀ (c : Cx) (w : W64) (s : State), decodeDti c w = none → s.offers c →
    exec (.illegalInstruction c w) s = .next (s.raise c .illegal (s.ctx c).pc 0 w)

/-- A false predicate of lane 0 makes an instruction have no effect. For each DTI instruction but those whose lanes are predicated
each: offered with allowed fields and a false predicate in lane 0, it changes nothing but the pc, and is counted as issued.
(R193.) -/
def Obligations.FalsePredicateDoesNothing : Prop :=
  ∀ (i : Instr) (w : W64) (c : Cx) (s : State), dtiWord i = some w → Instr.cx i = some c → i.legal = true →
    Instr.laned i = false → s.offers c → (s.ctx c).pred (wordPn w) (wordPg w) 0 = false → exec i s = .next (s.finished c)

/-- A context that cannot run ignores its instructions, and one that is kept from the slot waits. For each DTI instruction and its
context: while the context holds no running stream or has a request, a commit or a replay outstanding, the command changes
nothing. While a droop gate, an empty step or a miss keeps the context from the scalar issue unit, the command changes nothing
but the context's wait cause; and so does a command on registers while the slot is another context's. (R95, R114, R129, R131.) -/
def Obligations.InstructionsWaitTheirTurn : Prop :=
  ∀ (i : Instr) (c : Cx) (s : State), Instr.cx i = some c →
    (s.canIssue c = false → exec i s = .next s) ∧
    ∀ w, s.canIssue c = true → s.gate c = some w → (w = .issue → (Instr.writes i).isSome) → exec i s = .next (s.waits c w)

/-- Taking an exception. The context is STOPPED and keeps its stream, pc and registers; a record with the exception's code joins the
core's event records; its field of CORE_CTX_STATUS reads 0b11; no other context changes. (R196.) -/
def Obligations.ExceptionEntry : Prop :=
  ∀ (s : State) (c : Cx) (e : Exc) (pc data det : W64) (id : W32) (x : Stream),
    (s.ctx c).stream = some id → (s.core c.lc).stream id = some x →
    let t := s.raise c e pc data det
    (t.ctx c).st = .stopped ∧ (t.ctx c).stream = some id ∧ (t.ctx c).pc = (s.ctx c).pc ∧ (t.ctx c).s = (s.ctx c).s ∧
    (t.core c.lc).events = (s.core c.lc).events ++ [⟨e.code, c.ix, x, pc, data, s.now c.lc, s.epoch c, det⟩] ∧
    bits (t.regView (rg .coreCtxStatus c.lc.val)) (16 * c.ix.val + 1) (16 * c.ix.val) = 3 ∧
    ∀ c', c' ≠ c → t.ctx c' = s.ctx c'

/-- What the instructions on registers leave unchanged. For each of the 90 instructions that work on registers (scalar, immediate,
FP32, vector, reduction, transcendental, conversion, predicate and status instructions but time.rd), in every form and whether
it runs, waits or raises ILLEGAL: each register but its destination, each slot, descriptor and claim, astat and the random state
unless its rule names them, every other context, every register of the register map and every byte of memory are unchanged.
(R176, R178, R192, R195, R228, R229, R230, R231, R233, R234, R239, R243.) -/
def Obligations.RegisterInstructionsFrame : Prop :=
  ∀ (i : Instr) (w : Writes) (s t : State), Instr.writes i = some w → exec i s = .next t → RegFrame w s t

/-- The scalar integer and logic instructions. add to max, mv.a, mv.s and add.a, offered with allowed fields and a true predicate:
each answers the state in which s[d] (a[d] for mv.a and add.a) has the value of R228, and nothing else has changed but the pc
and the issue of the step. s0 takes no value. (R228.) -/
def Obligations.ScalarIntegerResults : Prop :=
  ∀ (c : Cx) (f : SForm) (s : State), s.offers c → (s.ctx c).pred f.pn f.pg 0 = true →
    let k := s.ctx c
    let x := k.sget f.x
    let y := k.sget f.y
    let gives (i : Instr) (w : W64) : Prop := exec i s = .next (s.ran c fun k => k.sset f.d w)
    let givesA (i : Instr) (w : W64) : Prop := exec i s = .next (s.ran c fun k => k.aset (f.d.setWidth 4) w)
    (f.legal 0x01 0x00 → gives (.add c f) (x + y)) ∧
    (f.legal 0x01 0x01 → gives (.sub c f) (x - y)) ∧
    (f.legal 0x01 0x02 → gives (.mul c f) (x * y)) ∧
    (f.legal 0x01 0x03 → gives (.mulh c f) (BitVec.ofInt 64 (x.toInt * y.toInt / 2 ^ 64))) ∧
    (f.legal 0x01 0x04 → gives (.mulhu c f) (BitVec.ofNat 64 (x.toNat * y.toNat / 2 ^ 64))) ∧
    (f.legal 0x01 0x05 → gives (.divu c f) (if y = 0 then BitVec.allOnes 64 else x / y)) ∧
    (f.legal 0x01 0x06 → gives (.remu c f) (if y = 0 then x else x % y)) ∧
    (f.legal 0x01 0x07 → gives (.and c f) (x &&& y)) ∧
    (f.legal 0x01 0x08 → gives (.or c f) (x ||| y)) ∧
    (f.legal 0x01 0x09 → gives (.xor c f) (x ^^^ y)) ∧
    (f.legal 0x01 0x0A → gives (.sll c f) (x <<< (y.toNat % 64))) ∧
    (f.legal 0x01 0x0B → gives (.srl c f) (x >>> (y.toNat % 64))) ∧
    (f.legal 0x01 0x0C → gives (.sra c f) (x.sshiftRight (y.toNat % 64))) ∧
    (f.legal 0x01 0x0D → gives (.slt c f) (if x.toInt < y.toInt then 1 else 0)) ∧
    (f.legal 0x01 0x0E → gives (.sltu c f) (if x.toNat < y.toNat then 1 else 0)) ∧
    (f.legal 0x01 0x0F → gives (.min c f) (if x.toInt < y.toInt then x else y)) ∧
    (f.legal 0x01 0x10 → gives (.max c f) (if x.toInt < y.toInt then y else x)) ∧
    (f.legal 0x01 0x20 → givesA (.mvA c f) x) ∧
    (f.legal 0x01 0x21 → gives (.mvS c f) (k.aget (f.x.setWidth 4))) ∧
    (f.legal 0x01 0x22 → givesA (.addA c f) (k.aget (f.x.setWidth 4) + y))

/-- The scalar instructions with an immediate. addi to lui and addi.a, offered with allowed fields and a true predicate: each
answers the state in which its destination has the value of R229 and nothing else has changed but the pc and the issue of the
step. (R229.) -/
def Obligations.ScalarImmediateResults : Prop :=
  ∀ (c : Cx) (f : IForm) (s : State), s.offers c → (s.ctx c).pred f.pn f.pg 0 = true →
    let x := (s.ctx c).sget f.x
    let gives (i : Instr) (w : W64) : Prop := exec i s = .next (s.ran c fun k => k.sset f.d w)
    (f.legal 0x02 0x00 → gives (.addi c f) (x + f.imm34.signExtend 64)) ∧
    (f.legal 0x02 0x01 → gives (.andi c f) (x &&& f.imm34.setWidth 64)) ∧
    (f.legal 0x02 0x02 → gives (.ori c f) (x ||| f.imm34.setWidth 64)) ∧
    (f.legal 0x02 0x03 → gives (.xori c f) (x ^^^ f.imm34.setWidth 64)) ∧
    (f.legal 0x02 0x04 → gives (.slli c f) (x <<< f.imm34.toNat)) ∧
    (f.legal 0x02 0x05 → gives (.srli c f) (x >>> f.imm34.toNat)) ∧
    (f.legal 0x02 0x06 → gives (.srai c f) (x.sshiftRight f.imm34.toNat)) ∧
    (f.legal 0x02 0x07 → gives (.li c f) (f.imm34.signExtend 64)) ∧
    (f.legal 0x02 0x08 → gives (.lui c f) (f.imm34.setWidth 64 <<< 30)) ∧
    (f.legal 0x02 0x09 → exec (.addiA c f) s = .next (s.ran c fun k =>
      k.aset (f.d.setWidth 4) ((s.ctx c).aget (f.x.setWidth 4) + f.imm34.signExtend 64)))

/-- The scalar FP32 instructions. fadd to fle, offered with allowed fields and a true predicate: each answers the state in which
bits [31:0] of s[d] have the value of its row of R230, bits [63:32] are clear (a comparison writes 1 or 0, fcvt.i.s all 64
bits), its flags are added to astat, and nothing else has changed but the pc and the issue of the step. The arithmetic itself is
that of the functions fAdd to fToInt of the model. (R64, R230.) -/
def Obligations.ScalarFp32Results : Prop :=
  ∀ (c : Cx) (f : SForm) (s : State), s.offers c → (s.ctx c).pred f.pn f.pg 0 = true →
    let k := s.ctx c
    let x : W32 := (k.sget f.x).setWidth 32
    let y : W32 := (k.sget f.y).setWidth 32
    let z : W32 := (k.sget f.z).setWidth 32
    let gives (i : Instr) (w : W64) (fl : W32) : Prop := exec i s = .next (s.ran c fun k => (k.sset f.d w).raiseFlags fl)
    let value (i : Instr) (r : W32 × W32) : Prop := gives i (r.1.setWidth 64) r.2
    let truth (i : Instr) (r : Bool × W32) : Prop := gives i (if r.1 then 1 else 0) r.2
    (f.legal 0x03 0x00 → value (.fadd c f) (fAdd x y)) ∧
    (f.legal 0x03 0x01 → value (.fsub c f) (fAdd x (y ^^^ 0x80000000))) ∧
    (f.legal 0x03 0x02 → value (.fmul c f) (fMul x y)) ∧
    (f.legal 0x03 0x03 → value (.fma c f) (fFma x y z)) ∧
    (f.legal 0x03 0x04 → value (.fdiv c f) (fDiv x y)) ∧
    (f.legal 0x03 0x05 → value (.fsqrt c f) (fSqrt x)) ∧
    (f.legal 0x03 0x06 → value (.fmin c f) (fMin x y)) ∧
    (f.legal 0x03 0x07 → value (.fmax c f) (fMax x y)) ∧
    (f.legal 0x03 0x08 → value (.fcvtSI c f) (fFromInt (k.sget f.x))) ∧
    (f.legal 0x03 0x09 → gives (.fcvtIS c f) (fToInt x).1 (fToInt x).2) ∧
    (f.legal 0x03 0x0A → truth (.feq c f) (fEq x y)) ∧
    (f.legal 0x03 0x0B → truth (.flt c f) (fLt x y)) ∧
    (f.legal 0x03 0x0C → truth (.fle c f) (fLe x y))

/-- FP32 sums and products of small integers are exact. For integers n and m of at most 2^23 in magnitude, the FP32 values that
fcvt.s.i makes of them add to the FP32 value of n + m, and for magnitudes of at most 2^11 multiply to that of n · m when neither
is zero, without any flag. (R28, R30, R64, R230.) -/
def Obligations.IntegerSumsAreExact : Prop :=
  (∀ n m : Int, n.natAbs ≤ 2 ^ 23 → m.natAbs ≤ 2 ^ 23 →
    fAdd (fFromInt (BitVec.ofInt 64 n)).1 (fFromInt (BitVec.ofInt 64 m)).1 = ((fFromInt (BitVec.ofInt 64 (n + m))).1, 0)) ∧
  ∀ n m : Int, n ≠ 0 → m ≠ 0 → n.natAbs ≤ 2 ^ 11 → m.natAbs ≤ 2 ^ 11 →
    fMul (fFromInt (BitVec.ofInt 64 n)).1 (fFromInt (BitVec.ofInt 64 m)).1 = ((fFromInt (BitVec.ofInt 64 (n * m))).1, 0)

/-- The status, seed and time instructions. astat.rd, astat.clr, srseed, srstate.rd and time.rd, offered with allowed fields and a
true predicate, have the effects of R231; a seed of zero gives 1 (R60). time.rd, where the journal has no entry for it, appends
one of kind 0x8 with the time that it returns. (R231.) -/
def Obligations.StatusSeedTimeResults : Prop :=
  ∀ (c : Cx) (f : IForm) (s : State), s.offers c → (s.ctx c).pred f.pn f.pg 0 = true →
    let k := s.ctx c
    (f.legal 0x08 0x00 → exec (.astatRd c f) s = .next (s.ran c fun k' => k'.sset f.d (k.astat.setWidth 64))) ∧
    (f.legal 0x08 0x01 → exec (.astatClr c f) s = .next (s.ran c fun k' =>
      { k' with astat := k.astat &&& ~~~(f.imm34.setWidth 32) })) ∧
    (f.legal 0x08 0x02 → exec (.srseed c f) s = .next (s.ran c fun k' =>
      { k' with srstate := if (k.sget f.x).setWidth 32 = (0 : W32) then 1 else (k.sget f.x).setWidth 32 })) ∧
    (f.legal 0x08 0x03 → exec (.srstateRd c f) s = .next (s.ran c fun k' => k'.sset f.d (k.srstate.setWidth 64))) ∧
    (f.legal 0x08 0x04 → k.replayNext = none → (s.jCounts c).1 < 191 →
      exec (.timeRd c f) s = .next ((s.jAppend c 8 0 k.pc (s.now c.lc)).ran c fun k' => k'.sset f.d (s.now c.lc)))

/-- The vector arithmetic instructions. vadd to vins, offered with allowed fields: each answers the state in which the lanes of v[d]
whose predicate is true have the value of R233 and the others are as before, the flags of those lanes are added to astat, and
nothing else has changed but the pc and the issue of the step. With mod bit [20] the y operand is s[y][31:0]. vext writes s[d]
under the predicate of lane 0. The values of vrcp and vrsqrt are the fixed functions of R237. (R192, R233.) -/
def Obligations.VectorArithmeticResults : Prop :=
  ∀ (c : Cx) (f : SForm) (s : State), s.offers c →
    let k := s.ctx c
    let x (i : Nat) : W32 := k.vlane f.x i
    let y (i : Nat) : W32 := if f.mod.getLsbD 4 then (k.sget f.y).setWidth 32 else k.vlane f.y i
    let z (i : Nat) : W32 := k.vlane f.z i
    let gives (i : Instr) (g : Nat → W32 × W32) : Prop := exec i s = .next (s.ran c fun k => k.mapLanes f.pn f.pg f.d g)
    (f.legal 0x10 0x00 → gives (.vadd c f) fun i => fAdd (x i) (y i)) ∧
    (f.legal 0x10 0x01 → gives (.vsub c f) fun i => fAdd (x i) (y i ^^^ 0x80000000)) ∧
    (f.legal 0x10 0x02 → gives (.vmul c f) fun i => fMul (x i) (y i)) ∧
    (f.legal 0x10 0x03 → gives (.vfma c f) fun i => fFma (x i) (y i) (z i)) ∧
    (f.legal 0x10 0x04 → gives (.vfms c f) fun i => fFma (x i) (y i) (z i ^^^ 0x80000000)) ∧
    (f.legal 0x10 0x05 → gives (.vdiv c f) fun i => fDiv (x i) (y i)) ∧
    (f.legal 0x10 0x06 → gives (.vsqrt c f) fun i => fSqrt (x i)) ∧
    (f.legal 0x10 0x07 → gives (.vrcp c f) fun i => vfun 10 (x i)) ∧
    (f.legal 0x10 0x08 → gives (.vrsqrt c f) fun i => vfun 11 (x i)) ∧
    (f.legal 0x10 0x09 → gives (.vmin c f) fun i => fMin (x i) (y i)) ∧
    (f.legal 0x10 0x0A → gives (.vmax c f) fun i => fMax (x i) (y i)) ∧
    (f.legal 0x10 0x0B → gives (.vabs c f) fun i => (x i &&& 0x7FFFFFFF, 0)) ∧
    (f.legal 0x10 0x0C → gives (.vneg c f) fun i => (x i ^^^ 0x80000000, 0)) ∧
    (f.legal 0x10 0x0D → gives (.vmov c f) fun i => (x i, 0)) ∧
    (f.legal 0x10 0x0E → gives (.vbcast c f) fun _ => ((k.sget f.x).setWidth 32, 0)) ∧
    (f.legal 0x10 0x0F → gives (.vsel c f) fun i => (if k.plane (f.y.setWidth 3) i then x i else z i, 0)) ∧
    (f.legal 0x10 0x10 → k.pred f.pn f.pg 0 = true →
      exec (.vext c f) s = .next (s.ran c fun k' => k'.sset f.d ((x f.imm16.toNat).setWidth 64))) ∧
    (f.legal 0x10 0x11 → gives (.vins c f) fun i =>
      (if i = f.imm16.toNat then (k.sget f.x).setWidth 32 else k.vlane f.d i, 0))

/-- What a lane-wise write leaves. Writing v[d] lane by lane under a predicate: a lane whose predicate is true has its new value, a
lane whose predicate is false keeps its value, every other vector register keeps every lane, and the flags of false lanes do not
enter astat: if every true lane's flags are within a mask, so are the new ones. (R192.) -/
def Obligations.LanesUnderPredicates : Prop :=
  ∀ (k : Context) (pn : Bool) (pg : BitVec 3) (d : BitVec 5) (g : Nat → W32 × W32),
    let t := k.mapLanes pn pg d g
    (∀ i, i < 512 → k.pred pn pg i = true → t.vlane d i = (g i).1) ∧
    (∀ i, i < 512 → k.pred pn pg i = false → t.vlane d i = k.vlane d i) ∧
    (∀ r i, r ≠ d → t.vlane r i = k.vlane r i) ∧
    ∀ m : W32, (∀ i, i < 512 → k.pred pn pg i = true → (g i).2 &&& ~~~m = 0) → (t.astat &&& ~~~k.astat) &&& ~~~m = 0

/-- The vector reductions and transcendentals. vrsum to vrsumsq and vexp2 to vcos, offered with allowed fields: each answers the
state in which the lanes of v[d] whose predicate is true have the value of R234 to R236 and nothing else has changed but flags,
the pc and the issue of the step. A reduction gives lane k the pairwise tree over group k of g lanes and +0 above the groups;
each transcendental applies its fixed function to each lane. (R192, R234, R235, R236, R237.) -/
def Obligations.ReductionAndFunctionResults : Prop :=
  ∀ (c : Cx) (f : SForm) (s : State), s.offers c →
    let k := s.ctx c
    let x (i : Nat) : W32 := k.vlane f.x i
    let n : Nat := if bits (f.mod.setWidth 64) 5 4 = 0 then 9 else if bits (f.mod.setWidth 64) 5 4 = 1 then 7 else 5
    let gives (i : Instr) (g : Nat → W32 × W32) : Prop := exec i s = .next (s.ran c fun k => k.mapLanes f.pn f.pg f.d g)
    let tree (pre : W32 → W32 × W32) (op : W32 → W32 → W32 × W32) (j : Nat) : W32 × W32 :=
      if j < 512 / 2 ^ n then
        let src := (List.range (2 ^ n)).map fun m => pre (x (2 ^ n * j + m))
        treeReduce op n (src.map (·.1), src.foldl (fun a w => a ||| w.2) 0)
      else (0, 0)
    (f.legal 0x11 0x00 → gives (.vrsum c f) (tree (fun w => (w, 0)) fAdd)) ∧
    (f.legal 0x11 0x01 → gives (.vrmax c f) (tree (fun w => (w, 0)) fMax)) ∧
    (f.legal 0x11 0x02 → gives (.vrmin c f) (tree (fun w => (w, 0)) fMin)) ∧
    (f.legal 0x11 0x03 → gives (.vrsumsq c f) (tree (fun w => fMul w w) fAdd)) ∧
    (f.legal 0x12 0x00 → gives (.vexp2 c f) fun i => vfun 0 (x i)) ∧
    (f.legal 0x12 0x01 → gives (.vlog2 c f) fun i => vfun 1 (x i)) ∧
    (f.legal 0x12 0x02 → gives (.vexp c f) fun i => vfun 2 (x i)) ∧
    (f.legal 0x12 0x03 → gives (.vlog c f) fun i => vfun 3 (x i)) ∧
    (f.legal 0x12 0x04 → gives (.vtanh c f) fun i => vfun 4 (x i)) ∧
    (f.legal 0x12 0x05 → gives (.vsigm c f) fun i => vfun 5 (x i)) ∧
    (f.legal 0x12 0x06 → gives (.vsilu c f) fun i => vfun 6 (x i)) ∧
    (f.legal 0x12 0x07 → gives (.vgelu c f) fun i => vfun 7 (x i)) ∧
    (f.legal 0x12 0x08 → gives (.vsin c f) fun i => vfun 8 (x i)) ∧
    (f.legal 0x12 0x09 → gives (.vcos c f) fun i => vfun 9 (x i))

/-- The conversions and the predicate instructions. cvt.n, cvt.w, vcmp.eq to vcmp.un and pand to pfirst, offered with allowed
fields: cvt.n writes v[d] with the packed form of R240 of the converted lanes and moves srstate by 512 draws when its conversion
is stochastic; cvt.w writes 512 widened lanes; a predicate instruction writes the true lanes of p[d] as R243 says. Nothing else
has changed but flags, the pc and the issue of the step. (R192, R239, R240, R242, R243, R62.) -/
def Obligations.ConversionAndPredicateResults : Prop :=
  ∀ (c : Cx) (f : SForm) (s : State), s.offers c →
    let k := s.ctx c
    let x (i : Nat) : W32 := k.vlane f.x i
    let y (i : Nat) : W32 := k.vlane f.y i
    let p (i : Nat) : Bool := k.plane (f.x.setWidth 3) i
    let q (i : Nat) : Bool := k.plane (f.y.setWidth 3) i
    let gives (i : Instr) (g : Nat → Bool × W32) : Prop := exec i s = .next (s.ran c fun k => k.mapPred f g)
    let dr := if f.mod.getLsbD 0 then srDraws 512 k.srstate else ([], k.srstate)
    let cv := convert f.imm16.toNat ((k.sget f.y).toNat % 256) (f.mod.getLsbD 2) dr.1 (lanes fun i => num32 (x i))
    let wide := unpackForm f.imm16.toNat ((k.sget f.y).toNat % 256) (k.vbytes f.x)
    (f.legal 0x13 0x00 → exec (.cvtN c f) s = .next (s.ran c fun k =>
      ({ k with srstate := dr.2 }.vset f.d (bytesLanes (packedForm f.imm16.toNat (f.mod.getLsbD 3) cv))).raiseFlags cv.flags)) ∧
    (f.legal 0x13 0x01 → exec (.cvtW c f) s = .next (s.ran c fun k =>
      (k.vset f.d (wide.map (·.1))).raiseFlags (wide.foldl (fun a w => a ||| w.2) 0))) ∧
    (f.legal 0x14 0x00 → gives (.vcmpEq c f) fun i => fEq (x i) (y i)) ∧
    (f.legal 0x14 0x01 → gives (.vcmpLt c f) fun i => fLt (x i) (y i)) ∧
    (f.legal 0x14 0x02 → gives (.vcmpLe c f) fun i => fLe (x i) (y i)) ∧
    (f.legal 0x14 0x03 → gives (.vcmpUn c f) fun i => fUn (x i) (y i)) ∧
    (f.legal 0x14 0x04 → gives (.pand c f) fun i => (p i && q i, 0)) ∧
    (f.legal 0x14 0x05 → gives (.por c f) fun i => (p i || q i, 0)) ∧
    (f.legal 0x14 0x06 → gives (.pxor c f) fun i => (p i != q i, 0)) ∧
    (f.legal 0x14 0x07 → gives (.pnot c f) fun i => (!p i, 0)) ∧
    (f.legal 0x14 0x08 → gives (.pfirst c f) fun i => (decide (i < (k.sget f.x).toNat), 0))

/-- The ordinary loads complete with the bytes of their access. ld, lds, vld, vld.p, vld.s and tld, offered with allowed fields,
whose bytes are at hand (own scratchpad, operand cache, or a line that has arrived): s[d] takes the bytes zero-extended or
sign-extended, v[d] the true lanes of its range, t[d] a descriptor that passes R183. A scalar load from register space returns
the register's bits. (R244, R245, R246, R254, R183, R716, R719, R723.) -/
def Obligations.LoadsDeliverTheirBytes : Prop :=
  ∀ (c : Cx) (f : MForm) (s : State), s.offers c →
    let k := s.ctx c
    let va := k.ea f
    let n := 2 ^ f.size.toNat
    let h := hintOf f.hint
    let lane0 : Prop := k.pred f.pn f.pg 0 = true
    (∀ u d, lane0 → s.deviceAt c va n 0 = none → s.load c va [(0, n)] h = .ok u d →
      (f.legal 0x20 0x0 → exec (.ld c f) s = .next ((u.loaded c).ran c fun k => k.sset f.d (leWord (assemble n d)))) ∧
      (f.legal 0x20 0x1 → exec (.lds c f) s = .next ((u.loaded c).ran c fun k =>
        k.sset f.d (((leWord (assemble n d)).setWidth (8 * n)).signExtend 64)))) ∧
    (∀ a r m sh, lane0 → s.deviceAt c va n 0 = some (a, true) → regAccess a n = .reg r m sh → agentMay (.dti c) r.kind = true →
      f.legal 0x20 0x0 → exec (.ld c f) s = .next ((s.regRead (.dti c) r m).1.ran c fun k =>
        k.sset f.d ((s.regRead (.dti c) r m).2 >>> sh))) ∧
    (∀ u d, va.toNat % 4 = 0 →
      (f.legal 0x21 0x0 → s.load c va (k.lanePieces f 0 512) h = .ok u d →
        exec (.vld c f) s = .next ((u.loaded c).ran c fun k => k.setLanes f 0 512 (assemble 2048 d))) ∧
      (f.legal 0x21 0x2 → s.load c va (k.lanePieces f 0 (packedLanes f.size)) h = .ok u d →
        exec (.vldP c f) s = .next ((u.loaded c).ran c fun k =>
          k.setLanes f 0 (packedLanes f.size) (assemble (4 * packedLanes f.size) d))) ∧
      (f.legal 0x21 0x4 → s.load c va (k.lanePieces f 384 4) h = .ok u d →
        exec (.vldS c f) s = .next ((u.loaded c).ran c fun k => k.setLanes f 384 4 (assemble 16 d)))) ∧
    ∀ u d, lane0 → va.toNat % 8 = 0 → f.legal 0x24 0x0 → s.load c va [(0, 48)] h = .ok u d →
      (TileDesc.ofBytes (assemble 48 d)).invalid = none →
      exec (.tld c f) s = .next ((u.loaded c).ran c fun k => k.tset (f.d.setWidth 3) (TileDesc.ofBytes (assemble 48 d)))

/-- A load from the own scratchpad gives the bytes stored there. A load of one piece that translates into one part of a line in the
context's own scratchpad, with no uncorrectable word, is served at once with the bytes of memory; memory, contexts and the
operand cache stay as they are. (R338.) -/
def Obligations.OwnScratchpadLoads : Prop :=
  ∀ (s : State) (c : Cx) (va : W64) (n : Nat) (h : Hint) (p : Part) (io : Bool) (a : Nat),
    s.plan c va 0 [(0, n)] = .ok ([p], io) → p.dst = 0 → p.len = n → s.place c p.pa false = .own a → s.spdBad a n = none →
    ∃ u d, s.load c va [(0, n)] h = .ok u d ∧ assemble n d = s.peek a n ∧ u.mem = s.mem ∧ u.ctxs = s.ctxs ∧ u.cores = s.cores

/-- A load of the core returns the bytes of a store in its store buffer. After a store of one part of a line has entered the store
buffer, the line as the core's loads see it has the store's bytes where it wrote, and its other bytes as the loads saw them
before. This is for a line to which no other context of the core has an entry in the buffer. (R329, R331.) -/
def Obligations.OwnStoresAreForwarded : Prop :=
  ∀ (s t : State) (c : Cx) (va : W64) (p : Part) (bs line : List W8) (h : Hint) (tag : WriteTag),
    p.dst = 0 → bs.length = p.len → p.off + p.len ≤ 128 → line.length = 128 →
    (∀ e ∈ (s.core c.lc).sb, e.line = p.line → e.c = c.ix) →
    s.sbParts c va [p] bs h tag = some t →
    (∀ i, i < p.len → (t.forward c.lc p.line line)[p.off + i]? = bs[i]?) ∧
    ∀ i, i < 128 → i < p.off ∨ p.off + p.len ≤ i → (t.forward c.lc p.line line)[i]? = (s.forward c.lc p.line line)[i]?

/-- The stores complete when their bytes enter the store buffer or the own scratchpad. st, vst, vst.p, vst.s, vst.c, tst and
flag.set, offered with allowed fields, whose parts are translated and writable and find room: the bytes of s[d], of the true
lanes of v[d] or of t[d] are written to the parts, and the pc moves on; in an interval that is not checked, flag.set does the
same. A store of 8 bytes to a register journals an entry of kind 0x7 and writes the register. (R192, R245, R246, R254, R258,
R331, R586, R719.) -/
def Obligations.StoresComplete : Prop :=
  ∀ (c : Cx) (f : MForm) (s : State), s.offers c →
    let k := s.ctx c
    let va := k.ea f
    let n := 2 ^ f.size.toNat
    let h := hintOf f.hint
    let lane0 : Prop := k.pred f.pn f.pg 0 = true
    let x := k.sget f.d
    let stores (i : Instr) (n : Nat) (pieces : List (Nat × Nat)) (bs : List W8) (h : Hint) (tag : WriteTag) : Prop :=
      ∀ ps t, s.storePlan c va n pieces = .ok ps → s.storeParts c va ps bs h tag = some t →
        exec i s = .next ((t.digests c va pieces bs).finished c)
    (lane0 → f.legal 0x20 0x2 → s.deviceAt c va n 1 = none → stores (.st c f) n [(0, n)] (leBytes n x.toNat) h .store) ∧
    (lane0 → f.legal 0x20 0x2 → ∀ a r m sh, s.deviceAt c va n 1 = some (a, true) → n = 8 → regAccess a n = .reg r m sh →
      agentMay (.dti c) r.kind = true → k.check = none → k.replayNext = none → (s.jCounts c).1 < 191 →
      exec (.st c f) s = .next (((((s.jAppend c 7 0 k.pc 0).digest c va (leBytes 8 x.toNat)).finished c).regWrite (.dti c) r x))) ∧
    (va.toNat % 4 = 0 →
      (f.legal 0x21 0x1 → stores (.vst c f) 2048 (k.lanePieces f 0 512) (k.laneBytes f.d 0 512) h .store) ∧
      (f.legal 0x21 0x3 → stores (.vstP c f) (4 * packedLanes f.size) (k.lanePieces f 0 (packedLanes f.size))
        (k.laneBytes f.d 0 (packedLanes f.size)) h .store) ∧
      (f.legal 0x21 0x5 → stores (.vstS c f) 16 (k.lanePieces f 384 4) (k.laneBytes f.d 384 4) h .store) ∧
      (f.legal 0x21 0x6 → stores (.vstC c f) 16 (k.lanePieces f 388 4) (k.laneBytes f.d 388 4) h .store)) ∧
    (lane0 → va.toNat % 8 = 0 → f.legal 0x24 0x1 →
      stores (.tst c f) 48 [(0, 48)] (k.tget (f.d.setWidth 3)).bytes h .store) ∧
    (lane0 → va.toNat % 8 = 0 → f.legal 0x31 0x0 → s.deviceAt c va 8 1 = none → k.check = none →
      stores (.flagSet c f) 8 [(0, 8)] (leBytes 8 x.toNat) .normal .flag)

/-- What a store leaves of memory. A store's parts (st, vst, vst.p, vst.s, vst.c, tst, flag.set) write at once only where they lie
in the context's own scratchpad: every byte of memory outside those bytes, whose address is the one that place computes for each
part, reads as before, and no register of the map changes. A part that lies there alone and meets no uncorrectable word is
stored. (R116, R200, R330, R338, R754.) -/
def Obligations.StoreMemoryFrame : Prop :=
  ∀ (s t : State) (c : Cx) (va : W64) (ps : List Part) (bs : List W8) (h : Hint) (tag : WriteTag), s.memOk →
    s.storeParts c va ps bs h tag = some t →
    (∀ a, (∀ p ∈ ps, ∀ b, s.place c p.pa true = .own b → a < b ∨ b + p.len ≤ a) →
      Memory.read t.mem a = Memory.read s.mem a) ∧
    (∀ r, t.reg r = s.reg r) ∧
    ∀ p b, ps = [p] → s.place c p.pa true = .own b → p.dst = 0 → bs.length = p.len → s.spdBad b p.len = none →
      t.peek b p.len = bs

/-- vld.acc and vst.acc complete. Offered with allowed fields, a tile base in the own window, no pass or epilogue that holds the
four rows, and no uncorrectable word: vld.acc writes the true lanes of v[d] with the current copies of rows r to r+3; vst.acc
writes each of the four rows that has a true lane, with the true lanes of v[d] and the row's own values elsewhere. (R75, R192,
R247.) -/
def Obligations.AccumulatorTransfers : Prop :=
  ∀ (c : Cx) (f : MForm) (s : State) (tile : Nat), s.offers c → s.accBase c f = .ok tile →
    let k := s.ctx c
    let r := f.off32.toNat
    let v := (List.range 4).flatMap fun i => s.accGet c tile (r + i)
    s.accWait c tile r = none →
    (f.legal 0x21 0x7 → s.accBad c tile r = none → exec (.vldAcc c f) s = .next ((s.accTouch c tile r).ran c fun k =>
      k.vset f.d (lanes fun i => if k.pred f.pn f.pg i then v.getD i 0 else k.vlane f.d i))) ∧
    (f.legal 0x21 0x8 → exec (.vstAcc c f) s = .next (((List.range 4).foldl (fun s i =>
      if (List.range 128).all fun n => !k.pred f.pn f.pg (128 * i + n) then s
      else s.accPut c tile (r + i) ((List.range 128).map fun n =>
        if k.pred f.pn f.pg (128 * i + n) then k.vlane f.d (128 * i + n) else (s.accGet c tile (r + i)).getD n 0)) s).finished c))

/-- ld.v, the atomics, wait and bar.arrive send their request. Offered with allowed fields, a naturally aligned address in one part
that is no device space and no address error, and no journal entry waiting for it: ld.v and each atomic block the scalar issue
unit and send a read or an atomic of its operation to the home of their line; wait sends a read and stalls its own context;
bar.arrive waits for its engine. In an interval that is not checked. In a replay each returns its recorded value without a
request. The value is delivered by HOME_RESPONSE. (R211, R215, R248, R249, R258, R259, R260, R529.) -/
def Obligations.RequestsToTheHomes : Prop :=
  ∀ (c : Cx) (f : MForm) (s : State), s.offers c → (s.ctx c).pred f.pn f.pg 0 = true →
    let k := s.ctx c
    let va := k.ea f
    let n := 2 ^ f.size.toNat
    let x := k.sget f.d
    let asks (i : Instr) (acc : Acc) (write : Bool) (op : AmoOp) (v : W64) : Prop :=
      ∀ p io, va.toNat % n = 0 → s.plan c va acc [(0, n)] = .ok ([p], io) → (s.place c p.pa write).refused = false →
        k.check = none → s.journal c 1 = .fresh s →
        exec i s = .next ((((s.block c).ask c
          { kind := .amo, d := f.d, cond := 0, size := n, line := p.line, off := p.off, op := op, val := v, va := va }
          (.atomic op p.off (n = 8) v) (.remoteAtomic (p.line + BitVec.ofNat 56 p.off) op (n = 8) v)).waits c .ocmiss).issued c)
    let replays (i : Instr) (n : Nat) (acc : Acc) (write : Bool) (kind : Nat) : Prop :=
      ∀ p io u v, va.toNat % n = 0 → s.plan c va acc [(0, n)] = .ok ([p], io) → (s.place c p.pa write).refused = false →
        k.check = none → s.journal c kind = .recorded u v → exec i s = .next (u.ran c fun k => k.sset f.d v)
    (f.legal 0x22 0x0 → ∀ p io, va.toNat % n = 0 → s.plan c va 0 [(0, n)] = .ok ([p], io) →
      (s.place c p.pa false).refused = false → s.journal c 2 = .fresh s →
      exec (.ldV c f) s = .next ((((s.block c).ask c
        { kind := .ldv, d := f.d, cond := 0, size := n, line := p.line, off := p.off, va := va }
        .rdOnce (.remoteRead p.line)).waits c .ocmiss).issued c)) ∧
    (f.legal 0x22 0x0 → replays (.ldV c f) n 0 false 2) ∧
    (f.legal 0x22 0x1 → asks (.amoAdd c f) 2 true .add x ∧ replays (.amoAdd c f) n 2 true 1) ∧
    (f.legal 0x22 0x2 → asks (.amoAnd c f) 2 true .and x) ∧
    (f.legal 0x22 0x3 → asks (.amoOr c f) 2 true .or x) ∧
    (f.legal 0x22 0x4 → asks (.amoXor c f) 2 true .xor x) ∧
    (f.legal 0x22 0x5 → asks (.amoMin c f) 2 true .min x) ∧
    (f.legal 0x22 0x6 → asks (.amoMax c f) 2 true .max x) ∧
    (f.legal 0x22 0x7 → asks (.amoMinu c f) 2 true .minu x) ∧
    (f.legal 0x22 0x8 → asks (.amoMaxu c f) 2 true .maxu x) ∧
    (f.legal 0x22 0x9 → asks (.amoSwap c f) 2 true .swap x) ∧
    (f.legal 0x22 0xA → asks (.amoCas c f) 2 true (.cas x) (k.sget (f.d + 1)) ∧ replays (.amoCas c f) n 2 true 1) ∧
    (f.legal 0x31 0x1 → (∀ p io, va.toNat % 8 = 0 → s.plan c va 0 [(0, 8)] = .ok ([p], io) →
      (s.place c p.pa false).refused = false → s.journal c 3 = .fresh s →
      exec (.wait c f) s = .next (((s.ask c
        { kind := .wait, d := f.d, cond := f.size, size := 8, line := p.line, off := p.off, sent := true, va := va }
        .rdOnce (.remoteRead p.line)).waits c .sync).issued c)) ∧ replays (.wait c f) 8 0 false 3) ∧
    (f.legal 0x31 0x2 → ∀ p io, va.toNat % 8 = 0 → s.plan c va 1 [(0, 8)] = .ok ([p], io) →
      (s.place c p.pa true).refused = false → s.place c p.pa true ≠ .remote → k.check = none → s.journal c 4 = .fresh s →
      let w : Await := { kind := .arrival, d := 0, cond := 0, size := 8, line := p.line, off := p.off, va := va }
      exec (.barArrive c f) s = .next (((s.updCtx c fun k => { k with await := some w }).waits c .sync).issued c))

/-- An access that is not aligned raises ALIGN. ld.v and the atomics at an address that is not naturally aligned, vld and vst (and
their packed forms) at one that is not a multiple of 4, tld, tst, flag.set, wait and bar.arrive at one that is not a multiple of
8: each raises ALIGN with the address and the size, and does nothing else but give up its turn at the issue slot. (R194, R224,
R246, R248, R254, R258, R280.) -/
def Obligations.MisalignedAccesses : Prop :=
  ∀ (c : Cx) (f : MForm) (s : State), s.offers c → (s.ctx c).pred f.pn f.pg 0 = true →
    let va := (s.ctx c).ea f
    let n := 2 ^ f.size.toNat
    let raises (i : Instr) (n : Nat) : Prop := exec i s = .next ((s.raise c .align (s.ctx c).pc va (BitVec.ofNat 64 n)).yield c)
    (va.toNat % n ≠ 0 → (f.legal 0x22 0x0 → raises (.ldV c f) n) ∧ (f.legal 0x22 0x1 → raises (.amoAdd c f) n) ∧
      (f.legal 0x22 0x9 → raises (.amoSwap c f) n) ∧ (f.legal 0x22 0xA → raises (.amoCas c f) n)) ∧
    (va.toNat % 4 ≠ 0 → (f.legal 0x21 0x0 → raises (.vld c f) 2048) ∧ (f.legal 0x21 0x1 → raises (.vst c f) 2048) ∧
      (f.legal 0x21 0x3 → raises (.vstP c f) (4 * packedLanes f.size)) ∧ (f.legal 0x21 0x5 → raises (.vstS c f) 16)) ∧
    (va.toNat % 8 ≠ 0 → (f.legal 0x24 0x0 → raises (.tld c f) 48) ∧ (f.legal 0x24 0x1 → raises (.tst c f) 48) ∧
      (f.legal 0x31 0x0 → raises (.flagSet c f) 8) ∧ (f.legal 0x31 0x1 → raises (.wait c f) 8) ∧
      (f.legal 0x31 0x2 → raises (.barArrive c f) 8))

/-- Block copies, prefetches and fences. Offered with allowed fields and a good operand in s[d]: bcp.in with a range inside its slot
makes the slot FILLING and is accepted; bcp.out with a readable range and fewer than eight outstanding puts the bytes of the
scratchpad on their way; pf.oc and pf.msc fetch each line of their range, or nothing when an access would fault. A bad operand
raises ILLEGAL. Offered with allowed fields and a true predicate: fence.ld empties the operand cache of its core at scope .chip
or .sys and leaves it at .core. fence.st and fence.all of scope .chip or .sys wait, charged to W_SYNC, while an older write of
the context has not been accepted, and complete once none is left (at .sys once its tile sends have landed too); at .core they
add no wait. fence.all then does as fence.ld. A failed background write is raised instead. (R226, R227, R250, R251, R252, R253,
R255, R256, R257, R343, R345.) -/
def Obligations.BlockCopiesAndFences : Prop :=
  (∀ (c : Cx) (f : MForm) (s : State), s.offers c → (s.ctx c).pred f.pn f.pg 0 = true →
    let k := s.ctx c
    let va := k.ea f
    let h := hintOf f.hint
    (f.legal 0x23 0x0 → ∀ o, copyOp 6029312 (k.sget f.d) = some o → o.slotEn = true →
      outOf (256 * (k.slot o.slot).base.toNat) (min (if 2 ≤ s.levelOf c then 0x2E0000 else 0x5C0000)
        (256 * (k.slot o.slot).base.toNat + 256 * (k.slot o.slot).len.toNat)) o.off o.len = none →
      (k.slot o.slot).st ≠ .filling →
      exec (.bcpIn c f) s = .next (s.ran c fun k =>
        { (k.setSlot o.slot ⟨.filling, 0, (k.slot o.slot).base, (k.slot o.slot).len⟩) with
          fills := k.fills ++ [⟨o.slot, .bcpIn va o.off o.len h⟩] })) ∧
    (f.legal 0x23 0x1 → ∀ o, copyOp 6029312 (k.sget f.d) = some o → o.slotEn = false →
      s.sourceOut c o.off o.len = none → k.bcpOuts.length < 8 → s.spdBad (windowBase c.lc + o.off) o.len = none →
      Leads (.bcpOut c f) s fun t =>
        (t.core c.lc).bg = (s.core c.lc).bg ++
          [⟨c.ix, va, s.peek (windowBase c.lc + o.off) o.len, h, .bcpOut (s.core c.lc).nextId⟩] ∧
        (t.ctx c).bcpOuts = k.bcpOuts ++ [(s.core c.lc).nextId] ∧ t.mem = s.mem) ∧
    (f.legal 0x23 0x2 → ∀ o ls, copyOp 65536 (k.sget f.d) = some o → s.prefetchLines c va o.len = some ls →
      exec (.pfOc c f) s = .next ((ls.foldl (fun s pa => s.prefetchLine c h (fun pa d s =>
        if (s.ocFind c.lc pa).isSome then s else s.ocInstall c.lc pa (fillAge h) (s.forward c.lc pa d)) pa) s).finished c)) ∧
    (f.legal 0x23 0x3 → ∀ o ls, copyOp 65536 (k.sget f.d) = some o → s.prefetchLines c va o.len = some ls →
      exec (.pfMsc c f) s = .next ((ls.foldl (fun s pa => s.prefetchLine c h (fun _ _ s => s) pa) s).finished c)) ∧
    (∀ o, copyOp 65536 (k.sget f.d) = some o → s.prefetchLines c va o.len = none →
      (f.legal 0x23 0x2 → exec (.pfOc c f) s = .next (s.finished c)) ∧
      (f.legal 0x23 0x3 → exec (.pfMsc c f) s = .next (s.finished c))) ∧
    (copyOp 6029312 (k.sget f.d) = none → f.legal 0x23 0x0 →
      exec (.bcpIn c f) s = .next ((s.raise c .illegal k.pc 0 (f.word 0x23 0x0)).yield c))) ∧
  ∀ (c : Cx) (f : IForm) (s : State), s.offers c → (s.ctx c).pred f.pn f.pg 0 = true →
    let k := s.ctx c
    let scope := f.imm34.toNat % 4
    let emptied := if scope = 0 then s else s.updCore c.lc fun q => { q with oc := [] }
    let done := scope = 0 ∨ (s.writesDone c = true ∧ (scope = 1 ∨ s.sendsDone c = true))
    (f.legal 0x30 0x00 → exec (.fenceLd c f) s = .next (emptied.finished c)) ∧
    (f.legal 0x30 0x01 → k.bgFail = none → done → exec (.fenceSt c f) s = .next (s.finished c)) ∧
    (f.legal 0x30 0x02 → k.bgFail = none → done → exec (.fenceAll c f) s = .next (emptied.finished c)) ∧
    (f.legal 0x30 0x01 → k.bgFail = none → ¬done → exec (.fenceSt c f) s = .next ((s.waits c .sync).yield c)) ∧
    (∀ e ∈ (s.core c.lc).sb, e.c = c.ix → s.writesDone c = false) ∧
    ∀ e va det, f.legal 0x30 0x01 → k.bgFail = some (e, va, det) →
      exec (.fenceSt c f) s = .next (((s.updCtx c fun k => { k with bgFail := none }).raise c e k.pc va det).yield c)

/-- Branches, loops and brk. beq to bgeu go to pc + 8 · off38 when their condition holds, else on; jal writes s[x] with pc + 8 and
goes there; jr goes to s[x] with bits [2:0] cleared; brk raises BREAK. loop with a count of zero skips its body, at four levels
raises LOOP_DEPTH, else pushes a level; lbreak leaves the innermost loop. All offered with allowed fields and a true predicate.
(R261.) -/
def Obligations.BranchesAndLoops : Prop :=
  ∀ (c : Cx) (f : BForm) (s : State), s.offers c → (s.ctx c).pred f.pn f.pg 0 = true →
    let k := s.ctx c
    let x := k.sget f.x
    let y := k.sget f.y
    let target := k.pc + 8 * f.off38.signExtend 64
    let goes (pc : W64) (g : Context → Context) : State := ((s.updCtx c g).updCtx c (·.branch pc)).issued c
    let branches (i : Instr) (b : Prop) : Prop := (b → exec i s = .next (goes target id)) ∧ (¬b → exec i s = .next (s.finished c))
    (f.legal 0x40 0x0 → branches (.beq c f) (x = y)) ∧
    (f.legal 0x40 0x1 → branches (.bne c f) (x ≠ y)) ∧
    (f.legal 0x40 0x2 → branches (.blt c f) (x.toInt < y.toInt)) ∧
    (f.legal 0x40 0x3 → branches (.bge c f) (y.toInt ≤ x.toInt)) ∧
    (f.legal 0x40 0x4 → branches (.bltu c f) (x.toNat < y.toNat)) ∧
    (f.legal 0x40 0x5 → branches (.bgeu c f) (y.toNat ≤ x.toNat)) ∧
    (f.legal 0x40 0x6 → exec (.jal c f) s = .next (goes target fun k => k.sset f.x (k.pc + 8))) ∧
    (f.legal 0x40 0x7 → exec (.jr c f) s = .next (goes (x &&& ~~~7) id)) ∧
    (f.legal 0x40 0xF → exec (.brk c f) s = .next ((s.raise c .brk k.pc 0 (f.off38.setWidth 64 &&& 0xFFFF)).yield c)) ∧
    (f.legal 0x41 0x0 →
      (x = 0 → exec (.loop c f) s = .next (goes (target + 8) id)) ∧
      (x ≠ 0 → k.loops.length < 4 → exec (.loop c f) s = .next (s.ran c fun k =>
        { k with loops := ⟨x, k.pc + 8, target⟩ :: k.loops })) ∧
      (x ≠ 0 → 4 ≤ k.loops.length → exec (.loop c f) s = .next ((s.raise c .loopDepth k.pc 0 0).yield c))) ∧
    (f.legal 0x41 0x1 →
      (∀ l t, k.loops = l :: t → exec (.lbreak c f) s = .next (goes (l.last + 8) fun k => { k with loops := t })) ∧
      (k.loops = [] → exec (.lbreak c f) s = .next ((s.raise c .illegal k.pc 0 (f.word 0x41 0x1)).yield c)))

/-- What the end of a loop does to the next pc. An instruction completes without a branch. At no loop's last address the pc moves on
by 8 and the levels stay. At the innermost loop's last address with a count above 1, that level's count falls by one and the pc
goes to its start; with count 1 the level is left and the same is asked of the next level. From k nested levels that end there
with count 1 and one below with a count above 1, only that one remains to go round. (R262, R762.) -/
def Obligations.LoopEnds : Prop :=
  (∀ e : W64, loopEnd e [] = ([], e + 8)) ∧
  (∀ (e : W64) (l : LoopLevel) (t : List LoopLevel), l.last ≠ e → loopEnd e (l :: t) = (l :: t, e + 8)) ∧
  (∀ (e : W64) (l : LoopLevel) (t : List LoopLevel), l.last = e → l.count = 1 → loopEnd e (l :: t) = loopEnd e t) ∧
  (∀ (e : W64) (l : LoopLevel) (t : List LoopLevel), l.last = e → l.count ≠ 1 →
    loopEnd e (l :: t) = ({ l with count := l.count - 1 } :: t, l.start)) ∧
  ∀ (e : W64) (ended t : List LoopLevel) (l : LoopLevel), (∀ x ∈ ended, x.last = e ∧ x.count = 1) → l.last = e → l.count ≠ 1 →
    loopEnd e (ended ++ l :: t) = ({ l with count := l.count - 1 } :: t, l.start)

/-- Commit points and the return to them. commit with at most 14 mask bits, and halt, start a commit; commit with more raises
COMMIT_MASK. COMMIT_COPY_WRITE of a drained context without a failed write writes the copy that is not current. COMMIT_FINALIZE
then ends the commit of an unchecked interval: the epoch rises by one, the pc moves on, the vector registers outside the mask
are dropped, and after halt the stream is ENDED. REPLAY_RESTORE loads the context from its current copy. (R204, R205, R207,
R208, R209, R214, R227, R263.) -/
def Obligations.CommitAndReplay : Prop :=
  (∀ (c : Cx) (f : IForm) (s : State), s.offers c → (s.ctx c).pred f.pn f.pg 0 = true →
    let k := s.ctx c
    let starts (i : Instr) (m : W32) (h : Bool) : Prop := exec i s = .next (((s.updCtx c fun k =>
      { k with commit := some ⟨m, h, none⟩ }).waits c .sync).issued c)
    (f.legal 0x48 0x00 → k.bgFail = none → maskCount (f.imm34.setWidth 32) ≤ 14 →
      starts (.commit c f) (f.imm34.setWidth 32) false) ∧
    (f.legal 0x48 0x00 → 14 < maskCount (f.imm34.setWidth 32) → exec (.commit c f) s =
      .next ((s.raise c .commitMask k.pc 0 ((f.imm34.setWidth 32 : W32).setWidth 64)).yield c)) ∧
    (f.legal 0x48 0x01 → k.bgFail = none → starts (.halt c f) 0 true)) ∧
  (∀ (c : Cx) (s : State) (j : CommitJob), s.memOk → (s.ctx c).commit = some j → j.entries = none → s.drained c = true →
    s.coreUp c.lc = true → (s.ctx c).bgFail = none → Leads (.commitCopyWrite c) s fun t =>
      (t.ctx c).commit = some { j with entries := some (s.jCounts c).2 } ∧ t.regs = s.regs ∧
      ∀ a, a < copyBase c (!s.currentIsSecond c) ∨ copyBase c (!s.currentIsSecond c) + copySize ≤ a →
        Memory.read t.mem a = Memory.read s.mem a) ∧
  (∀ (c : Cx) (s : State) (j : CommitJob) (n : Nat) (id : W32) (x : Stream), (s.ctx c).commit = some j → j.entries = some n →
    (s.ctx c).check = none → j.halts = false → (s.ctx c).stream = some id → (s.core c.lc).stream id = some x →
    x.level = 0 → x.ending = false → s.fget (rg .coreCtl c.lc.val) 3 0 = 15 →
    (∀ l ∈ s.sharers c.lc, (s.core l).queue = []) → Leads (.commitFinalize c) s fun t =>
      (t.ctx c).commit = none ∧ (t.ctx c).pc = (loopEnd (s.ctx c).pc (s.ctx c).loops).2 ∧ (t.ctx c).sinceCommit = 0 ∧
      (t.ctx c).v = (s.ctx c).v.filter fun x => j.mask.getLsbD x.1.toNat) ∧
  ∀ (c : Cx) (s : State) (id : W32), (s.ctx c).replayDue = true → (s.ctx c).stream = some id → s.coreUp c.lc = true →
    (s.ctx c).await = none → Leads (.replayRestore c) s fun t =>
      (t.ctx c).replayDue = false ∧ (t.ctx c).st = .issuing ∧ (t.core c.lc).oc = [] ∧
      (t.ctx c).pc = (s.readCopy (copyBase c (s.currentIsSecond c)) (s.ctx c)).pc

/-- The chain, slot and Facet instructions. Offered with allowed fields and a true predicate, where their checks pass: chain.ld
binds its descriptor; chain.rowfix leaves a correction pending; chain.drop unbinds; slot.def names a range and empties the slot,
slot.mark makes it RESIDENT, slot.rel EMPTY; fct.send gives its tile to the port and journals kind 0x5; fct.recv journals kind
0x6 and makes its slot FILLING. (R264, R275, R276, R277, R283, R286, R287, R291, R522.) -/
def Obligations.ChainsSlotsAndTransfers : Prop :=
  ∀ (c : Cx) (f : TForm) (s : State), s.offers c → (s.ctx c).pred f.pn f.pg 0 = true →
    let k := s.ctx c
    let off := 128 * f.chain.toNat
    let d := k.tget f.ta
    let sl := k.slot f.slot
    (f.legal 0x49 0x0 → off < 0x5C0000 → s.spdBad (windowBase c.lc + off) 512 = none → s.chainReject c (s.chainRead c off) = none →
      Leads (.chainLd c f) s fun t => (t.ctx c).chains = k.chains.filter (·.off ≠ off) ++ [s.chainRead c off]) ∧
    (f.legal 0x49 0x1 → off < 0x5C0000 → ∀ x, s.chainBind c off = some x → (s.chainSt c x).status.getLsbD 9 = false →
      k.rowfix = none → Leads (.chainRowfix c f) s fun t => (t.ctx c).rowfix = some off) ∧
    (f.legal 0x49 0x2 → off < 0x5C0000 → s.chainBusy c off = false → k.rowfix ≠ some off →
      Leads (.chainDrop c f) s fun t => (t.ctx c).chains = k.chains.filter (·.off ≠ off)) ∧
    (f.legal 0x58 0x0 → sl.st ≠ .filling → 256 * (f.imm16.toNat + f.chain.toNat) ≤ 0x5C0000 →
      exec (.slotDef c f) s = .next (s.ran c fun k => k.setSlot f.slot ⟨.empty, 0, f.imm16, f.chain⟩)) ∧
    (f.legal 0x58 0x0 → sl.st ≠ .filling → 0x5C0000 < 256 * (f.imm16.toNat + f.chain.toNat) →
      exec (.slotDef c f) s = .next ((s.raise c .addr k.pc 0 (BitVec.ofNat 64 (windowBase c.lc + 0x5C0000))).yield c)) ∧
    (f.legal 0x58 0x1 → sl.st ≠ .filling →
      exec (.slotMark c f) s = .next (s.ran c fun k => k.setSlot f.slot ⟨.resident, 0, sl.base, sl.len⟩)) ∧
    (f.legal 0x58 0x2 → sl.st ≠ .filling → s.slotInUse c f.slot = false →
      exec (.slotRel c f) s = .next (s.ran c fun k => k.setSlot f.slot ⟨.empty, 0, sl.base, sl.len⟩)) ∧
    (sl.st = .filling → (f.legal 0x58 0x0 → exec (.slotDef c f) s = .next ((s.waits c .sync).yield c)) ∧
      (f.legal 0x58 0x2 → exec (.slotRel c f) s = .next ((s.waits c .sync).yield c))) ∧
    (f.legal 0x60 0x0 → d.absent = false → s.sendBad (f.chain.setWidth 12) (bits (f.imm16.setWidth 64) 7 0) = 0 → k.check = none →
      k.replayNext = none → (s.jCounts c).1 < 191 → Leads (.fctSend c f) s fun t =>
        (t.core c.lc).sends = (s.core c.lc).sends ++ [⟨c.ix, k.stream.getD 0, f.chain.setWidth 12,
          BitVec.ofNat 8 (bits (f.imm16.setWidth 64) 7 0), BitVec.ofNat 8 (bits (f.imm16.setWidth 64) 15 8),
          f.flags.setWidth 2, d, none⟩]) ∧
    (f.legal 0x61 0x0 → d.absent = false → d.slotEn = true →
      let x : BitVec 4 := d.w5.extractLsb' 16 4
      let base := 256 * (k.slot x).base.toNat
      s.rowsOutside c base (base + 256 * (k.slot x).len.toNat) d.tileReads.1 = .ok none →
      s.rowsOutside c 0 0x5C0000 (d.tileReads.2.1 ++ d.tileReads.2.2) = .ok none → (k.slot x).st ≠ .filling →
      k.replayNext = none → (s.jCounts c).1 < 191 → Leads (.fctRecv c f) s fun t => ((t.ctx c).slot x).st = .filling)

/-- The matrix instructions. Offered with allowed fields and a true predicate, where descriptors, slot and arrays allow it: mm.ldw.s
starts a shadow load of 128 steps and sets the shadow claim, mm.ldw.f a moving-front load and the live claim; mm.swap leaves a
swap pending; mm.pass enters the arrays; mm.drain starts. A weight tile or an activation in an EMPTY slot raises NOT_STAGED.
(R87, R88, R92, R184, R266, R267, R268, R269, R274.) -/
def Obligations.MatrixInstructions : Prop :=
  ∀ (c : Cx) (f : TForm) (s : State), s.offers c → (s.ctx c).pred f.pn f.pg 0 = true →
    let k := s.ctx c
    let q := s.core c.lc
    let d := k.tget f.ta
    let o := k.tget f.tb
    let slot : BitVec 4 := d.w5.extractLsb' 16 4
    let tile (bs : List (List W8)) := wtileOf d (f.flags.getLsbD 0) bs
    (∀ bs, weightBad d = none → (k.slot slot).st = .resident → s.vreads c d.weightReads = .ok bs → (tile bs).checkFail = none →
      (f.legal 0x50 0x0 → s.shadowWait c = none →
        exec (.mmLdwS c f) s = .next (((s.vtouch c d.weightReads).startShadow c (tile bs)).ran c fun k => { k with shadow := d })) ∧
      (f.legal 0x50 0x1 → q.front = none →
        exec (.mmLdwF c f) s = .next (((s.vtouch c d.weightReads).startFront c (tile bs) false).ran c fun k => { k with live := d }))) ∧
    (weightBad d = none → (k.slot slot).st = .empty → f.legal 0x50 0x0 →
      exec (.mmLdwS c f) s = .next ((s.raise c .notStaged k.pc 0 (slot.setWidth 64)).yield c)) ∧
    (∀ t, f.legal 0x52 0x0 → k.swapLost = false → k.swap = false → q.shadow = .held c.ix t →
      exec (.mmSwap c f) s = .next (s.ran c fun k => { k with swap := true })) ∧
    (f.legal 0x51 0x0 → s.passBad c f = none → s.passReads c d none = none → f.acc ≠ 2 → q.owner = some c.ix →
      k.swapLost = false → f.chain = 0 → d.slotEn = true → (k.slot slot).st = .resident →
      s.epiBlocks c f.imm16.toNat d.rows = false → k.swap = false → q.front = none → k.reacq = false → q.passes = [] →
      Leads (.mmPass c f) s fun t =>
        ((t.core c.lc).passes.map fun p => (p.c, p.act, p.mode, p.base, p.rows, p.fed)) =
          [(c.ix, d, f.acc, f.imm16.toNat, d.rows, 0)] ∧ (t.ctx c).pc = (loopEnd k.pc k.loops).2) ∧
    (f.legal 0x52 0x1 → o.absent = false → o.kRows = false → o.rows = Tbl.get o.rows k.accRows f.imm16.toNat → o.cols ≤ 128 →
      accEnd f.imm16.toNat o.rows ≤ 0x5C0000 → (∀ p ∈ q.passes, p.c ≠ c.ix) →
      s.epiBlocks c f.imm16.toNat o.rows = false → q.drain = none → o.slotEn = false →
      Leads (.mmDrain c f) s fun t => (t.core c.lc).drain = some ⟨c.ix, f.imm16.toNat, o, f.flags.getLsbD 0, f.flags.getLsbD 1, 0,
        k.srstate⟩)

/-- The events of the weight copies and of chain runs. SHADOW_LOAD_DONE, FRONT_LOAD_DONE, WEIGHT_SWAP, WEIGHT_REACQUIRE,
FRONT_RELOAD, INJECT_CELL and INJECT_OPCHK do what the rules give them where their conditions hold; PROLOGUE_RUN, EPILOGUE_RUN
and ROWFIX_RUN advance or end their job; CHAIN_SEND hands the oldest tile to the port; SLOT_FILL_COMPLETE makes a slot RESIDENT
once its writes have landed. (R77, R80, R81, R83, R84, R85, R135, R295, R296, R303, R306, R312.) -/
def Obligations.WeightAndChainEvents : Prop :=
  (∀ (lc : LC) (s : State),
    (∀ c t, (s.core lc).shadow = .loading c t 0 → Leads (.shadowLoadDone lc) s fun t' => (t'.core lc).shadow = .held c t) ∧
    (∀ x, (s.core lc).front = some x → x.steps = 0 → x.shadowNext = false → Leads (.frontLoadDone lc) s fun t =>
      (t.core lc).live = some x.tile ∧ (t.core lc).front = none) ∧
    (∀ i t, (s.core lc).shadow = .held i t → (s.ctx ⟨lc, i⟩).swap = true → (s.core lc).passes = [] → (s.core lc).front = none →
      Leads (.weightSwap lc) s fun u => (u.core lc).live = some t ∧ (u.core lc).owner = some i ∧
        (u.core lc).shadow = (match (s.core lc).live with | some o => .old o (s.core lc).flip | none => .empty) ∧
        (u.ctx ⟨lc, i⟩).swap = false ∧ (u.ctx ⟨lc, i⟩).live = t.desc ∧ (u.ctx ⟨lc, i⟩).shadow = {}) ∧
    (Leads (.frontReload lc) s fun t => (t.core lc).owner = none ∧ (t.core lc).live = (s.core lc).live) ∧
    (s.fget (rg .coreCksCtl lc.val) 8 8 = 0 →
      (Leads (.injectCell lc) s fun t => (t.core lc).injCell = true) ∧ Leads (.injectOpchk lc) s fun t => (t.core lc).injOpchk = true) ∧
    (s.fget (rg .coreCksCtl lc.val) 8 8 = 1 → exec (.injectCell lc) s = .next s ∧ exec (.injectOpchk lc) s = .next s)) ∧
  (∀ (c : Cx) (s : State),
    (∀ bs, (s.ctx c).reacq = true → s.coreUp c.lc = true → (s.ctx c).live.absent = false → (s.core c.lc).passes = [] →
      (s.core c.lc).front = none → (s.core c.lc).owner ≠ some c.ix → s.vreads c (s.ctx c).live.weightReads = .ok bs →
      (wtileOf (s.ctx c).live false bs).checkFail = none → Leads (.weightReacquire c) s fun t =>
        (t.core c.lc).front = some ⟨c.ix, wtileOf (s.ctx c).live false bs, 128, !(s.ctx c).shadow.absent⟩ ∧
        (t.core c.lc).owner = some c.ix) ∧
    (∀ j x c0 regs, (s.ctx c).pro = some j → (s.ctx c).chainAt j.chain = some x → s.coreUp c.lc = true →
      let groups := (j.act.cols + 127) / 128
      let row := 4 * (j.next / groups)
      let col := 128 * (j.next % groups)
      (fourRows fun i => s.opRow c (x.tile 0x080) (row + i) col) = .ok c0 →
      s.chainRegs c x c0 row col (fun i => decide (row + i / 128 < (x.tile 0x080).rows) &&
        decide (col + i % 128 < (x.tile 0x080).cols)) = .ok regs →
      Leads (.prologueRun c) s fun t => (t.ctx c).pro =
        if (j.act.rows + 3) / 4 * groups ≤ j.next + 1 then none else some { j with next := j.next + 1 }) ∧
    (∀ j later x regs, (s.ctx c).epi = j :: later → (s.ctx c).chainAt j.chain = some x → s.coreUp c.lc = true →
      j.ready = true → (2 ≤ x.outMode → s.outReady c (x.outOf j.tile) (j.next = 0) = true) → s.linkBusy c x = false →
      s.badWords = [] →
      let row := 4 * j.next
      let c0 := (List.range 4).flatMap fun i => if row + i < j.rows then
        s.accGet c (accTile j.base j.rows (arrayOf j.rows (row + i)).1) (arrayOf j.rows (row + i)).2 else List.replicate 128 0
      s.chainRegs c x (c0.map fun w => (w, 0)) row (128 * j.tile) (fun i => decide (row + i / 128 < j.rows) &&
        decide (128 * j.tile + i % 128 < x.colLimit)) = .ok regs →
      Leads (.epilogueRun c) s fun t =>
        (t.ctx c).epi = if j.rows ≤ row + 4 then later else { j with next := j.next + 1 } :: later) ∧
    (∀ off x, (s.ctx c).rowfix = some off → (s.ctx c).chainAt off = some x → s.coreUp c.lc = true → s.chainBusy c off = false →
      s.linkBusy c x = false → x.stat ≠ 2 → (x.stat = 1 → x.link = true) →
      (s.ctx c).rowfixed = false → Leads (.rowfixRun c) s fun t =>
        ((t.ctx c).rowfix = none ∧ (t.ctx c).rowfixed = false) ∨ ((t.ctx c).rowfix = some off ∧ (t.ctx c).rowfixed = true)) ∧
    (∀ off x, (s.ctx c).rowfix = some off → (s.ctx c).chainAt off = some x → s.coreUp c.lc = true → s.chainBusy c off = false →
      s.linkBusy c x = false → (s.ctx c).rowfixed = true → s.epiWrites c = false →
      exec (.rowfixRun c) s = .next (s.rowsFinal c x)) ∧
    (∀ chain j entry pc rest x, (s.ctx c).sends = (chain, j, entry, pc) :: rest → s.peek64 (jAddr c entry + 8) = 0 →
      s.coreUp c.lc = true → (s.core c.lc).bg = [] → (s.core c.lc).sb = [] → (s.ctx c).chainAt chain = some x →
      s.sendBad ((x.w 12).setWidth 12) (bits (x.w 12) 19 12) = 0 → (s.ctx c).check = none → Leads (.chainSend c) s fun t =>
        (t.ctx c).sends = rest ∧ (t.core c.lc).sends.length = (s.core c.lc).sends.length + 1) ∧
    ∀ (slot : SlotIx) (tile : FacetTile) (f : Fill), (s.ctx c).fills.find? (·.slot = BitVec.ofNat 4 slot.val) = some f →
      f.src = .writes → s.writesLanded c (BitVec.ofNat 4 slot.val) = true → Leads (.slotFillComplete c slot tile) s fun t =>
        ((t.ctx c).slot (BitVec.ofNat 4 slot.val)).st = .resident ∧
        (t.ctx c).fills = (s.ctx c).fills.filter (·.slot ≠ BitVec.ofNat 4 slot.val))

/-- The stream commands and the event records. While a core takes stream commands: LAUNCH of a good descriptor adds its stream;
RESUME of a STOPPED stream lets its context issue again; RESTART returns it to its commit point; END removes a stream that is
not RUNNING (with a record of its end, log entry 89) and marks one that is; each then reports result 0; a command for a stream
that the core does not hold reports result 2. While it takes none, a command is held. EVENT_RECORD_WRITE writes the oldest
record into a ring with room and counts it. (R169, R170, R171, R172, R173, R174, R175, R198, R761.) -/
def Obligations.StreamCommands : Prop :=
  let good (lc : LC) (t : State) (action : Nat) (id : W32) : Prop :=
    t.reg (rg .sqStatus lc.val) = BitVec.ofNat 64 (action + id.toNat * 2 ^ 32)
  (∀ (lc : LC) (s : State) (id : W32) (x : Stream) (c : Cx), s.sqReady lc = true →
    ((s.fset (rg .unitStatus lc.val) 4 4 0).core lc).stream id = some x →
    (s.fset (rg .unitStatus lc.val) 4 4 0).holder lc id = some c → x.st = .stopped → c.lc = lc →
    (Leads (.resume lc id) s fun t => (t.ctx c).st = .issuing ∧ (t.ctx c).pc = (s.ctx c).pc ∧ good lc t 2 id) ∧
    Leads (.restart lc id) s fun t => (t.ctx c).replayDue = true ∧ good lc t 3 id) ∧
  (∀ (lc : LC) (s : State) (id : W32), s.sqReady lc = true → (s.core lc).stream id = none →
    let t := s.fset (rg .unitStatus lc.val) 4 4 0
    exec (.resume lc id) s = .next (t.sqDone lc 2 0x02 id) ∧ exec (.restart lc id) s = .next (t.sqDone lc 3 0x02 id) ∧
    exec (.endStream lc id) s = .next (t.sqDone lc 4 0x02 id)) ∧
  (∀ (lc : LC) (s : State) (id : W32) (x : Stream), s.sqReady lc = true → (s.core lc).stream id = some x →
    Leads (.endStream lc id) s fun t => good lc t 4 id ∧
      (t.core lc).stream id = if x.st = .running then some { x with ending := true } else none) ∧
  (∀ (lc : LC) (s : State) (desc : PAddr), s.sqReady lc = true → desc.toNat % 64 = 0 →
    let u := s.fset (rg .unitStatus lc.val) 4 4 0
    u.badAddr (PAddr.loc desc).toNat false = false → u.poisoned (BitVec.ofNat 44 (lineOf (PAddr.loc desc).toNat)) = false →
    u.tierStatus (PAddr.loc desc).toNat = none → u.isLocal desc = true →
    let bs := u.physRead desc 64
    let w (i : Nat) : W64 := leWord ((bs.drop (8 * i)).take 8)
    descBad w = false → (s.core lc).stream ((w 7).setWidth 32) = none → (s.core lc).streams.length < 255 →
    Leads (.launch lc desc) s fun t => ((t.core lc).stream ((w 7).setWidth 32)).isSome = true ∧
      good lc t 1 ((w 7).setWidth 32)) ∧
  (∀ (lc : LC) (s : State) (desc : PAddr) (id : W32), s.sqReady lc = false →
    exec (.launch lc desc) s = .next ((s.updCore lc fun k => { k with
      sqHeld := k.sqHeld ++ [BitVec.ofNat 64 (1 + desc.toNat / 64 * 64)] }).fset (rg .sqStatus lc.val) 16 16 1) ∧
    exec (.endStream lc id) s = .next ((s.updCore lc fun k => { k with
      sqHeld := k.sqHeld ++ [BitVec.ofNat 64 (4 + id.toNat * 64)] }).fset (rg .sqStatus lc.val) 16 16 1)) ∧
  ∀ (lc : LC) (s : State) (e : EventRec) (rest : List EventRec) (cp rp : PAddr), (s.core lc).events = e :: rest →
    s.mapOne (LC.walkDie lc) e.of_.root e.of_.countAddr 1 = some cp →
    let written := leWord (s.physRead cp 8)
    (written - leWord (s.physRead (cp + 8) 8)).toNat < 2 ^ (e.of_.ringLog2.toNat + 4) →
    s.mapOne (LC.walkDie lc) e.of_.root (e.of_.ringBase + BitVec.ofNat 64
      (64 * (written.toNat % 2 ^ (e.of_.ringLog2.toNat + 4)))) 1 = some rp →
    exec (.eventRecordWrite lc) s = .next
      ((((s.physWrite rp (e.bytes lc)).physWrite cp (leBytes 8 (written + 1).toNat)).updCore lc fun k =>
        { k with events := rest }).msi e.of_.msiAddr e.of_.msiData)

/-- Step boundaries, the pacer, droop gates, time and counter snapshots. A core that takes no steps is untouched by STEP_BOUNDARY;
an empty step moves no pass and no load and is charged to W_PACE. A pacer tick raises a die's time by one and gives its tokens,
at most 16 in a bucket. A droop trigger opens or prolongs the gate, in a hold-off it is only counted; gate and hold-off end at
their times. A PLL loss sets time_unlocked; a first even offset is published; SNAP copies the counters; a scrub pass corrects
every single-bit error. (R88, R145, R146, R148, R149, R150, R154, R158, R160, R162, R163.) -/
def Obligations.StepsPacingAndTime : Prop :=
  (∀ (lc : LC) (s : State), s.coreUp lc = false → exec (.stepBoundary lc) s = .next s) ∧
  (∀ (lc : LC) (s : State) (c : Cx), s.coreUp lc = true → (s.core lc).empty = true → (s.die (LC.die lc)).gateStart = none →
    c.lc = lc → (s.ctx c).counts = true → (s.core lc).slot ≠ some c.ix → Leads (.stepBoundary lc) s fun t =>
      t.counter c 0 = s.counter c 0 + 1 ∧ t.counter c 3 = s.counter c 3 + 1 ∧ (t.core lc).passes = (s.core lc).passes ∧
      (t.core lc).shadow = (s.core lc).shadow ∧ (t.core lc).front = (s.core lc).front ∧ t.mem = s.mem ∧
      (t.core lc).slot = none ∧ (t.core lc).empty = (s.paced lc && decide ((s.core lc).tokens = 0))) ∧
  (∀ (d : Die) (s : State), Leads (.pacerTick d) s fun t => t.time d = s.time d + 1 ∧ ∀ e, e ≠ d → t.die e = s.die e) ∧
  (∀ (d : CDie) (s : State) (r : Nat), s.tokenRate d.val = some r → Leads (.pacerTick (CDie.die d)) s fun t =>
    let sum := (s.die (CDie.die d)).frac.toNat + r
    (t.die (CDie.die d)).frac = BitVec.ofNat 24 sum ∧
    ∀ lc : LC, LC.cdie lc = d → (t.core lc).tokens = min ((s.core lc).tokens + sum / 2 ^ 24) 16) ∧
  (∀ (d : CDie) (s : State),
    let k := s.die (CDie.die d)
    let r := rg .droopCtl d.val
    (k.holdoff = none → Leads (.droopTrigger d) s fun t =>
      (t.die (CDie.die d)).gateStart = some (k.gateStart.getD k.time) ∧
      (t.die (CDie.die d)).gateEnd = k.time + BitVec.ofNat 64 (4 * s.fget r 15 8) ∧
      t.fget r 47 32 = min (s.fget r 47 32 + 1) 65535) ∧
    (k.holdoff ≠ none → Leads (.droopTrigger d) s fun t => t.dies = s.dies ∧ t.fget r 63 48 = min (s.fget r 63 48 + 1) 65535) ∧
    (∀ t0, k.gateStart = some t0 → t0.toNat + 2000 ≤ k.gateEnd.toNat → t0.toNat + 2000 ≤ k.time.toNat →
      exec (.droopGateEnd d) s = .next (s.setDie (CDie.die d) { k with gateStart := none, holdoff := some (t0 + 3000) })) ∧
    (∀ t0, k.gateStart = some t0 → k.gateEnd.toNat < t0.toNat + 2000 → k.gateEnd.toNat ≤ k.time.toNat →
      exec (.droopGateEnd d) s = .next (s.setDie (CDie.die d) { k with gateStart := none, holdoff := none })) ∧
    ∀ e, k.holdoff = some e → e.toNat ≤ k.time.toNat →
      exec (.droopHoldoffEnd d) s = .next (s.setDie (CDie.die d) { k with holdoff := none })) ∧
  (∀ (d : Die) (s : State), Leads (.timePllUnlock d) s fun t =>
    t.fget (rg .cadStatus d.val) 2 2 = 1 ∧ t.fget (rg .cadStatus d.val) 63 3 = s.fget (rg .cadStatus d.val) 63 3) ∧
  (∀ (d : Die) (t1 t2 t3 t4 : W64) (s : State), s.fget (rg .toff d.val) 63 63 = 0 → ((t4 - t3) - (t2 - t1)).toInt % 2 = 0 →
    Leads (.timeOffsetMeasure d t1 t2 t3 t4) s fun t => t.fget (rg .toff d.val) 63 63 = 1 ∧
      t.fget (rg .toff d.val) 47 0 = (BitVec.ofInt 48 (((t4 - t3) - (t2 - t1)).toInt / 2)).toNat) ∧
  (∀ (lc : LC) (x : CtxIx) (n : Fin 16) (s : State), Leads (.snap lc) s fun t => t.cnt = s.cnt ∧
    t.reg (rg .lcCnt lc.val (16 * x.val + n.val)) = if n = 15 then s.now lc else s.counter ⟨lc, x⟩ n) ∧
  ∀ (lc : LC) (s : State), s.windowUp (windowBase lc) = true → Leads (.scratchpadScrub lc) s fun t =>
    t.fget (rg .coreSpdScrub lc.val) 63 32 = min (s.fget (rg .coreSpdScrub lc.val) 63 32 + 1) 0xFFFFFFFF ∧
    t.mem = s.mem ∧ t.badWords = s.badWords ∧
    ∀ w ∈ t.softWords, 8 * w < windowBase lc ∨ windowBase lc + 0x600000 ≤ 8 * w

/-- The operand cache's lines, and the store buffer's way to the homes. A line that has arrived without an error is at hand for the
load with the core's own stores merged, and the issue unit no longer waits for it; one that came with an error leaves only the
wait. OC_INVALIDATE empties the cache. A store-buffer entry that may be sent goes to the home of its line, or as a message to
its vertex; a remote write that is not accepted in 400 µs is gone and is a failed write with ADDR. A wait that has not met its
condition reads again. (R112, R113, R114, R135, R227, R260, R331, R333, R370.) -/
def Obligations.LinesAndBuffers : Prop :=
  (∀ (lc : LC) (s : State) (line : PAddr) (h : Hint) (alloc po : Bool) (st : W8) (d : List W8),
    (s.core lc).ocMiss = some (line, h, alloc) → s.isLocal line = true → (s.core lc).arrived = some (line, st, d, po) →
    Leads (.ocLineFill lc) s fun t => (t.core lc).ocMiss = none ∧ (t.core lc).missBuf =
      if st = 0 ∧ po = false then (s.core lc).missBuf ++ [(line, s.forward lc line d)] else (s.core lc).missBuf) ∧
  (∀ (lc : LC) (s : State) (line : PAddr) (h : Hint) (d : List W8) (w : Nat), (s.core lc).ocMiss = some (line, h, true) →
    s.isLocal line = true → (s.core lc).arrived = some (line, 0, d, false) → s.fget (rg .coreOcCtl lc.val) 24 24 = 0 →
    w < 8 → s.fget (rg .coreOcCtl lc.val) 7 0 = 0 → (∀ x ∈ (s.core lc).oc, x.set = line.toNat / 128 % 256 → x.way < w) →
    Leads (.ocLineFill lc) s fun t => ∃ x ∈ (t.core lc).oc, x.line = line ∧ x.data = s.forward lc line d ∧
      x.set = line.toNat / 128 % 256 ∧ x.age = if h = .stream ∨ h = .last then 3 else 1) ∧
  (∀ (lc : LC) (s : State), Leads (.ocInvalidate lc) s fun t => (t.core lc).oc = [] ∧ (t.core lc).sb = (s.core lc).sb) ∧
  (∀ (lc : LC) (ix : Fin 64) (s : State) (e : SbEntry), (s.core lc).sb[ix.val]? = some e →
    mayBeSent (s.core lc).sb ix.val = true →
    let sent := s.setCore lc { s.core lc with sb := (s.core lc).sb.set ix.val { e with sent := true, sentAt := s.now lc } }
    (s.isLocal e.line = true → exec (.storeBufferSend lc ix) s = .next (sent.request (.ctx ⟨lc, e.c⟩) s.vertex
      (PAddr.loc e.line) e.hint (if e.mask = BitVec.allOnes 128 then .wrLine e.data else .wrPart e.mask e.data))) ∧
    (s.isLocal e.line = false → exec (.storeBufferSend lc ix) s = .next (sent.emit (.remoteWrite e.line e.mask e.data)))) ∧
  (∀ (lc : LC) (ix : Fin 64) (s : State) (e : SbEntry), (s.core lc).sb[ix.val]? = some e → e.sent = true →
    s.isLocal e.line = false → 400000 ≤ (s.now lc - e.sentAt).toNat → (s.ctx ⟨lc, e.c⟩).bgFail = none →
    Leads (.remoteWriteTimeout lc ix) s fun t => (t.core lc).sb = (s.core lc).sb.eraseIdx ix.val ∧
      (t.ctx ⟨lc, e.c⟩).bgFail = some (.addr, e.va, (PAddr.loc e.line).setWidth 64)) ∧
  ∀ (c : Cx) (s : State) (w : Await), (s.ctx c).await = some w → w.kind = .wait → w.sent = false →
    (s.ctx c).replayDue = false →
    let u := s.updCtx c fun k => { k with await := some { w with sent := true } }
    (s.isLocal w.line = false → exec (.waitReread c) s = .next (u.emit (.remoteRead w.line))) ∧
    (s.isLocal w.line = true → (regionOf (PAddr.loc w.line).toNat).coherent = true →
      exec (.waitReread c) s = .next (u.request (.ctx c) s.vertex (PAddr.loc w.line) .normal .rdOnce))

/-- The 64 lines of an aligned 8 KiB block have 64 different homes. Two lines of one aligned block of 8 KiB with the same home slice
are the same line, for every local address. (R323.) -/
def Obligations.HomeLinesSpread : Prop :=
  ∀ a b : Nat, a < 2 ^ 44 → b < 2 ^ 44 → a / 8192 = b / 8192 → homeOf a = homeOf b → lineOf a = lineOf b

/-- Requests reach the homes of their lines. Each of the seven transactions, sent by an agent that may send it: behind a busy line
it waits last; on a free line of T2 or T3 without holders it goes to the lower tier; on a line that has another owner it recalls
the owner's copy first; at an address without memory it ends with an address error. (R360, R361, R363, R364, R366, R413, R714.) -/
def Obligations.HomeRequestsArrive : Prop :=
  ∀ (r : Requester) (v : Vertex) (a : LAddr) (h : Hint) (s : State),
    let la := lineAddr a
    let l := s.line la
    let now := s.time (homeDie la.toNat)
    let arrives (i : Instr) (q : HomeReq) (write : Bool) : Prop :=
      (l.txn ≠ none → exec i s = .next (s.setLine la { l with waiting := l.waiting ++ [q] })) ∧
      (l.txn = none → s.badAddr la.toNat write = true →
        exec i s = .next (s.setLine la { l with txn := some ⟨q, .respond 0x10 0 [] false, now⟩ })) ∧
      (l.txn = none → s.badAddr la.toNat write = false → l.owner = none → l.sharers = [] →
        (regionOf la.toNat = .t2 ∨ regionOf la.toNat = .t3) →
        exec i s = .next (s.setLine la { l with txn := some ⟨q, .tier false, now⟩ }))
    let recalls (i : Instr) (q : HomeReq) (write : Bool) : Prop := ∀ o, o ≠ r → l.txn = none →
      s.badAddr la.toNat write = false → l.owner = some o → l.sharers = [] →
      exec i s = .next (s.setLine la { l with txn := some ⟨q, .recall [o] [], now⟩ })
    let q (v : Vertex) (h : Hint) (k : TxnKind) : HomeReq := ⟨r, v, h, k, s.time (homeDie a.toNat)⟩
    (arrives (.rdOnce r v a h) (q v h .rdOnce) false ∧ recalls (.rdOnce r v a h) (q v h .rdOnce) false) ∧
    (Requester.caches r = true → arrives (.rdShared r a h) (q s.vertex h .rdShared) false ∧
      recalls (.rdShared r a h) (q s.vertex h .rdShared) false ∧ arrives (.rdUnique r a h) (q s.vertex h .rdUnique) false ∧
      recalls (.rdUnique r a h) (q s.vertex h .rdUnique) false ∧
      ∀ d, arrives (.evict r a d) (q s.vertex .normal (.evict d)) true) ∧
    (∀ m d, arrives (.wrPart r v a h m d) (q v h (.wrPart m d)) true ∧ recalls (.wrPart r v a h m d) (q v h (.wrPart m d)) true) ∧
    (∀ d, arrives (.wrLine r v a h d) (q v h (.wrLine d)) true ∧ recalls (.wrLine r v a h d) (q v h (.wrLine d)) true) ∧
    ∀ op dbl x, a.toNat % (if dbl then 8 else 4) = 0 →
      arrives (.atomic r v a op dbl x) (q v .normal (.atomic op (a.toNat % 128) dbl x)) true ∧
      recalls (.atomic r v a op dbl x) (q v .normal (.atomic op (a.toNat % 128) dbl x)) true

/-- What a transaction does once its lower tier answers. With access counting off, on a line of T2 or T3 that is not poisoned and
whose tier answers with data: a read gets the 128 bytes; a full write stores its bytes, a partial write those under its mask, an
atomic returns the old word and stores the new one; no byte outside the line changes. A failing answer ends a request that is
not privileged with its status and poisons the line of a write; a privileged one stalls. A stall is counted, and a request
beyond its limit ends LATE. (R248, R360, R412, R413, R414, R415, R416.) -/
def Obligations.LowerTierTransactions : Prop :=
  (∀ (a : LAddr) (s : State) (x : Txn) (i : Fin 128), s.memOk → s.fget (rg .tierCntBase) 0 0 = 0 → a.toNat % 128 = 0 →
    (regionOf a.toNat = .t2 ∨ regionOf a.toNat = .t3) → (s.line a).txn = some x → x.phase = .tier false →
    s.tierStatus a.toNat = none → s.poisoned a = false →
    let old := Memory.read s.mem (a.toNat + i.val)
    let new (m : List Host.Cell) := Memory.read m (a.toNat + i.val)
    let answers (P : State → TxnPhase → Prop) : Prop := Leads (.lowerTierResponse a .data) s fun t =>
      (∀ b, b < a.toNat ∨ a.toNat + 128 ≤ b → Memory.read t.mem b = Memory.read s.mem b) ∧
      ∃ y, (t.line a).txn = some y ∧ y.req = x.req ∧ P t y.phase
    ((x.req.kind = .rdOnce ∨ x.req.kind = .rdShared ∨ x.req.kind = .rdUnique) → answers fun t p =>
      t.mem = s.mem ∧ p = .respond 0 0 (s.peek a.toNat 128) false) ∧
    (∀ d, x.req.kind = .wrLine d → answers fun t p => p = .respond 0 0 [] false ∧ new t.mem = d.getD i.val 0) ∧
    (∀ m d, x.req.kind = .wrPart m d → answers fun t p => p = .respond 0 0 [] false ∧
      new t.mem = if m.getLsbD i.val then d.getD i.val 0 else old) ∧
    ∀ op off dbl v, x.req.kind = .atomic op off dbl v → off + (if dbl then 8 else 4) ≤ 128 →
      let n := if dbl then 8 else 4
      let w := leWord (s.peek (a.toNat + off) n)
      answers fun t p => p = .respond 0 w [] false ∧ new t.mem =
        if off ≤ i.val ∧ i.val < off + n then BitVec.ofNat 8 ((amoNew op (8 * n) w v).toNat / 256 ^ (i.val - off)) else old) ∧
  (∀ (a : LAddr) (s : State) (x : Txn) (o : TierAnswer), (s.line a).txn = some x → x.phase = .tier false →
    s.tierStatus a.toNat = none → TierAnswer.code o ≠ 0 →
    (s.privileged x.req = false → Leads (.lowerTierResponse a o) s fun t =>
      (∃ y, (t.line a).txn = some y ∧ y.req = x.req ∧ y.phase = .respond (TierAnswer.code o) 0 [] false) ∧
      (x.req.kind = .rdOnce → t.poison = s.poison)) ∧
    (s.privileged x.req = true → o ≠ .noDecode → Leads (.lowerTierResponse a o) s fun t =>
      ∃ y, (t.line a).txn = some y ∧ y.req = x.req ∧ y.phase = .tier true)) ∧
  (∀ (a : LAddr) (s : State) (x : Txn), 2 ≤ tierOf a.toNat → (s.line a).txn = some x → x.phase = .tier false →
    s.isLate a x.req = true → s.privileged x.req = false → Leads (.tierLateTimeout a) s fun t =>
      ∃ y, (t.line a).txn = some y ∧ y.req = x.req ∧ y.phase = .respond 0x01 0 [] false) ∧
  ∀ (a : LAddr) (s : State) (x : Txn), (s.line a).txn = some x → x.phase = .tier true →
    10000 ≤ (s.time (homeDie a.toNat) - x.at_).toNat → Leads (.tierStallRetry a) s fun t =>
      t.fget (stallReg a) 63 32 = min (s.fget (stallReg a) 63 32 + (s.time (homeDie a.toNat) - x.at_).toNat / 1000) 0xFFFFFFFF

/-- Recalls, responses and acknowledgements. A recall reaches a holder once. The last holder's response, with or without data, lets
the transaction go on, and a read leaves that holder a shared copy. A response delivers the line: a waiting ld.v completes with
its word in s[d]; another agent gets the message. An acknowledgement frees a line for which nothing waits. After 200 µs without
it the line is poisoned and freed, and a record of class 0x06 names the silent participant. (R248, R324, R360, R362, R363, R366,
R367, R497.) -/
def Obligations.HomeTransactionsEnd : Prop :=
  (∀ (a : LAddr) (r : Requester) (s : State) (x : Txn) (left sent : List Requester), (s.line a).txn = some x →
    x.phase = .recall left sent → r ∈ left → r ∉ sent → exec (.recall a r) s = .next ((s.setLine a { s.line a with
      txn := some { x with phase := .recall left (sent ++ [r]) } }).emit (.recall a r))) ∧
  (∀ (a : LAddr) (r : Requester) (s : State) (x : Txn) (sent : List Requester) (d : Option (List W8)),
    (regionOf a.toNat = .t2 ∨ regionOf a.toNat = .t3) → (s.line a).txn = some x → x.phase = .recall [r] sent →
    Leads (.recallResponse a r d) s fun t =>
      (∃ y, (t.line a).txn = some y ∧ y.req = x.req ∧ y.phase = .tier false) ∧
      ((s.line a).owner = some r → (t.line a).owner = none) ∧
      (r ∈ (t.line a).sharers ↔ x.req.kind = .rdOnce ∨ x.req.kind = .rdShared) ∧
      (d = none → t.mem = s.mem) ∧ ∀ bs, d = some bs → s.memOk → t.peek a.toNat 128 = fit 128 bs) ∧
  (∀ (a : LAddr) (s : State) (x : Txn) (st : W8) (old : W64) (d : List W8) (po : Bool), (s.line a).txn = some x →
    x.phase = .respond st old d po → (∀ c, x.req.r ≠ .ctx c) → Leads (.homeResponse a) s fun t =>
      t.out = s.out ++ [.homeData x.req.vertex x.req.r a st old d po] ∧
      ∃ y, (t.line a).txn = some y ∧ y.req = x.req ∧ y.phase = .ack) ∧
  (∀ (a : LAddr) (s : State) (x : Txn) (d : List W8) (c : Cx) (w : Await), (s.line a).txn = some x →
    x.phase = .respond 0 0 d false → x.req.r = .ctx c → x.req.vertex = s.vertex → x.req.kind = .rdOnce →
    (s.ctx c).await = some w → w.line = mkPA s.vertex a → w.sent = true → w.kind = .ldv → (s.ctx c).replayDue = false →
    Leads (.homeResponse a) s fun t => (t.ctx c).await = none ∧ (t.core c.lc).blockedBy ≠ some c.ix ∧
      ∀ r, (t.ctx c).sget r = ((s.ctx c).sset w.d (leWord ((d.drop w.off).take w.size))).sget r) ∧
  (∀ (a : LAddr) (s : State) (x : Txn), (s.line a).txn = some x → x.phase = .ack → (s.line a).waiting = [] →
    exec (.acknowledgement a x.req.r) s = .next (s.setLine a { s.line a with txn := none })) ∧
  ∀ (a : LAddr) (s : State) (x : Txn), (s.line a).txn = some x → x.phase = .ack → (s.line a).waiting = [] →
    (regionOf a.toNat = .t1 ∨ regionOf a.toNat = .t2 ∨ regionOf a.toNat = .t3) →
    200000 ≤ (s.time (homeDie a.toNat) - x.at_).toNat → s.errHeld.length < 256 → Leads (.homeTimeout a) s fun t =>
      t.poisoned a = true ∧ (t.line a).txn = none ∧ ∃ e, t.errHeld = s.errHeld ++ [e] ∧ e.cls = 0x06 ∧
        e.requester = Requester.code x.req.r ∧ e.addr = mkPA s.vertex a

/-- Page walks, fault records and invalidations. A walk that finds its leaf ends, and its translation is in the shared TLB of its
die and lets a parked context issue. A walk that faults, with no record of its key and room in its table, opens a record with
the next number and parks its context. A record is posted 1 µs after its opening and counts the queue's head up. XLT_RESOLVE's
retry lets the requesters walk again, its fail raises ACCESS; an unknown record sets resolve_err. An invalidation removes what
it matches, is busy until all that it waits for is done, and holds later writes meanwhile. (R379, R383, R386, R387, R388, R390,
R391, R392, R393, R395, R397, R398.) -/
def Obligations.WalksFaultsAndInvalidations : Prop :=
  (∀ (r : Requester) (s : State) (w : Walk) (tr : Trans) (pte : PAddr) (old v : W64) (es : List WalkEntry),
    s.walks.find? (fun w => w.r = r && w.record.isNone) = some w →
    s.walkAll (walkDie r w.root) w.root w.va w.acc = (.leaf tr pte old v, es) → Leads (.pageWalk r) s fun t =>
      w ∉ t.walks ∧ tr ∈ (t.die (tlbDie r)).tlb ∧ ∀ c, r = .ctx c → w.background = false → (t.ctx c).parked = false) ∧
  (∀ (r : Requester) (s : State) (w : Walk) (cause : BitVec 3) (level : BitVec 2) (entry : W64) (es : List WalkEntry),
    s.walks.find? (fun w => w.r = r && w.record.isNone) = some w →
    s.walkAll (walkDie r w.root) w.root w.va w.acc = (.fault cause level entry, es) → (cause = 5 → s.privReq r = false) →
    (∀ f ∈ s.faults, faultDie f.opener.va = faultDie w.va → f.sameKey w level = false) →
    (s.faults.filter fun f => faultDie f.opener.va = faultDie w.va).length < 64 → Leads (.pageWalk r) s fun t =>
      t.faults = s.faults ++ [⟨s.nextFault, w, cause, level, entry, [r], 0, s.time (BDie.die (faultDie w.va)), false⟩] ∧
      t.nextFault = s.nextFault + 1 ∧
      ∀ c, r = .ctx c → w.background = false → (t.ctx c).parked = true ∧ (t.ctx c).st = .waiting) ∧
  (∀ (b : BDie) (s : State) (f : FaultRec), s.faults.find? (fun f => faultDie f.opener.va = b && !f.posted) = some f →
    1000 ≤ (s.time (BDie.die b) - f.at_).toNat → s.eqRoom = true → Leads (.faultRecordPost b) s fun t =>
      t.fget (rg .xltEqHead) 31 0 = (s.fget (rg .xltEqHead) 31 0 + 1) % 2 ^ 32 ∧
      t.faults = s.faults.map fun x => if x.id = f.id then { x with posted := true } else x) ∧
  (∀ (id : W32) (s : State), s.faults.any (·.id = id) = false →
    (Leads (.resolveRetry id) s fun t => t.fget (rg .xltStatus) 56 56 = 1 ∧ t.walks = s.walks) ∧
    (Leads (.resolveFail id) s fun t => t.fget (rg .xltStatus) 56 56 = 1 ∧ t.walks = s.walks)) ∧
  (∀ (id : W32) (s : State), s.faults.any (·.id = id) = true →
    (exec (.resolveRetry id) s = .next { s with
      faults := s.faults.filter (·.id ≠ id)
      walks := s.walks.map fun w => if w.record = some id then { w with record := none } else w }) ∧
    ∀ (w : Walk) (c : Cx), s.walks.filter (·.record = some id) = [w] → w.r = .ctx c → w.background = false →
      exec (.resolveFail id) s = .next (({ s with
        faults := s.faults.filter (·.id ≠ id)
        walks := s.walks.filter (·.record ≠ some id) }.updCtx c fun k => { k with parked := false }).raise c .access
          (s.ctx c).pc w.va (id.setWidth 64))) ∧
  (∀ (cmd : W64) (s : State), s.inval = none →
    let u := s.regStore (rg .xltInvCmd) (BitVec.allOnes 64) (cmd ||| 0x80000000)
    let hit (t : Trans) : Bool := invMatches (u.reg (rg .xltInvCmd)) (u.reg (rg .xltInvVa)) t.asid t.global t.va.toNat t.size
    Leads (.invalidation cmd) s fun t => t.inval.isSome = true ∧ t.fget (rg .xltInvCmd) 32 32 = 1 ∧
      (∀ lc, (t.core lc).tlb = (s.core lc).tlb.filter fun x => !hit x) ∧
      (∀ d, (t.die d).tlb = (s.die d).tlb.filter fun x => !hit x) ∧
      ∀ lc, (t.core lc).oc = if (u.reg (rg .xltInvCmd)).getLsbD 18 then [] else (s.core lc).oc) ∧
  (∀ (cmd : W64) (s : State), s.inval.isSome = true → exec (.invalidation cmd) s = .next { s with
    invalHeld := s.invalHeld ++ [(.xltInvCmd, BitVec.allOnes 64, cmd ||| 0x80000000)] }) ∧
  ∀ (s : State) (x : Inval), s.inval = some x → s.invalHeld = [] → x.writes.any s.underWay.writes.contains = false →
    x.loads.any s.underWay.loads.contains = false → Leads .invalidationComplete s fun t =>
      t.inval = none ∧ t.fget (rg .xltInvCmd) 32 32 = 0

/-- Access counters, tier quotas, and the commands of the memory-side cache. A flush leaves no counter word cached, and a single
cached word is then in the table in memory; halving and clearing change the cached words, and a single counted region of the
table. A charge within the quota raises the group's usage of the tier and gives result 1, one beyond the quota leaves the usage
and gives 2; a release lowers it or, below zero, gives 3. MSC_FLUSH leaves no dirty line in a base die's slices and keeps every
line's data; MSC_INVALIDATE leaves no line. MSC_WAY_REPLACE empties the way and takes it out of use, and spare way 24, or after
it way 25, comes into use; with neither left the package is degraded. Slices of other base dies keep their lines. (R406, R407,
R409, R410, R443, R452, R455.) -/
def Obligations.CountersAndQuotas : Prop :=
  (∀ (b : BDie) (h : Slice) (s : State),
    (Slice.bdie h = b → (Leads (.mscFlush b) s fun t =>
        t.mscOf h = (s.mscOf h).map fun l => { l with dirty := false }) ∧
      Leads (.mscInvalidate b) s fun t => t.mscOf h = []) ∧
    (Slice.bdie h ≠ b → (Leads (.mscFlush b) s fun t => t.mscOf h = s.mscOf h) ∧
      Leads (.mscInvalidate b) s fun t => t.mscOf h = s.mscOf h)) ∧
  (∀ (h : Slice) (way : Fin 26) (s : State),
    let r := rg .mscWays h.val
    s.fget r way.val way.val = 1 →
    let full := 24 ≤ ((List.range 26).filter fun w => s.fget r w w = 1).length
    (Leads (.mscWayReplace h way) s fun t => ∀ l ∈ t.mscOf h, l.way ≠ way.val) ∧
    (full → s.fget r 24 24 = 0 → s.fget r 25 25 = 0 → Leads (.mscWayReplace h way) s fun t =>
      t.fget r way.val way.val = 0 ∧ t.fget r 24 24 = 1) ∧
    (full → s.fget r 24 24 = 1 → s.fget r 25 25 = 0 → Leads (.mscWayReplace h way) s fun t =>
      t.fget r way.val way.val = 0 ∧ t.fget r 25 25 = 1) ∧
    (s.fget r 25 25 = 1 → Leads (.mscWayReplace h way) s fun t =>
      t.fget r way.val way.val = 0 ∧ t.fget (rg .errStatus) 6 6 = 1)) ∧
  (∀ s : State, Leads .counterFlush s fun t => t.cntCache = []) ∧
  (∀ (s : State) (n v : Nat), s.cntCache = [(n, v)] → regionOf (s.cntAddr n) = .t2 → s.tierStatus (lineOf (s.cntAddr n)) = none →
    lineOf (s.cntAddr n) ∉ s.poison → s.memOk → Leads .counterFlush s fun t => t.peek (s.cntAddr n) 2 = leBytes 2 v) ∧
  (∀ s : State, (Leads .counterHalve s fun t => t.cntCache = s.cntCache.map fun x => (x.1, x.2 / 2)) ∧
    Leads .counterClear s fun t => t.cntCache = s.cntCache.map fun x => (x.1, 0)) ∧
  (∀ (s : State) (n : Nat), s.countedRegions.dedup = [n] →
    exec .counterHalve s = .next { s.homeWrite (s.cntAddr n) (leBytes 2 (leNat (s.homeBytes (s.cntAddr n) 2) / 2)) with
      cntCache := s.cntCache.map fun x => (x.1, x.2 / 2) } ∧
    exec .counterClear s = .next { s.homeWrite (s.cntAddr n) [0, 0] with cntCache := s.cntCache.map fun x => (x.1, 0) }) ∧
  ∀ (g : Group) (tier : BitVec 2) (n : BitVec 21) (s : State), tier ≠ 0 →
    let hi := 21 * tier.toNat - 1
    let lo := 21 * (tier.toNat - 1)
    let r := rg .tierUsed g.val
    let used := s.fget r hi lo
    let quota := s.fget (rg .tierQuota g.val) hi lo
    let gives (i : Instr) (u result : Nat) : Prop := Leads i s fun t =>
      t.fget r hi lo = u ∧ t.fget (rg .tierCharge g.val) 26 25 = result
    (used + n.toNat < 2 ^ 21 → quota = 0x1FFFFF ∨ used + n.toNat ≤ quota → gives (.tierCharge g tier n) (used + n.toNat) 1) ∧
    (quota ≠ 0x1FFFFF → quota < used + n.toNat → gives (.tierCharge g tier n) used 2) ∧
    (n.toNat ≤ used → gives (.tierRelease g tier n) (used - n.toNat) 1) ∧
    (used < n.toNat → gives (.tierRelease g tier n) used 3)

/-- Jahel stacks: temperature, reads, stripes, failed channels, rebuild and scrub. A temperature report sets the band, trips the
stack at 105 °C and ends the trip below 100 °C. A clean burst gives a waiting read its bytes; a burst that fails with a second
bad burst poisons the line, one that fails alone is reconstructed. A stripe entry retires to the stack after 2 µs. The first
failed channel takes spare 0 and its rebuild starts; with all spares used the stack is degraded. A rebuild moves position by
position, and after the last the spare stands in the map. A scrub pass is counted. (R425, R426, R429, R432, R434, R435, R436,
R437, R439.) -/
def Obligations.StacksAndTheirChannels : Prop :=
  (∀ (j : Stack) (temp : W8) (s : State), Leads (.stackTemperatureReport j temp) s fun t =>
    let r := rg .jsStatus j.val
    t.fget r 7 0 = temp.toNat ∧ t.fget r 9 8 = nextBand (s.fget r 9 8) temp.toNat ∧
    t.fget r 10 10 = if 105 ≤ temp.toNat then 1 else if temp.toNat < 100 then 0 else s.fget r 10 10) ∧
  (∀ (a : LAddr) (o : BurstOutcome) (s : State) (x : Txn), (s.line a).txn = some x → x.phase = .stack → x.req.kind = .rdOnce →
    regionOf a.toNat = .t1 → s.mscFind a = none → s.stripeLine a = none → s.tripped (t1Place a.toNat).2.1 = false →
    s.chanDown (t1Place a.toNat).2.1 (dataChan a) (t1Place a.toNat).1 = false → s.fget (rg .tierCntBase) 0 0 = 0 →
    let j := (t1Place a.toNat).2.1
    (o.wrong = 0 → o.inverted = false → s.poisoned a = false → Leads (.t1Read a o) s fun t =>
      (∃ y, (t.line a).txn = some y ∧ y.req = x.req ∧ y.phase = .respond 0 0 (s.peek a.toNat 128) false) ∧
      (x.req.h = .stream → t.mem = s.mem)) ∧
    (o.wrong = 3 → o.second = true → Leads (.t1Read a o) s fun t => t.poisoned a = true ∧
      ∃ y d, (t.line a).txn = some y ∧ y.phase = .respond 0 0 d true) ∧
    (o.wrong = 3 → o.second = false → s.downIn j (t1Place a.toNat).2.2.1 (t1Place a.toNat).1 = [] → Leads (.t1Read a o) s fun t =>
      t.fget (rg .jsErr j.val) 31 16 = min (s.fget (rg .jsErr j.val) 31 16 + 1) 65535)) ∧
  (∀ (j : Stack) (ix : Fin 256) (s : State) (e : StripeEntry) (a : LAddr) (d : List W8), s.memOk →
    (s.stack j).stripes[ix.val]? = some e → e.lines = [(a, d)] → d.length = 128 → s.tripped j = false →
    s.atCursor j e.group e.pos = false → 2000 ≤ (s.time (stackDie j) - e.at_).toNat → Leads (.stripeRetire j ix) s fun t =>
      t.peek a.toNat 128 = d ∧ e ∉ (t.stack j).stripes ∧
      ∀ b, b < a.toNat ∨ a.toNat + 128 ≤ b → Memory.read t.mem b = Memory.read s.mem b) ∧
  (∀ (j : Stack) (chan : W8) (s : State), chan.toNat < 0x88 → (s.stack j).failed = [] →
    let declares (P : State → Prop) : Prop := Leads (.jsFailGo j chan) s P ∧ Leads (.channelFaultReport j chan) s P
    (s.fget (rg .jsSpareMap j.val) 7 0 = 0xFF → s.fget (rg .jsRebuild j.val) 35 32 = 0xF → declares fun t =>
      (t.stack j).failed = [⟨chan, some 0, (s.die (stackDie j)).errSeq⟩] ∧ t.fget (rg .jsRebuild j.val) 35 32 = 0 ∧
      t.fget (rg .jsRebuild j.val) 31 24 = chan.toNat ∧ t.fget (rg .jsRebuild j.val) 20 0 = 0 ∧
      t.fget (rg .jsStatus j.val) 12 12 = 1) ∧
    ((∀ i : Fin 8, s.fget (rg .jsSpareMap j.val) (8 * i.val + 7) (8 * i.val) ≠ 0xFF) → declares fun t =>
      (t.stack j).failed = [⟨chan, none, (s.die (stackDie j)).errSeq⟩] ∧ t.fget (rg .jsStatus j.val) 11 11 = 1)) ∧
  (∀ (j : Stack) (s : State), s.fget (rg .jsRebuild j.val) 35 32 < 8 → s.tripped j = false →
    let r := rg .jsRebuild j.val
    let chan : W8 := BitVec.ofNat 8 (s.fget r 31 24)
    let spare := s.fget r 35 32
    (∀ x ∈ s.downIn j (chanGroup chan) (s.fget r 20 0), x = chan) →
    (s.fget r 20 0 + 1 < positions → exec (.rebuildStep j) s = .next (s.fset r 20 0 (s.fget r 20 0 + 1))) ∧
    (positions ≤ s.fget r 20 0 + 1 → (∀ f ∈ (s.stack j).failed, f.chan = chan) → Leads (.rebuildStep j) s fun t =>
      (t.stack j).failed = [] ∧ t.fget (rg .jsSpareMap j.val) (8 * spare + 7) (8 * spare) = chan.toNat ∧
      t.fget r 35 32 = 0xF ∧ t.fget (rg .jsStatus j.val) 12 12 = 0 ∧
      t.ledgerPending.length = s.ledgerPending.length + 1)) ∧
  ∀ (j : Stack) (s : State), s.tripped j = false → s.fget (rg .jsCtl j.val) 23 8 ≠ 0 →
    exec (.patrolScrub j []) s = .next (s.bump (rg .jsStatus j.val) 63 32 1)

/-- The host die: DDR scrub, harts, expanders, inbound requests and the endpoint link. A scrub pass is counted and an uncorrectable
line holds the poison code. A running hart with an uncorrectable error stops and the lowest spare takes its ID; without a spare
the package is degraded. A lost expander is remembered. An inbound request without a translation, or to a hole or PCIe MMIO, is
unsupported. Lines not given back in 1 ms are poisoned. The endpoint link goes up, or down with its engines stopped; perst is
followed where a port is an endpoint. (R413, R461, R465, R469, R474, R496, R498, R667, R714, R739.) -/
def Obligations.HostDieEvents : Prop :=
  (∀ s : State, exec (.ddrPatrolScrub []) s = .next { s with host := { s.host with ddrScrubs := s.host.ddrScrubs + 1 } }) ∧
  (∀ (s : State) (a : LAddr), regionOf a.toNat = .t2 → a.toNat % 128 = 0 → s.tierStatus a.toNat = none →
    Leads (.ddrPatrolScrub [(a, true)]) s fun t => t.poisoned a = true ∧ t.host.ddrScrubs = s.host.ddrScrubs + 1) ∧
  (∀ (h : HartIx) (x : Bool) (s : State), s.hart h = .running →
    (∀ p rest, s.host.spares = p :: rest → Leads (.hartUncorrectableError h x) s fun t =>
      t.hart h = .stopped ∧ Tbl.get 0 t.host.phys h.val = p ∧ t.host.spares = rest) ∧
    (s.host.spares = [] → Leads (.hartUncorrectableError h x) s fun t =>
      t.hart h = .stopped ∧ t.host.phys = s.host.phys ∧ t.fget (rg .errStatus) 5 5 = 1)) ∧
  (∀ (p : Port) (s : State), Leads (.expanderLinkLost p) s fun t => p ∈ t.host.lostPorts ∧
    ∀ q ∈ s.host.lostPorts, q ∈ t.host.lostPorts) ∧
  (∀ (p : Port) (q : InboundReq) (s : State), q.pa = none →
    exec (.inboundRequest p q) s = .next (s.emit (.pcieUnsupported p))) ∧
  (∀ (p : Port) (q : InboundReq) (a : PAddr) (s : State), q.pa = some a →
    (regionOf (PAddr.loc a).toNat = .hole ∨ regionOf (PAddr.loc a).toNat = .mmio →
      exec (.inboundRequest p q) s = .next (s.emit (.pcieUnsupported p))) ∧
    (q.write = none → (regionOf (PAddr.loc a).toNat).coherent = true → ∀ u ds,
      s.gather (.port p) .normal (physPieces a q.length) = (u, .ok ds) →
      exec (.inboundRequest p q) s = .next (u.emit (.pcieData p ds false))) ∧
    ∀ d, q.write = some d → (regionOf (PAddr.loc a).toNat).coherent = true → ∀ u,
      s.scatter (.port p) .normal (physPieces a d.length) d = (u, none) → exec (.inboundRequest p q) s = .next u) ∧
  (∀ s : State, s.host.flushing ≠ [] → 1000000 ≤ (s.time hd - s.host.flushAt).toNat → Leads .hostFlushTimeout s fun t =>
    t.host.flushing = [] ∧ ∀ a ∈ s.host.flushing, (t.line a).owner = none ∧
      (regionOf a.toNat = .t1 ∨ regionOf a.toNat = .t2 ∨ regionOf a.toNat = .t3 → t.poisoned a = true)) ∧
  ∀ (s : State) (p : Port), s.epPort = some p →
    (s.host.epReady = true → exec .epLinkRetrain s = .next { s with host := { s.host with epUp := true } }) ∧
    (Leads .epLinkDown s fun t => t.host.epUp = false ∧
      ∀ e : CopyEng, 32 ≤ e.val → s.cePort e = p → (t.ce e).stopped = true) ∧
    (Leads .perstNAssert s fun t => t.pins.perst = true ∧ t.host.epReady = false ∧ t.host.epUp = false) ∧
    Leads .perstNRelease s fun t => t.pins.perst = false ∧ t.host.epReady = true

/-- Copy engines: doorbells, fetching, moving and ending descriptors. A doorbell ahead of the next count allows fetching up to its
count; any other is only noted. A fetched descriptor is in flight and is valid when its tag is right; the 16th wrong refetch
ends it with 0x04 and faults the ring. A descriptor starts, then each command moves its next segment: copied, filled, or
decrypted where the tag is right. A settled descriptor leaves and the completed count follows it. A reset empties the ring and
takes start_count. A missing completion fails its segment with 0x16. (R481, R482, R484, R485, R487, R488, R489, R493, R494,
R495, R499.) -/
def Obligations.CopyEngineRings : Prop :=
  (∀ (e : CopyEng) (n : W16) (s : State),
    let r := rg .ceStatus e.val
    let ahead := (n - BitVec.ofNat 16 (s.fget r 15 0)).toNat
    (s.fget (rg .ceCtl e.val) 0 0 = 1 → s.fget r 32 32 = 0 → 0 < ahead → ahead ≤ s.ringSize e →
      exec (.doorbell e n) s = .next (s.setCe e { s.ce e with limit := n })) ∧
    (s.fget (rg .ceCtl e.val) 0 0 = 0 ∨ s.fget r 32 32 = 1 ∨ ahead = 0 ∨ s.ringSize e < ahead →
      exec (.doorbell e n) s = .next (s.fset r 33 33 1))) ∧
  (∀ (e : CopyEng) (s u : State) (ws : List W64),
    let r := rg .ceStatus e.val
    let n : W16 := BitVec.ofNat 16 (s.fget r 15 0)
    s.ceHalted e = false → n ≠ (s.ce e).limit → (s.ce e).flight = [] → s.fetchWords e n = some (u, ws) → u.copy = s.copy →
    Leads (.descriptorFetch e) s fun t => t.fget r 15 0 = (n + 1).toNat ∧ t.fget r 34 34 = 1 ∧
      ∃ d, (t.ce e).flight = [d] ∧ d.count = n ∧ d.words = ws ∧
        d.valid = decide (bits (ws.getD 7 0) 15 0 = n.toNat)) ∧
  (∀ (e : CopyEng) (s u : State) (d : CopyDesc) (ws : List W64), s.ceHalted e = false → (s.ce e).flight = [d] →
    d.valid = false → d.status = none → 1000 ≤ (s.time (ceDie e) - d.at_).toNat → s.fetchWords e d.count = some (u, ws) →
    u.copy = s.copy → Leads (.descriptorRefetch e) s fun t => ∃ x, (t.ce e).flight = [x] ∧ x.words = ws ∧
      x.refetches = d.refetches + 1 ∧ x.valid = decide (bits (ws.getD 7 0) 15 0 = d.count.toNat) ∧
      (x.valid = false → 15 ≤ d.refetches → x.status = some 0x04 ∧ t.fget (rg .ceStatus e.val) 32 32 = 1)) ∧
  (∀ (e : CopyEng) (s : State) (d : CopyDesc), (s.ce e).flight.find? (·.count = d.count) = some d → d.valid = true →
    d.status = none →
    let starts (i : Instr) : Prop := d.started = false → d.slotEn = false → (d.w 0).getLsbD 12 = false →
      exec i s = .next (s.setDesc e { d with started := true })
    let next (i : Nat) : Prop := d.started = true ∧
      (List.range d.segs).find? (fun i => !d.okSegs.contains i && !d.badSegs.contains i) = some i
    let n (i : Nat) := min d.seg (d.len - i * d.seg)
    let src (i : Nat) : W64 := d.w 1 + BitVec.ofNat 64 (i * d.seg)
    let dst (i : Nat) : W64 := d.w 2 + BitVec.ofNat 64 (i * d.seg)
    let rh := hint2 (bits (d.w 0) 9 8)
    let wh := hint2 (bits (d.w 0) 11 10)
    (d.op = 1 → starts (.copy e d.count) ∧ ∀ i u bs v x, next i → s.ceRead e d.srcSpace (src i) (n i) rh = .ok u bs →
      u.ceWrite e d.dstSpace (dst i) bs wh = .ok v x → exec (.copy e d.count) s = .next (v.setDesc e (d.okSegsAdd [i]))) ∧
    (d.op = 3 → starts (.fillPattern e d.count) ∧ ∀ i v x, next i → s.ceWrite e d.dstSpace (dst i)
      ((List.range (n i)).map fun j => (leBytes 8 (d.w 4).toNat).getD (j % 8) 0) wh = .ok v x →
      exec (.fillPattern e d.count) s = .next (v.setDesc e (d.okSegsAdd [i]))) ∧
    (d.op = 2 → (d.key = none → ∀ i, next i → exec (.copyAndDecrypt e d.count) s =
        .next (s.setDesc e (d.failSegs (List.range d.segs) 0x17))) ∧
      ∀ i key u bs v x, next i → d.key = some key → 0 < d.len → d.len ≤ 65536 →
        s.ceRead e d.srcSpace (d.w 1) (d.len + 16) rh = .ok u bs →
        let plain := Config.gcmOpen key (BitVec.ofNat 96 ((d.w 5).toNat * 2 ^ 32)) [] (bs.take d.len) (bs.drop d.len)
        u.ceWrite e d.dstSpace (d.w 2) (fit d.len (plain.getD [])) wh = .ok v x →
        let d' := { d with tags := d.tags ++ bs.drop d.len }
        let is := d.touched 0 d.len
        exec (.copyAndDecrypt e d.count) s =
          .next (v.setDesc e ((if plain.isNone then d'.failSegs is 0x14 else d').okSegsAdd is))) ∧
    ∀ seg : Fin 64, d.srcSpace = 2 → d.op ≠ 3 → d.started = true → seg.val < d.segs → seg.val ∉ d.okSegs →
      seg.val ∉ d.badSegs → exec (.pcieCompletionTimeout e d.count seg) s = .next (s.setDesc e (d.failSegs [seg.val] 0x16))) ∧
  (∀ (e : CopyEng) (s : State) (d : CopyDesc) (rest : List CopyDesc), (s.ce e).flight = d :: rest → d.settled = true →
    Leads (.descriptorComplete e) s fun t => (t.ce e).flight = rest.filter (·.count ≠ d.count) ∧
      t.fget (rg .ceStatus e.val) 31 16 = (d.count + 1).toNat) ∧
  ∀ (e : CopyEng) (s : State), Leads (.ringReset e) s fun t =>
    let start := s.fget (rg .ceCtl e.val) 31 16
    let r := rg .ceStatus e.val
    (t.ce e).flight = [] ∧ (t.ce e).limit = BitVec.ofNat 16 start ∧ (t.ce e).stopped = false ∧ t.fget r 15 0 = start ∧
    t.fget r 31 16 = start ∧ t.fget r 32 32 = 0

/-- Facet links: flits, lanes, laser feeds, training, routes and hops. On a good link a flit in order raises the next number, a
corrupt one is discarded and a resend asked for; a resend is counted. A lane that loses signal, exceeds its error limits or is
named leaves service, and with no lane left the link has failed; a failed lane that trains returns after 1 s without an error. A
low feed puts every link in reach mode, full feeds back in full mode. Training publishes the far end and finds a miscabled one.
A direct peer is its own detour. A message leaves over a link that carries it; TC0 waits without a token. (R501, R502, R503,
R505, R511, R513, R516, R518, R521.) -/
def Obligations.FacetLinks : Prop :=
  (∀ (k : Link) (s : State) (seq : W32), s.linkGood k = true →
    let l := s.link k
    (seq = l.expect → exec (.flitReceive k seq true) s = .next (s.setLink k { l with expect := l.expect + 1, discard := none }) ∧
      exec (.flitReceive k seq false) s = .next ((s.setLink k { l with discard := some seq }).emit (.linkResend k seq))) ∧
    (∀ ok, seq ≠ l.expect → exec (.flitReceive k seq ok) s = .next (s.setLink k l)) ∧
    exec (.resendRequest k seq) s = .next ((s.bump (rg .linkErr k.val) 15 0 1).emit (.flitsFrom k seq))) ∧
  (∀ (k : Link) (l : Lane) (s : State),
    let r := rg .linkStatus k.val
    let up (s : State) : Nat := s.fget r 1 0
    let fails (i : Instr) : Prop := Leads i s fun t => up t / 2 ^ l.val % 2 = 0 ∧
      up t / 2 ^ (1 - l.val) % 2 = up s / 2 ^ (1 - l.val) % 2 ∧ (up t = 0 → t.fget r 2 2 = 1) ∧
      t.fget (rg .linkErr k.val) 55 48 = min (s.fget (rg .linkErr k.val) 55 48 + 1) 255
    (up s / 2 ^ l.val % 2 = 1 → fails (.laneSignalLoss k l) ∧ fails (.laneFail k (BitVec.ofNat 2 (2 ^ l.val))) ∧
      ∀ u e n, (64 < u ∨ n < e * 5000) → fails (.laneErrorWindow k l u e n)) ∧
    (∀ u e n, u ≤ 64 → e * 5000 ≤ n → exec (.laneErrorWindow k l u e n) s = .next (s.bump (rg .linkErr k.val) 31 16 u)) ∧
    (up s / 2 ^ l.val % 2 = 0 → s.fget (rg .linkCtl k.val) 0 0 = 1 → s.fget r 5 5 = 0 → (s.link k).probation = [] →
      (Leads (.laneRetrainAttempt k l true) s fun t => (t.link k).probation = [(l, s.time (Link.die k))]) ∧
      Leads (.retrain k (BitVec.ofNat 2 (2 ^ l.val))) s fun t => (t.link k).probation = [(l, s.time (Link.die k))]) ∧
    ∀ t0, (s.link k).probation = [(l, t0)] → 1000000000 ≤ (s.time (Link.die k) - t0).toNat → Leads (.laneReturn k l) s fun t =>
      up t / 2 ^ l.val % 2 = 1 ∧ (t.link k).probation = []) ∧
  (∀ (unit : Fin 8) (s : State), (Leads (.laserFeedLow unit false) s fun t => t.laserA.getLsbD unit.val = false ∧
      ∀ k : Link, t.fget (rg .linkCtl k.val) 1 1 = 1) ∧
    (s.laserA ||| BitVec.ofNat 8 (2 ^ unit.val) = 0xFF → s.laserB = 0xFF → s.laserOut = 0 →
      Leads (.laserFeedRestored unit false) s fun t => t.laserA = 0xFF ∧ ∀ k : Link, t.fget (rg .linkCtl k.val) 1 1 = 0 ∧
        (t.link k).switching = ((s.link k).switching || decide (s.fget (rg .linkCtl k.val) 1 1 = 1)))) ∧
  (∀ (k : Link) (s : State), exec (.modeSwitchComplete k) s = .next (s.setLink k { s.link k with switching := false })) ∧
  (∀ (k : Link) (lanes : BitVec 2) (peer v : Vertex) (far d : Nat) (reach : Bool) (s : State),
    s.fget (rg .linkCtl k.val) 0 0 = 1 → s.fget (rg .linkStatus k.val) 5 5 = 0 → s.linkPeer k = some (d, v) →
    Leads (.linkTrainingComplete k lanes peer far reach) s fun t =>
      let r := rg .linkStatus k.val
      t.fget r 1 0 = lanes.toNat ∧ t.fget r 19 8 = peer.toNat ∧ t.fget r 3 3 = (if reach then 1 else 0) ∧
      t.fget r 4 4 = (if v = peer ∧ far = k.val then 0 else 1) ∧
      t.fget r 2 2 = if v = peer ∧ far = k.val ∧ lanes ≠ 0 then 0 else 1) ∧
  (∀ (d c : Nat) (s : State), d < 3 → c < 16 → 2 ≤ s.dimSize d → s.dimSize d ≤ 16 → c < s.dimSize d → c ≠ coord s.vertex d →
    Leads .routeUpdate s fun t => t.via d c = if s.direct (withCoord s.vertex d c) then c
      else if s.via d c = c then s.sparePartner d else s.via d c) ∧
  ∀ (k : Link) (cls : Fin 4) (s : State) (m : OutMsg) (rest : List OutMsg), s.linkGood k = true → (s.link k).switching = false →
    takeFirst (s.leavesOver k cls.val) s.out = some (m, rest) →
    (cls ≠ 0 → exec (.packetHop k cls 0) s = .next { s with out := rest }) ∧
    (cls = 0 → s.fget (rg .fctClassCtl) 48 48 = 0 →
      (s.tc0Lack k ≤ 896 → Leads (.packetHop k cls 0) s fun t => t.out = rest ∧ (t.link k).tc0Spent = s.tc0Lack k + 128) ∧
      (896 < s.tc0Lack k → (s.link k).tc0Waits = false → Leads (.packetHop k cls 0) s fun t => t.out = s.out ∧
        t.fget (rg .linkErr k.val) 47 32 = min (s.fget (rg .linkErr k.val) 47 32 + 1) 65535))

/-- Chord connections: flits, wires and spares. A flit in order raises the next number; a corrupt one is discarded, counted and
asked for again. A first retry of a wire is only charged; the eighth within 1 ms fails it. A failed wire shifts its group onto
the spare, or disables the group whose spare is in use. The end of a remap lets the next go on. (R544, R545, R546, R547.) -/
def Obligations.ChordConnections : Prop :=
  (∀ (d : Die) (n : Fin 6) (s : State) (seq : W32), (s.chd d n).remaps = [] → seq = (s.chd d n).expect →
    (exec (.chordFlitReceive d n seq true) s = .next (s.setChd d n { s.chd d n with expect := (s.chd d n).expect + 1, discard := none })) ∧
    Leads (.chordFlitReceive d n seq false) s fun t => (t.chd d n).expect = seq ∧ (t.chd d n).discard = some seq ∧
      t.out = s.out ++ [.chordResend d n seq] ∧
      t.fget (rg .chdErr d.val n.val) 23 0 = min (s.fget (rg .chdErr d.val n.val) 23 0 + 1) 0xFFFFFF) ∧
  (∀ (d : Die) (n : Fin 6) (grp : Fin 48) (diff : List Nat) (s : State), grp.val < chordGroups d n →
    let wire := 33 * grp.val + worstWire (diff.take 33)
    ((s.chd d n).charges = [] → Leads (.chordResend d n grp diff) s fun t =>
      (t.chd d n).charges = [(wire, s.time d)] ∧ t.regs = s.regs) ∧
    ((s.chd d n).charges = List.replicate 7 (wire, s.time d) → (s.chd d n).disabled = [] → (s.chd d n).spareUsed = [] →
      Leads (.chordResend d n grp diff) s fun t => (t.chd d n).spareUsed = [grp.val] ∧ (t.chd d n).charges = [])) ∧
  (∀ (d : Die) (n : Fin 6) (wire : BitVec 11) (s : State), wire.toNat / 33 < chordGroups d n →
    wire.toNat / 33 ∉ (s.chd d n).disabled →
    let g := wire.toNat / 33
    let st := rg .chdStatus d.val n.val
    (g ∉ (s.chd d n).spareUsed → Leads (.chdFailGo d n wire) s fun t =>
      (t.chd d n).spareUsed = (s.chd d n).spareUsed ++ [g] ∧ (t.chd d n).remaps = (s.chd d n).remaps ++ [g] ∧
      t.fget st 18 18 = 1 ∧ t.ledgerPending.length = s.ledgerPending.length + 1) ∧
    (g ∈ (s.chd d n).spareUsed → Leads (.chdFailGo d n wire) s fun t =>
      (t.chd d n).disabled = (s.chd d n).disabled ++ [g] ∧ t.fget st 19 19 = 1 ∧ t.fget (rg .errStatus) 3 3 = 1)) ∧
  ∀ (d : Die) (n : Fin 6) (s : State), Leads (.chordRemapComplete d n) s fun t => (t.chd d n).remaps = (s.chd d n).remaps.tail ∧
    t.fget (rg .chdStatus d.val n.val) 18 18 = if (s.chd d n).remaps.tail = [] then 0 else 1

/-- Headers, clear-to-send and the hold limit. A tile header matches the oldest posted receive that it fits, and a clear-to-send
goes back; else it is held while fewer than 256 are. A clear-to-send lets the sending port read the tile: one for another vertex
leaves, one for this vertex is kept until it lands; without a route the send fails. A held header older than match_ms leaves the
list, and its sender is told. (R278, R522, R523, R524, R525.) -/
def Obligations.TilesOverFacet : Prop :=
  (∀ (h : TileHeader) (s : State) (i : Nat) (x : Recv),
    let q := s.core h.toLc
    (q.recvs[i]? = some x → x.matches h = true → (∀ j y, j < i → q.recvs[j]? = some y → y.matches h = false) →
      Leads (.tileHeaderArrival h) s fun t => (t.core h.toLc).recvs = q.recvs.set i { x with hdr := some h } ∧
        t.out = s.out ++ [.clearToSend h.fromVertex h.fromLc h.tag]) ∧
    ((∀ y ∈ q.recvs, y.matches h = false) → q.arrivals.length < 256 → Leads (.tileHeaderArrival h) s fun t =>
      (t.core h.toLc).recvs = q.recvs ∧ ∃ y, (t.core h.toLc).arrivals = q.arrivals ++ [y] ∧ y.hdr = h)) ∧
  (∀ (lc : LC) (ix : Nat) (s : State) (x : Send), (s.core lc).sends[ix]? = some x → x.data = none →
    (s.canReach x.vertex = false → Leads (.clearToSend lc ix) s fun t => (t.core lc).sends = (s.core lc).sends.eraseIdx ix) ∧
    ∀ ds, s.canReach x.vertex = true →
      let c : Cx := (s.holds lc x.stream).getD ⟨lc, x.c⟩
      let p := x.desc.tileReads
      (s.viewAs c x.stream).vreads c (p.1 ++ p.2.1 ++ p.2.2) = .ok ds →
      let tile : FacetTile := ⟨(ds.take p.1.length).flatMap id, ((ds.drop p.1.length).take p.2.1.length).flatMap id,
        (ds.drop (p.1.length + p.2.1.length)).flatMap id⟩
      Leads (.clearToSend lc ix) s fun t => t.out = s.out ++ [.tile x.vertex x.cls tile] ∧
        (t.core lc).sends = if x.vertex = s.vertex then (s.core lc).sends.set ix { x with data := some tile }
          else (s.core lc).sends.eraseIdx ix) ∧
  ∀ (lc : LC) (ix : Fin 256) (s : State) (h : Held), (s.core lc).arrivals[ix.val]? = some h →
    let ms := s.fget (rg .fctClassCtl) 47 32
    ms ≠ 0 → 1000000 * ms < (s.time (BDie.die (LC.walkDie lc)) - h.at_).toNat → h.hdr.fromVertex ≠ s.vertex →
    Leads (.headerHoldTimeout lc ix) s fun t => (t.core lc).arrivals = (s.core lc).arrivals.eraseIdx ix.val ∧
      t.out = s.out ++ [.headerFailed h.hdr.fromVertex h.hdr.fromLc h.hdr.tag]

/-- Collectives: arrivals, rounds, what arrives for them, and their end. An arrival at a line of T2 counts in its word 1 and starts
the round at the expected number. A member whose coordinate is not 0 sends its partial up; a barrier of one member is done. A
partial or block with a right CRC is kept, one with a wrong CRC is asked for again. A marker makes a member complete its
snapshot. A finished round raises gen, writes status and the early arrivals, and no longer runs. A failed contribution is
recorded. (R258, R526, R529, R530, R531, R532, R536, R537, R538, R540.) -/
def Obligations.CollectiveRounds : Prop :=
  (∀ (line : LAddr) (s : State), s.memOk → collLine line = true → regionOf line.toNat = .t2 → s.tierStatus line.toNat = none →
    s.poisoned line = false → (s.round line).running = false →
    let w := s.collWord line 1
    let arrived (t : State) : Prop := bits (t.collWord line 1) 31 16 = bits w 31 16 + 1 ∧
      bits (t.collWord line 1) 15 0 = bits w 15 0 ∧ t.collWord line 0 = s.collWord line 0 ∧
      (t.round line).running = decide (max 1 (bits w 15 0) ≤ bits w 31 16 + 1)
    bits w 31 16 + 1 < 65536 → (Leads (.hartArrival (collDie line) line) s arrived) ∧
    ∀ c a, ((List.finRange 192).flatMap ctxsOf).find? (s.arrivalReady line) = some c → (s.ctx c).await = some a →
      (s.ctx c).replayDue = false → Leads (.collectiveArrival line) s fun t => arrived t ∧ (t.ctx c).await = none ∧
        (t.ctx c).pc = (loopEnd (s.ctx c).pc (s.ctx c).loops).2) ∧
  (∀ (line : LAddr) (s : State) (d : Nat) (rest : List Nat),
    let r := s.round line
    let up (u : State) (value : List Blk) (i : Instr) : Prop := Leads i s fun t =>
      (t.round line).begun = true ∧ (t.round line).sentUp = true ∧ (t.round line).value = value ∧
      t.out = u.out ++ [.collective line (s.collPeer d 0) ⟨Fin.ofNat 3 d, Fin.ofNat 16 (coord s.vertex d), false, true,
        BitVec.ofNat 4 (value.foldl (fun m b => max m b.status) r.status), value.map (·.body)⟩]
    r.running = true → r.begun = false → r.done = false → r.ended = false → r.up = 0 → r.sentUp = false → r.partials = [] →
    r.inbox = [] → r.onTree = true → r.dims = d :: rest → coord s.vertex d ≠ 0 → s.stoppedSeq = false → s.collBad r = false →
    (∀ d ∈ r.dims, ∀ c ∈ s.groupPeers d, s.canReach (s.collPeer d c) = true) →
    (r.op = 1 → up s r.value (.barrier line)) ∧ (r.op = 6 → up s r.value (.snapshot line)) ∧
    ∀ u bs, u.rounds = s.rounds → u.vertex = s.vertex → u.stoppedSeq = false →
      (0 < r.length → s.readBlocks line r [0] 0 = some (u, bs) →
        (r.op = 2 → up u bs (.allReduce line)) ∧ (r.op = 3 → up u bs (.reduceScatter line)) ∧ (r.op = 4 → up u bs (.allGather line)) ∧
        (r.op = 5 → r.root = s.vertex → up u bs (.broadcast line))) ∧
      (r.op = 5 → r.root ≠ s.vertex → up s [] (.broadcast line))) ∧
  (∀ (line : LAddr) (s : State),
    let r := s.round line
    r.running = true → r.begun = false → r.done = false → r.ended = false → r.up = 0 → r.sentUp = false → r.partials = [] →
    r.inbox = [] → r.dims = [] → r.op = 1 → s.stoppedSeq = false → s.collBad r = false →
    Leads (.barrier line) s fun t => (t.round line).done = true ∧ (t.round line).status = r.status ∧ t.out = s.out) ∧
  (∀ (line : LAddr) (s : State) (p : Partial) (b : DigestBlock), collLine line = true → (s.round line).running = false →
    ((∀ x ∈ p.chunks, crc32c x.data = x.crc) → Leads (.collectivePartialReceive line p) s fun t =>
      (t.round line).partials = (s.round line).partials ++ [p]) ∧
    (crc32c b.body.data = b.body.crc → Leads (.digestBlockReceive line b) s fun t =>
      (t.round line).inbox = (s.round line).inbox ++ [b]) ∧
    (crc32c b.body.data ≠ b.body.crc → (s.round line).tries = [] → Leads (.digestBlockReceive line b) s fun t =>
      t.out = s.out ++ [.blockResend line (s.collPeer b.dim.val b.coord.val) b.index] ∧
      (t.round line).tries = [((b.dim.val, b.coord.val, b.index), 1)] ∧ (t.round line).inbox = (s.round line).inbox)) ∧
  (∀ (line : LAddr) (s u : State), (s.round line).running = true → (s.round line).op = 6 → (s.round line).sentUp = true →
    (s.round line).done = false → (s.round line).ended = false →
    s.collResult line (bits ((s.round line).w 5) 43 0) (s.snapRecord line) = some (u, 0) → u.rounds = s.rounds →
    Leads (.snapshotMarker line) s fun t => (t.round line).done = true ∧ (t.round line).status = (s.round line).status) ∧
  (∀ (line : LAddr) (s : State), s.memOk → collLine line = true → regionOf line.toNat = .t2 → s.tierStatus line.toNat = none →
    s.poisoned line = false → (s.round line).running = true → (s.round line).done = true → (s.round line).early = 0 →
    Leads (.roundComplete line) s fun t => t.collWord line 0 = s.collWord line 0 + 1 ∧ (t.round line).running = false ∧
      bits (t.collWord line 1) 39 36 = (s.round line).status % 16 ∧ bits (t.collWord line 1) 31 16 = 0 ∧
      ((s.round line).fail = none → t.collWord line 7 = 0)) ∧
  ∀ (v : Vertex) (step : BitVec 4) (block : W32) (s : State), s.errHeld.length < 256 →
    Leads (.contributionFailNotice v step block) s fun t => ∃ e, t.errHeld = s.errHeld ++ [e] ∧ e.cls = 0x0D ∧
      e.count = 1 ∧ e.syndrome = block.setWidth 64

/-- Failed cores, takeovers, checked intervals, screening and planned migration. A core silent for 1 µs is probed; one that does not
answer in 0.6 µs, or whose supply fails, is retired and enters the ledger, and a spare wakes for the one core that it hosted.
The spare takes over once awake, and the takeover ends when its streams have caught up. A parity error sends its stream back to
its commit point. Equal digests agree; a first difference repeats the interval. Screening runs, passes or repeats; a stream of a
core that leaves moves at its commit point. (R563, R564, R565, R567, R587, R588, R590, R592.) -/
def Obligations.FailedCoresAndTakeovers : Prop :=
  (∀ (lc : LC) (s : State), (s.core lc).takeover = none → s.coreUp lc = true → 1000 ≤ (s.now lc - (s.core lc).stepAt).toNat →
    (ctxsOf lc).any (s.busySince · 1000) = true → exec (.heartbeatTimeout lc) s = .next (s.setCore lc { s.core lc with
      takeover := some (.probing (s.now lc)), detectAt := some (s.core lc).stepAt })) ∧
  (∀ (lc : LC) (m : MC) (s : State),
    let d := LC.cdie lc
    let retires (i : Instr) : Prop := (Leads i s fun t => (t.mc d m).role = .retired ∧
        t.ledgerPending.length = s.ledgerPending.length + 1) ∧
      ∀ x, (s.mc d m).hosts = [lc] → (∀ l, (s.core l).takeover ≠ some (.waking m)) →
        (List.finRange 18).find? (fun x => (s.mc d x).role = .spare && x ≠ m) = some x →
        Leads i s fun t => (t.core lc).takeover = some (.waking x) ∧ (t.mc d x).role = .waking
    (s.mc d m).role ≠ .retired → retires (.supplyOutOfRegulation d m) ∧
    ∀ t0, (s.core lc).takeover = some (.probing t0) → 600 ≤ (s.now lc - t0).toNat → s.physOf lc = m → retires (.probeTimeout lc)) ∧
  (∀ (c : Cx) (s : State), (s.ctx c).stream ≠ none → (s.ctx c).replayDue = false → s.coreUp c.lc = true →
    (s.ctx c).replayWhy = none → Leads (.parityError c) s fun t => (t.ctx c).replayDue = true ∧
      t.fget (rg .coreCksCount c.lc.val) 31 16 = min (s.fget (rg .coreCksCount c.lc.val) 31 16 + 1) 65535) ∧
  (∀ (lc : LC) (s : State) (m : MC), (s.core lc).takeover = some (.waking m) → Leads (.spareWakeComplete lc) s fun t =>
    (t.core lc).takeover = some .catching ∧ (t.mc (LC.cdie lc) m).role = .active ∧ (t.mc (LC.cdie lc) m).hosts = [lc] ∧
    t.fget (rg .coreStatus lc.val) 4 0 = m.val ∧ t.fget (rg .coreStatus lc.val) 5 5 = 1) ∧
  (∀ (lc : LC) (s : State), (s.core lc).takeover = some .catching → (∀ c ∈ ctxsOf lc, (s.ctx c).replayDue = false) →
    Leads (.replayCatchUp lc) s fun t => (t.core lc).takeover = none ∧ (t.core lc).detectAt = none) ∧
  (∀ (c : Cx) (s : State) (k : CheckRun) (digest : W64), (s.ctx c).check = some k → s.atCheckPoint c = true → k.agreed = false →
    k.digests = [] →
    (Config.crc64 k.log = digest → Leads (.checkDigestCompare c digest) s fun t =>
      (t.ctx c).check = some { k with agreed := true, runs := 0, digests := [] }) ∧
    (Config.crc64 k.log ≠ digest → k.runs = 0 → Leads (.checkDigestCompare c digest) s fun t => (t.ctx c).replayDue = true ∧
      (t.ctx c).check = some ⟨[], 1, [], false⟩ ∧
      t.fget (rg .errCheckStats) 51 40 = min (s.fget (rg .errCheckStats) 51 40 + 1) 4095)) ∧
  (∀ (d : CDie) (m : MC) (s : State), s.screening ≠ [] → s.fget (rg .errScreen) 11 8 ≠ 0 →
    (∀ x, (s.mc d x).screening = none) → (s.mc d m).leaving = false →
    ((s.mc d m).role = .active ∨ (s.mc d m).role = .spare) → s.imagesUsed d < s.freeSpds d → Leads (.screeningRun d m) s fun t =>
      (t.mc d m).screening = some ((s.mc d m).screenNext % s.screening.length) ∧ t.fget (rg .errScreen) 1 1 = 1) ∧
  (∀ (d : CDie) (m : MC) (s : State) (i : Nat) (p : Screening) (digest : W64), (s.mc d m).screening = some i →
    s.screening[i]? = some p →
    (digest = p.expected → Leads (.screeningResult d m digest) s fun t => (t.mc d m).screening = none ∧
      (t.mc d m).screenNext = (s.mc d m).screenNext + 1 ∧
      t.fget (rg .errScreen) 31 16 = min (s.fget (rg .errScreen) 31 16 + 1) 65535) ∧
    (digest ≠ p.expected → (s.mc d m).screenRuns = 0 → Leads (.screeningResult d m digest) s fun t =>
      (t.mc d m).screening = some i ∧ (t.mc d m).screenRuns = 1 ∧
      t.fget (rg .errScreen) 39 32 = min (s.fget (rg .errScreen) 39 32 + 1) 255)) ∧
  ∀ (c : Cx) (s : State), (s.mc (LC.cdie c.lc) (s.physOf c.lc)).leaving = true → (s.ctx c).stream ≠ none →
    c ∉ (s.mc (LC.cdie c.lc) (s.physOf c.lc)).moved → (s.ctx c).sinceCommit = 0 → (s.ctx c).commit = none →
    (s.ctx c).await = none → Leads (.plannedMigration c) s fun t => (t.ctx c).replayDue = true ∧ (t.ctx c).replayWhy ≠ none

/-- Error records and the defect ledger. With room in its queue the oldest error record is written and the count of records rises;
records that a unit kept then move up. When an append is due, a block of up to 64 pending entries follows the valid blocks in
the flash; only if it verifies do its entries count as stored, else ledger_err is set. (R556, R558, R560, R596, R597, R598.) -/
def Obligations.RecordsAndLedger : Prop :=
  (∀ (s : State) (r : ErrRec) (rest : List ErrRec), s.errHeld = r :: rest → s.errRoom = true →
    Leads .errorRecordWrite s fun t =>
      t.fget (rg .errLogHead) 31 0 = (s.fget (rg .errLogHead) 31 0 + 1) % 2 ^ 32 ∧
      (s.errKept = [] → t.errHeld = rest) ∧
      ∀ k ks, s.errKept = k :: ks → rest.length < 256 → t.errHeld = rest ++ [k] ∧ t.errKept = ks) ∧
  ∀ s : State, s.ledgerPending ≠ [] → s.idFail = false → s.fw.handoff = false → s.flash.active.length < 64 →
    (64 ≤ s.ledgerPending.length ∨ 10000000000 ≤ (s.time hd - s.ledgerSince).toNat) →
    let valid := (readBlocksFrom 0 0 false s.flash.active).1
    let prev := match valid.getLast? with | some b => Config.sha3 (blockSigned b) | none => 0
    let block := deviceBlock valid.length prev (s.ledgerPending.take 64)
    Leads .ledgerAppend s fun t => t.flash.active = valid ++ [block] ∧
      if blockFault block valid.length prev (valid.any fun x => x.getD 6 0 ≠ 0) = none then
        t.led = s.led ++ s.ledgerPending.take 64 ∧ t.ledgerPending = s.ledgerPending.drop 64
      else t.ledgerPending = s.ledgerPending ∧ t.fget (rg .errStatus) 48 48 = 1

/-- Quiescence: entry, wake, enable, disable and tolerance of a unit. An idle unit starts an entry toward its next state; once its
prepare phase has nothing to drain its switch phase begins, and the entry ends in its target, not ready. A wake event gives up
an entry that still prepares, follows one that switches, and starts a wake while the die has domains to spare; the wake ends in
Q0, ready. A core that wakes too slowly is retired. The enable follows its command, a disabled unit starts its shut-down, and a
core with streams waits with its flag set. A tolerance that the state no longer meets wakes the unit. (R602, R604, R605, R607,
R608, R609, R610, R611, R612.) -/
def Obligations.UnitQuiescence : Prop :=
  (∀ (u : Sys2Proof.PUnit) (s : State), s.stoppedSeq = false → s.isWaking u = false → (s.unit u).queued = false →
    (∀ k, s.entering u = false → s.unitEn u = true → s.nextState u = some k → Leads (.quiescenceEntry u) s fun t =>
      t.entering u = true ∧ t.switching u = false ∧ (t.unit u).target = k ∧ t.ustate u = s.ustate u) ∧
    (s.entering u = true → s.switching u = false → s.prepared u = true →
      exec (.quiescenceEntry u) s = .next (s.fset (unitSt u) 5 5 1))) ∧
  (∀ (u : Sys2Proof.PUnit) (s : State), s.entering u = true → s.prepared u = true → (s.unit u).byDisable = false →
    (s.unit u).wakeAfter = false → (s.unit u).target < 5 → Leads (.entryComplete u) s fun t =>
      t.ustate u = (s.unit u).target ∧ t.entering u = false ∧ t.fget (unitSt u) 3 3 = 0 ∧
      (s.ustate u = 0 → t.fget (unitSt u) 47 16 = min (s.fget (unitSt u) 47 16 + 1) 0xFFFFFFFF)) ∧
  (∀ (u : Sys2Proof.PUnit) (s : State), s.stoppedSeq = false → s.unitEn u = true → (208 ≤ u.val → u.val < 224 → s.ustate u < 3) →
    (s.entering u = true → s.switching u = false → (s.unit u).byDisable = false →
      exec (.unitWake u) s = .next (s.fset (unitSt u) 4 4 0)) ∧
    (s.entering u = true → s.switching u = true →
      exec (.unitWake u) s = .next (s.setUnit u { s.unit u with wakeAfter := true })) ∧
    (s.entering u = false → s.isWaking u = false → (s.unit u).queued = false → s.ustate u ≠ 0 →
      let n := PUnit.domains u (s.ustate u)
      (n = 0 ∨ s.powering (PUnit.die u) + n ≤ 4 → Leads (.unitWake u) s fun t => t.isWaking u = true) ∧
      (n ≠ 0 → 4 < s.powering (PUnit.die u) + n →
        exec (.unitWake u) s = .next (s.setUnit u { s.unit u with queued := true })))) ∧
  (∀ (u : Sys2Proof.PUnit) (s : State), s.isWaking u = true → (s.unit u).offAfter = false →
    (∀ v, PUnit.die v = PUnit.die u → (s.unit v).queued = false) → (∀ lc, PUnit.lc u = some lc → (s.core lc).sqHeld = []) →
    Leads (.wakeComplete u) s fun t => t.ustate u = 0 ∧ t.isWaking u = false ∧ t.fget (unitSt u) 3 3 = 1) ∧
  (∀ (lc : LC) (s : State), s.isWaking (LC.unit lc) = true → (s.mc (LC.cdie lc) (s.physOf lc)).role ≠ .retired →
    200 * wakeUnits (s.ustate (LC.unit lc)) ≤ (s.now lc - (s.unit (LC.unit lc)).wakeAt).toNat → Leads (.wakeTimeout lc) s fun t =>
      (t.mc (LC.cdie lc) (s.physOf lc)).role = .retired ∧ t.ledgerPending.length = s.ledgerPending.length + 1) ∧
  (∀ (u : Sys2Proof.PUnit) (s : State),
    (Leads (.unitEnable u) s fun t => t.unitEn u = true ∧ t.fget (unitSt u) 8 8 = 0) ∧
    (s.stoppedSeq = false → s.entering u = true → (s.unit u).byDisable = true →
      Leads (.unitEnable u) s fun t => t.fget (unitSt u) 7 7 = 1) ∧
    (Leads (.unitDisable u) s fun t => t.unitEn u = false) ∧
    (s.stoppedSeq = false → s.fget (unitSt u) 7 7 = 0 → s.isWaking u = false →
      (∀ lc, PUnit.lc u = some lc → (s.core lc).streams ≠ [] → Leads (.unitDisable u) s fun t =>
        t.fget (unitSt u) 8 8 = 1 ∧ t.entering u = s.entering u) ∧
      ((∀ lc, PUnit.lc u = some lc → (s.core lc).streams = []) → s.entering u = false → ∀ k,
        (PUnit.states u).find? (s.ustate u < ·) = some k → Leads (.unitDisable u) s fun t =>
          t.entering u = true ∧ t.fget (unitSt u) 3 3 = 0 ∧ (t.unit u).target = k ∧ (t.unit u).byDisable = true))) ∧
  ∀ (u : Sys2Proof.PUnit) (tol : W32) (s : State),
    (Leads (.tolWrite u tol) s fun t => t.fget (rg .unitCtl u.val) 31 0 = tol.toNat) ∧
    (s.unitEn u = true → s.stoppedSeq = false → s.entering u = false → s.isWaking u = false → (s.unit u).queued = false →
      tol.toNat < wakeUnits (s.ustate u) → s.powering (PUnit.die u) + PUnit.domains u (s.ustate u) ≤ 4 →
      Leads (.tolWrite u tol) s fun t => t.isWaking u = true)

/-- Power capping, power groups, heat and the stop sequence. Above the cap every supply falls by 5 mV to its floor, then gaps lower
the rate, and a cap not met in 1 ms at both floors is shown; below it, without gaps, supplies that are not hot rise. A group
member sends its message, refuses another group's, gives a step of its cap to a partner with less slack, and takes credit and
its share of a shortfall. A die throttles from 95 °C to 92 °C. A trip or a coolant failure stops every core. The release of the
rails loses T1 and the scratchpads; the host halt stops every hart. (R613, R615, R617, R619, R624, R626, R627, R628, R630, R633,
R635, R736.) -/
def Obligations.CapsGroupsHeatAndStops : Prop :=
  (∀ (power mean : BitVec 13) (s : State), s.fw.handoff = false → s.stoppedSeq = false → s.stackHold = false →
    let cap := s.effCap
    let vmax := max 550 (min (s.fget (rg .capCtl) 41 32) 850)
    (Leads (.capEvaluation power mean) s fun t => t.fget (rg .capStatus) 12 0 = mean.toNat ∧
      t.fget (rg .capStatus) 28 16 = cap) ∧
    (cap < power.toNat → (∃ d ∈ cdies, s.supplyFloor d < s.mv d) → Leads (.capEvaluation power mean) s fun t =>
      ∀ d ∈ cdies, t.mv d = max (s.supplyFloor d) (s.mv d - 5)) ∧
    (cap < power.toNat → (∀ d ∈ cdies, s.mv d ≤ s.supplyFloor d) → Leads (.capEvaluation power mean) s fun t =>
      ∀ d ∈ cdies, t.mv d = s.mv d ∧ t.fget (rg .gap d) 32 32 = 1 ∧
        (s.fget (rg .gap d) 32 32 = 1 → t.fget (rg .gap d) 31 0 = max gapFloor (s.fget (rg .gap d) 31 0 - gapStep))) ∧
    (power.toNat < cap → (∀ d ∈ cdies, s.fget (rg .gap d) 32 32 = 0 ∧ s.mv d ≤ max vmax (s.supplyFloor d)) →
      Leads (.capEvaluation power mean) s fun t => ∀ d ∈ cdies,
        t.mv d = if s.hot d then s.mv d else max (s.supplyFloor d) (min vmax (s.mv d + 5))) ∧
    (s.allFloor = true → (∃ u, s.floorSince = some u ∧ 1000000 ≤ (s.time hd - u).toNat) → cap < power.toNat → cap < mean.toNat →
      Leads (.capEvaluation power mean) s fun t => t.fget (rg .capStatus) 32 32 = 1 ∧ t.fget (rg .capStatus) 33 33 = 1 ∧
        t.pins.capUnmet = true)) ∧
  (∀ (s : State), (s.inGroup = false → exec .powerCreditExchange s = .next s) ∧
    ∀ v, s.inGroup = true → s.partner s.shiftPhase = some v → s.shiftTheirs = none →
      let m := s.creditMsg s.slack.2
      let n := s.fget (rg .shiftCtl) 15 8
      Leads .powerCreditExchange s fun t =>
        t.shiftPhase = s.shiftPhase + 1 ∧ t.shiftMine = some (v, m) ∧ t.out = s.out ++ [.powerCredit v m] ∧
        t.fget (rg .shiftStatus) 48 48 = 1 ∧
        (s.fget (rg .monRes n) 63 32 ≠ 0 →
          m.slackNs = BitVec.ofInt 32 ((s.reg (rg .monRSum n)).toInt / s.fget (rg .monRes n) 63 32))) ∧
  (∀ (m : CreditMsg) (s : State),
    (m.refusal = false → s.inGroup = false ∨ s.fget (rg .shiftCtl) 27 16 ≠ m.group.toNat →
      exec (.powerCreditMessage m) s = .next (s.emit (.powerCredit m.vertex ⟨s.vertex, m.group, 0, 0, false, true⟩))) ∧
    (m.refusal = false → s.inGroup = true → s.fget (rg .shiftCtl) 27 16 = m.group.toNat →
      (s.shiftMine = none → exec (.powerCreditMessage m) s = .next { s with shiftTheirs := some m }) ∧
      ∀ mine, s.shiftMine = some (m.vertex, mine) →
        let eff := s.fget (rg .capStatus) 28 16
        if m.slackNs.toNat + 1000 < mine.slackNs.toNat ∧ m.accept = true ∧ s.minW + s.stepW ≤ eff ∧
            m.effCap.toNat + s.stepW ≤ s.maxW then
          Leads (.powerCreditMessage m) s fun t => t.fget (rg .capStatus) 28 16 = eff - s.stepW ∧ t.shiftMine = none ∧
            t.fget (rg .shiftStatus) 15 0 = min (s.fget (rg .shiftStatus) 15 0 + 1) 65535 ∧
            t.out = s.out ++ [.creditGrant m.vertex (BitVec.ofNat 8 s.stepW)]
        else Leads (.powerCreditMessage m) s fun t => t.fget (rg .capStatus) 28 16 = eff ∧ t.shiftMine = none ∧ t.out = s.out) ∧
    ∀ mine, m.refusal = true → s.shiftMine = some (m.vertex, mine) →
      Leads (.powerCreditMessage m) s fun t => t.shiftMine = none ∧ t.fget (rg .shiftStatus) 48 48 = 0) ∧
  (∀ (v : Vertex) (watts : W8) (sum budget members : W32) (low : Bool) (s : State),
    let eff := s.fget (rg .capStatus) 28 16
    let raised (w : Nat) (t : State) : Prop := t.fget (rg .capStatus) 28 16 = max eff (min (eff + w) s.maxW)
    (s.inGroup = true → Leads (.creditArrival v watts) s fun t => raised watts.toNat t ∧ t.out = s.out ++ [.creditAck v]) ∧
    (s.inGroup = false → exec (.creditArrival v watts) s = .next s ∧
      exec (.reconciliation sum budget members low) s = .next (s.emit (.powerSum 0))) ∧
    (s.inGroup = true → members ≠ 0 → sum.toNat < budget.toNat → Leads (.reconciliation sum budget members low) s fun t =>
      t.out = s.out ++ [.powerSum (BitVec.ofNat 32 eff)] ∧
      raised ((budget.toNat - sum.toNat) / members.toNat +
        (if low then (budget.toNat - sum.toNat) % members.toNat else 0)) t)) ∧
  (∀ (d : Die) (tj : W16) (s : State),
    let r := rg .therm d.val
    (380 ≤ tj.toInt → Leads (.thermalSample d tj) s fun t =>
      t.fget r 15 0 = tj.toNat ∧ t.fget r 32 32 = 1 ∧ t.fget r 33 33 = 1) ∧
    (tj.toInt ≤ 368 → Leads (.thermalSample d tj) s fun t => t.fget r 15 0 = tj.toNat ∧ t.fget r 32 32 = 0) ∧
    (368 < tj.toInt → tj.toInt < 380 → Leads (.thermalSample d tj) s fun t =>
      t.fget r 15 0 = tj.toNat ∧ t.fget r 32 32 = s.fget r 32 32) ∧
    (380 ≤ tj.toInt → s.fget r 32 32 = 0 → d.val < 12 → s.fw.handoff = false → s.stoppedSeq = false →
      s.supplyFloor d.val < s.mv d.val → Leads (.thermalSample d tj) s fun t =>
        t.mv d.val = max (s.supplyFloor d.val) (s.mv d.val - 5))) ∧
  (∀ (d : Die) (s : State), Leads (.thermalTrip d) s fun t => t.pins.thermtrip = true ∧ t.stoppedSeq = true ∧
    t.fget (rg .trip) 1 1 = 1 ∧ t.fget (rg .trip) 6 2 = (if s.fget (rg .trip) 1 1 = 0 then d.val else s.fget (rg .trip) 6 2) ∧
    (s.stoppedSeq = false → t.sec.slots = [] ∧ ∀ lc, (t.core lc).halted = true ∧ (t.core lc).passes = [])) ∧
  (∀ (ns : Nat) (s : State), s.pins.pkgReset = false →
    (2000 ≤ ns → Leads (.coolantFail ns) s fun t => t.stoppedSeq = true ∧ t.fget (rg .trip) 0 0 = 1) ∧
    (ns < 500 → exec (.coolantFail ns) s = .next { s with pins := { s.pins with coolantFail := true } })) ∧
  ∀ s : State,
    (s.stoppedSeq = false → exec .stopRailRelease s = .next s ∧ exec .stopHostHalt s = .next s) ∧
    (s.stoppedSeq = true → (Leads .stopRailRelease s fun t => t.pins.vrCd = false ∧ t.pins.vrJs = false ∧ t.ctxs = [] ∧
        ∀ a, Memory.read t.mem a = if regionOf a = .t1 ∨ regionOf a = .window then 0 else Memory.read s.mem a) ∧
      Leads .stopHostHalt s fun t => t.host.selfRefresh = true ∧ (∀ h, t.hart h ≠ .running) ∧ t.mem = s.mem)

/-- Measurements, logs, reports and key slots. While the engine is not busy, a measurement below 4 is refused with result 1 and any
other is extended with the 64 bytes at SEC_ADDR; a program of some bytes enters the program log until that is full; a report
needs an identity and reports its length; a blob loads as its slot allows; a clear empties its slot at once and reports so
unless a descriptor has read the slot, when the engine stays busy. While it is busy a command is held. (R640, R644, R646, R647,
R649, R650, R653, R654, R659.) -/
def Obligations.SecurityEngine : Prop :=
  (∀ (i : BitVec 3) (slot : Fin 64) (s : State), s.fget (rg .secResult) 8 8 = 0 →
    (i.toNat < 4 → exec (.extendMeasurement i) s = .next (s.secDone 0x01 0)) ∧
    (∀ u d, 4 ≤ i.toNat → s.secRead 64 = (u, .ok d) → Leads (.extendMeasurement i) s fun t =>
      t.measure i.toNat = Config.sha3 (digestBytes (u.measure i.toNat) ++ d) ∧
      (∀ j, j ≠ i.toNat → t.measure j = u.measure j) ∧ t.reg (rg .secResult) = 0) ∧
    (s.fget (rg .secArg) 31 0 = 0 → exec .measureProgram s = .next (s.secDone 0x01 0)) ∧
    (∀ u d, s.fget (rg .secArg) 31 0 ≠ 0 → s.secRead (s.fget (rg .secArg) 31 0) = (u, .ok d) →
      Leads .measureProgram s fun t => t.reg (rg .secResult) = 0 ∧
        if u.sec.programs.length < 256 then
          t.sec.programs = u.sec.programs ++ [(Config.sha3 d, BitVec.ofNat 32 (s.fget (rg .secArg) 63 32))]
        else t.sec.programs = u.sec.programs ∧ t.sec.progOver = true) ∧
    (s.idFail = true → exec .issueReport s = .next (s.secDone 0x05 0)) ∧
    (∀ u, s.idFail = false →
      let r := s.signReport s.nonce
      r.1.scatter (.mgmt 0) .normal (physPieces (BitVec.ofNat 56 (s.fget (rg .secAddr) 55 0)) r.2.length) r.2 = (u, none) →
      r.1.sec.reportCount = s.sec.reportCount + 1 ∧ Leads .issueReport s fun t => t.fget (rg .secResult) 7 0 = 0 ∧
        t.fget (rg .secResult) 63 32 = r.2.length % 2 ^ 32 ∧ t.mem = u.mem ∧ t.sec = u.sec) ∧
    (∀ u d, s.secRead 1696 = (u, .ok d) → Leads (.loadBlob slot) s fun t =>
      t.fget (rg .secResult) 7 0 = (u.loadSlot slot.val d).2 ∧ t.sec = (u.loadSlot slot.val d).1.sec ∧
      (u.idFail = true → t.fget (rg .secResult) 7 0 = 5) ∧
      (u.idFail = false → (u.keySlot slot.val).isSome = true → t.fget (rg .secResult) 7 0 = 2 ∧ t.sec = u.sec)) ∧
    Leads (.clearSlot slot) s fun t => t.keySlot slot.val = none ∧ (∀ j, j ≠ slot.val → t.keySlot j = s.keySlot j) ∧
      (s.slotRead slot.val = false → t.reg (rg .secResult) = 0) ∧
      (s.slotRead slot.val = true → t.fget (rg .secResult) 8 8 = 1 ∧ t.sec.clearing = some slot.val)) ∧
  ∀ (i : BitVec 3) (slot : Fin 64) (s : State), s.fget (rg .secResult) 8 8 = 1 →
    let holds (c : Instr) (w : Nat) : Prop :=
      exec c s = .next { s with sec := { s.sec with held := s.sec.held ++ [BitVec.ofNat 64 w] } }
    holds (.extendMeasurement i) (1 + i.toNat * 16) ∧ holds .measureProgram 2 ∧ holds .issueReport 3 ∧
    holds (.loadBlob slot) (4 + slot.val * 256) ∧ holds (.clearSlot slot) (5 + slot.val * 256)

/-- The stages of start-up. Each stage, in its place, does its work and moves to the next, or stops with its error: the boot ROM
checks REFCLK, straps, flash and first stage and measures M0 and M1; the first stage counts the start, compares the identity and
chooses a bank; then ledger, rails, Chord, self-test, core assignment, stack training with T1 zeroed, DDR, Facet and host start,
which measures M3, starts the harts and reports ready. (R137, R462, R550, R552, R559, R644, R660, R669, R671, R672, R674, R676.) -/
def Obligations.StartupStages : Prop :=
  (∀ (b : BootRomInput) (s : State), s.atStage 0 = true →
    let boot := s.fget (rg .bootStraps) 13 12
    let ends := ((List.range 4).filter fun q => s.fget (rg .bootStraps) 11 8 / 2 ^ q % 2 = 1).length
    let clock := 9500 ≤ b.edges ∧ b.edges ≤ 10500 ∧ b.pllLock = true
    (¬clock → exec (.bootRomStage b) s = .next (s.bootError 0x01)) ∧
    (clock → 1 < ends ∨ 2 ≤ boot → exec (.bootRomStage b) s = .next (s.bootError 0x02)) ∧
    (clock → ends ≤ 1 → boot = 0 → b.flashOk = false → exec (.bootRomStage b) s = .next (s.bootError 0x08)) ∧
    (clock → ends ≤ 1 → boot = 0 → b.flashOk = true → b.copyA = false → b.copyB = false →
      exec (.bootRomStage b) s = .next (s.bootError 0x04)) ∧
    (clock → ends ≤ 1 → boot = 1 → s.fw.firstStageLoaded = false → exec (.bootRomStage b) s = .next s) ∧
    (clock → ends ≤ 1 → (boot = 0 ∧ b.flashOk = true ∧ (b.copyA = true ∨ b.copyB = true)) ∨
        (boot = 1 ∧ s.fw.firstStageLoaded = true) → Leads (.bootRomStage b) s fun t => t.fget (rg .bootStatus) 3 0 = 1 ∧
      t.measure 0 = Config.sha3 (digestBytes (s.measure 0) ++ digestBytes Config.bootRomDigest) ∧
      t.measure 1 = Config.sha3 (digestBytes (s.measure 1) ++ digestBytes b.headerDigest))) ∧
  (∀ (b : FirstStageInput) (s : State), s.atStage 1 = true →
    let img (k : Bool) : FwImage := if k then b.bank1 else b.bank0
    let boot := s.flash.bootBank
    (Leads (.firstStage b) s fun t => t.flash.coldStarts = s.flash.coldStarts + 1 ∧ t.flash.dirSeq = s.flash.dirSeq + 1 ∧
      t.fget (rg .bootStatus) 63 32 = (s.flash.coldStarts + 1).toNat ∧
      t.fget (rg .secStatus) 1 0 = if b.idMatches then 1 else 2) ∧
    (∀ k, (k = boot ∧ (img boot).verifies = true) ∨ (k = !boot ∧ (img boot).verifies = false ∧ (img k).verifies = true) →
      Leads (.firstStage b) s fun t => t.fget (rg .bootStatus) 3 0 = 2 ∧
        t.measure 2 = Config.sha3 (digestBytes (s.measure 2) ++ digestBytes (img k).headerDigest) ∧
        t.fget (rg .bootFwStatus) 0 0 = (if k then 1 else 0) ∧ t.fget (rg .bootFwStatus) 1 1 = (if boot then 1 else 0) ∧
        t.fget (rg .secStatus) 63 32 = (img k).svn.toNat ∧ t.sec.reports = []) ∧
    ((img boot).verifies = false → (img !boot).verifies = false → Leads (.firstStage b) s fun t =>
      t.fget (rg .bootStatus) 15 8 = 5 ∧ t.fget (rg .bootStatus) 3 0 = 1)) ∧
  (∀ s : State, s.atStage 2 = true → Leads .ledgerRead s fun t => t.fget (rg .bootStatus) 3 0 = 3 ∧
    t.led = (readBlocksFrom 0 0 false s.flash.active).1.flatMap blockEntries) ∧
  (∀ s : State, s.atStage 3 = true →
    (Leads (.railSequence true) s fun t => t.fget (rg .bootStatus) 3 0 = 4 ∧ t.pins.vrBase = true ∧ t.pins.vrOpt = true ∧
      t.pins.vrJs = true ∧ t.pins.vrCd = true ∧ ∀ d : CDie, (t.die (CDie.die d)).supplyMv = 720) ∧
    (Leads (.railSequence false) s fun t => t.fget (rg .bootStatus) 15 8 = 3 ∧ t.fget (rg .bootStatus) 16 16 = 1 ∧
      t.fget (rg .bootStatus) 3 0 = 3 ∧ t.pins.vrBase = false ∧ t.pins.vrCd = false)) ∧
  (∀ s : State, s.atStage 4 = true → (Leads .chordTraining s fun t => t.fget (rg .bootStatus) 3 0 = 5) ∧
    ((∀ e ∈ s.led, e.cls ≠ 0x06) → Leads .chordTraining s fun t => ∀ (d : Die) (n : Fin 6), n.val < chdConns d.val →
      t.chd d n = {} ∧ t.fget (rg .chdStatus d.val n.val) 11 6 = chordGroups d n)) ∧
  (∀ s : State, s.atStage 5 = true → exec (.selfTest []) s = .next (s.toStage 6) ∧
    ∀ e, (s.led.any fun x => LedgerEntry.resource x = LedgerEntry.resource e) = false → Leads (.selfTest [e]) s fun t =>
      t.fget (rg .bootStatus) 3 0 = 6 ∧
      t.ledgerPending = s.ledgerPending ++ [{ e with source := 2, coldStarts := s.flash.coldStarts }]) ∧
  (∀ s : State, s.atStage 6 = true →
    let good (d : CDie) : List MC := (List.finRange 18).filter fun m => s.coreGood d m && !s.outOfService 2 d.val m.val none
    (Leads .coreAssignment s fun t => t.fget (rg .bootStatus) 3 0 = 7) ∧
    ((∀ d, 16 ≤ (good d).length) → Leads .coreAssignment s fun t => ∀ (d : CDie) (m : MC), (t.mc d m).role =
      if m ∉ good d then .retired else if (good d).idxOf m < 16 then .active else .spare)) ∧
  (∀ s : State, s.atStage 7 = true → Leads .jahelTraining s fun t => t.fget (rg .bootStatus) 3 0 = 8 ∧
    ∀ a, Memory.read t.mem a = if regionOf a = .t1 then 0 else Memory.read s.mem a) ∧
  (∀ (dimms : List (Option Dimm)) (trained : Bool) (s : State), s.atStage 8 = true →
    let chans := (List.range 12).filter fun i => (dimms.getD i none).isSome
    let ds := (List.range 12).filterMap fun i => dimms.getD i none
    (chans ≠ List.range 12 → chans ≠ [0, 2, 4, 6, 8, 10] → exec (.ddrTraining dimms trained) s = .next (s.bootError 0x06)) ∧
    (chans = List.range 12 ∨ chans = [0, 2, 4, 6, 8, 10] →
      match ddrSpeed ds, ds.head? with
      | some v, some x => if trained then Leads (.ddrTraining dimms trained) s fun t => t.fget (rg .bootStatus) 3 0 = 9 ∧
            t.host.ddrSpeed = v ∧ t.host.ddrBytes = chans.length * x.perChannel * x.gib * 2 ^ 30 ∧ t.host.selfRefresh = false
          else exec (.ddrTraining dimms trained) s = .next (s.bootError 0x07)
      | _, _ => exec (.ddrTraining dimms trained) s = .next (s.bootError 0x06))) ∧
  (∀ s : State, s.atStage 9 = true → (Leads .facetTraining s fun t => t.fget (rg .bootStatus) 3 0 = 10) ∧
    ((∀ e ∈ s.led ++ s.ledgerPending, e.cls ≠ 0x07) → Leads .facetTraining s fun t => ∀ k : Link,
      let r := rg .linkStatus k.val
      s.fget r 5 5 = 0 → t.fget r 2 2 = if s.fget r 1 0 = 0 ∨ s.fget r 4 4 = 1 then 1 else 0)) ∧
  ∀ (offs : List (W64 × W64 × W64 × W64)) (digest : BitVec 512) (s : State), s.atStage 10 = true →
    (∀ lc, (s.core lc).sqHeld = []) → Leads (.hostStart offs digest) s fun t =>
      t.fget (rg .bootStatus) 3 0 = 15 ∧ t.fget (rg .bootStatus) 4 4 = 1 ∧
      t.measure 3 = Config.sha3 (digestBytes (s.measure 3) ++ digestBytes digest) ∧
      ((∀ e ∈ s.led ++ s.ledgerPending, e.cls ≠ 0x08) → ∀ h, t.hart h = .running)

/-- Resets of the package and its parts, and the firmware switch. A cold reset keeps the flash and PMU_TRIP and sets every other
register to its reset value. A warm reset of a ready package loses T1, the scratchpads, the streams and M3 to M7. A host reset
raises host_epoch and measures M3 anew. A per-core reset leaves the core without streams and contexts; a per-domain reset gives
its result. A lattice reset is known by its number. A firmware switch prepares, hands off into probation, and commits or, on the
watchdog, goes back. (R535, R662, R663, R664, R677, R678, R679, R680, R682, R683, R684, R686.) -/
def Obligations.ResetsAndFirmware : Prop :=
  (∀ (ns : Nat) (straps : BitVec 16) (byPin : Bool) (s : State),
    let cold (i : Instr) (pin : Bool) : Prop := Leads i s fun t => t.pins.pkgReset = pin ∧
      t.fget (rg .bootStatus) 7 5 = (if pin then 1 else 2) ∧ t.mem = [] ∧ t.cores = [] ∧ t.ctxs = [] ∧ t.flash = s.flash ∧
      t.reg (rg .trip) = s.reg (rg .trip) ∧
      ∀ r, r ≠ rg .trip → r ≠ rg .bootStraps → r ≠ rg .bootStatus → t.reg r = r.kind.resetValue
    cold (.packageColdReset byPin) byPin ∧
    (s.pins.pkgReset = false → 10000 ≤ ns → cold (.pkgResetNAssert ns) true) ∧
    (ns < 1000 → exec (.pkgResetNAssert ns) s = .next s) ∧
    (s.pins.pkgReset = true → Leads (.pkgResetNRelease straps) s fun t => t.pins.pkgReset = false ∧
      t.reg (rg .bootStraps) = straps.setWidth 64) ∧
    (s.pins.pkgReset = false → exec (.pkgResetNRelease straps) s = .next s)) ∧
  (∀ (rail : Fin 20) (s : State), s.pins.pkgReset = false → Leads (.railFault rail) s fun t =>
    t.fget (rg .bootStatus) 16 16 = 1 ∧ t.pins.vrBase = false ∧ t.pins.vrCd = false ∧
    if s.fget (rg .bootStatus) 4 4 = 0 ∧ s.fget (rg .bootStatus) 3 0 = 3 then t.fget (rg .bootStatus) 15 8 = 3
    else t.mem = [] ∧ t.ctxs = []) ∧
  (∀ s : State, (s.epPort = none → Leads .refclkLoss s fun t => t.pins.refclkLost = true ∧
      (∀ d : Die, t.fget (rg .cadStatus d.val) 2 2 = 1) ∧ ∀ k : Link, t.fget (rg .linkStatus k.val) 1 0 = 0) ∧
    (s.epPort.isSome = true → Leads .refclkLoss s fun t => t.host.epUp = false)) ∧
  (∀ (byLattice : Bool) (s : State), s.fget (rg .bootStatus) 4 4 = 1 → s.stoppedSeq = false → s.pins.pkgReset = false →
    Leads (.packageWarmReset byLattice) s fun t => t.fget (rg .bootStatus) 7 5 = (if byLattice then 4 else 3) ∧
      t.fget (rg .bootStatus) 3 0 = 7 ∧ t.fget (rg .bootStatus) 4 4 = 0 ∧ t.cores = [] ∧ t.ctxs = [] ∧ t.sec.slots = [] ∧
      (∀ i, t.measure i = if i < 3 then s.measure i else 0) ∧ (∀ d, t.time d = s.time d) ∧ t.led = s.led ∧
      ∀ a, Memory.read t.mem a = if regionOf a = .t1 ∨ regionOf a = .window then 0 else Memory.read s.mem a) ∧
  (∀ (byLattice : Bool) (lc : LC) (target : BitVec 9) (s : State), s.fget (rg .bootStatus) 4 4 = 0 →
    exec (.packageWarmReset byLattice) s = .next s ∧ exec .hostCoreComplexReset s = .next s ∧
    exec (.perCoreReset lc) s = .next s ∧ exec (.perDomainReset target) s = .next s) ∧
  (∀ (lc : LC) (target : BitVec 9) (s : State), s.fget (rg .bootStatus) 4 4 = 1 → s.stoppedSeq = false →
    (Leads .hostCoreComplexReset s fun t => t.fget (rg .secStatus) 31 16 = min (s.fget (rg .secStatus) 31 16 + 1) 65535 ∧
      t.sec.programs = [] ∧ t.sec.weights = [] ∧ (∀ i, 3 < i → t.measure i = 0) ∧ t.mem = s.mem ∧
      (∀ h, s.hart h ≠ .unavailable → t.hart h = .running) ∧
      ((s.fget (rg .bootFwStatus) 0 0 = 1 ↔ s.fw.hostBank = true) →
        t.measure 3 = Config.sha3 (digestBytes 0 ++ digestBytes s.fw.hostDigest))) ∧
    (Leads (.perCoreReset lc) s fun t => (t.core lc).streams = [] ∧ (t.core lc).sb = [] ∧ (t.core lc).oc = [] ∧
      (t.core lc).tlb = [] ∧ ∀ c ∈ ctxsOf lc, t.ctx c = {}) ∧
    let n := target.toNat
    let gives (code : Nat) : Prop := Leads (.perDomainReset target) s fun t => t.fget (rg .bootReset) 39 32 = code
    ((n < 192 ∨ (224 ≤ n ∧ n < 288)) → gives 2) ∧ (360 ≤ n → gives 1) ∧
    (192 ≤ n → n < 208 → gives (if (s.stack (Fin.ofNat 16 (n - 192))).stripes = [] then 0 else 3)) ∧
    (208 ≤ n → n < 224 → Leads (.perDomainReset target) s fun t => t.fget (rg .bootReset) 39 32 = 0 ∧
      ∀ i < 4, t.mscOf (Fin.ofNat 64 (4 * (n - 208) + i)) = []) ∧
    ((288 ≤ n ∧ n < 360) → gives 0) ∧
    (312 ≤ n → n < 360 → Leads (.perDomainReset target) s fun t => t.fget (rg .linkStatus (n - 312)) 1 0 = 0)) ∧
  (∀ (dim : Fin 3) (seq : W16) (s : State),
    (Leads .latticeReset s fun t => t.latticeSeqSent = s.latticeSeqSent + 1 ∧ t.latticeSeen = some (s.latticeSeqSent + 1) ∧
      ∀ d ∈ s.popDims.take 1, .latticeReset d (s.latticeSeqSent + 1) ∈ t.out) ∧
    (s.latticeSeen = some seq → exec (.latticeResetReceive dim seq) s = .next s) ∧
    (s.latticeSeen ≠ some seq → (Leads (.latticeResetReceive dim seq) s fun t => t.latticeSeen = some seq ∧
        ∀ d, (s.popDims.filter fun d => decide (dim.val < d)).head? = some d → .latticeReset d seq ∈ t.out) ∧
      (s.fget (rg .bootCtl) 0 0 = 0 → Leads (.latticeResetReceive dim seq) s fun t => t.fget (rg .bootCtl) 23 8 = seq.toNat ∧
        t.fget (rg .bootStatus) 4 4 = s.fget (rg .bootStatus) 4 4) ∧
      (s.fget (rg .bootCtl) 0 0 = 1 → s.fget (rg .bootStatus) 4 4 = 1 → s.stoppedSeq = false → s.pins.pkgReset = false →
        Leads (.latticeResetReceive dim seq) s fun t => t.fget (rg .bootStatus) 7 5 = 4))) ∧
  ∀ (img : FwImage) (pause : W16) (s : State),
    let r := rg .bootFwStatus
    let result (code : Nat) : Prop := exec (.fwSwitch img) s = .next (s.fset r 15 8 code)
    (s.fget r 3 3 = 1 → result 2) ∧ (s.fget r 3 3 = 0 → img.verifies = false → result 1) ∧
    (s.fget r 3 3 = 0 → img.verifies = true → img.initialises = false → result 3) ∧
    (s.fget r 3 3 = 0 → img.verifies = true → img.initialises = true → Leads (.fwSwitch img) s fun t =>
      t.fget r 3 3 = 1 ∧ t.fw.image = some img) ∧
    (s.fw.image = none → exec (.handoff pause) s = .next s) ∧
    (s.fw.image = some img →
      (s.fw.handoff = false → exec (.handoff pause) s = .next { s with fw := { s.fw with handoff := true } }) ∧
      (s.fw.handoff = true → s.mb.waits = false → s.stoppedSeq = false → Leads (.handoff pause) s fun t =>
        t.fget r 0 0 = 1 - s.fget r 0 0 ∧ t.fget r 2 2 = 1 ∧ t.fget r 31 16 = pause.toNat ∧
        t.fget (rg .secStatus) 63 32 = img.svn.toNat ∧ t.fw.image = none ∧ t.fw.handoff = false ∧
        t.measure 2 = Config.sha3 (digestBytes (s.measure 2) ++ digestBytes img.headerDigest))) ∧
    let commits (i : Instr) : Prop := Leads i s fun t => t.fget r 3 2 = 0 ∧ t.fget r 1 1 = s.fget r 0 0 ∧ t.fget r 15 8 = 0 ∧
      t.flash.bootBank = decide (s.fget r 0 0 = 1)
    let expired : Prop := max 1 (s.fget (rg .bootFwCtl) 31 16) * 1000000000 ≤ (s.time hd - s.fw.probAt).toNat
    (s.fget r 2 2 = 1 → commits .fwCommit) ∧ (s.fget r 2 2 = 1 → expired → commits .probationEnd) ∧
    (¬expired → exec .probationEnd s = .next s) ∧
    (s.fget r 2 2 = 0 → exec .fwCommit s = .next s ∧ exec .watchdogExpiry s = .next s) ∧
    (s.fget r 2 2 = 1 → Leads .watchdogExpiry s fun t => t.fget r 0 0 = 1 - s.fget r 0 0 ∧ t.fget r 3 2 = 0 ∧
      t.fget r 5 5 = 1 ∧ t.flash = s.flash ∧
      t.measure 2 = Config.sha3 (digestBytes (s.measure 2) ++ digestBytes s.fw.oldDigest))

/-- Monitors: arming, windows and samples. Arming waits for a window from now on; arming an armed monitor does nothing. The window
opens at its start time, or at once when that has passed, with the source, the edges and empty bins. A sample of the source
inside the window raises count, sum, minimum, maximum and its bin; a sample of another source changes nothing. At its end a
window publishes its results, and the next opens there with repeat, else the monitor disarms; disarming an open window publishes
it as partial. (R690, R691, R692, R693, R694, R695, R697.) -/
def Obligations.Monitors : Prop :=
  (∀ (m : Mon) (s : State),
    let r := rg .monCtl m.val
    let k := s.mon m
    let now := s.time (Mon.die m)
    let published (t : State) (part : Nat) (stop : W64) : Prop :=
      t.fget (rg .monRes m.val) 15 0 = (s.fget (rg .monRes m.val) 15 0 + 1) % 65536 ∧
      t.fget (rg .monRes m.val) 16 16 = part ∧ t.fget (rg .monRes m.val) 63 32 = k.count % 2 ^ 32 ∧
      t.reg (rg .monRSum m.val) = BitVec.ofInt 64 k.sum ∧ t.reg (rg .monRStart m.val) = k.start ∧
      t.reg (rg .monREnd m.val) = stop ∧ t.reg (rg .monRMinMax m.val) = BitVec.ofInt 32 k.max ++ BitVec.ofInt 32 k.min ∧
      ∀ j < 16, t.reg (rg .monBin m.val j) = BitVec.ofNat 64 (k.bins.getD (2 * j) 0 + k.bins.getD (2 * j + 1) 0 * 2 ^ 32)
    let opens (t : State) (at_ : W64) : Prop := (t.mon m).opened = true ∧ (t.mon m).start = at_ ∧ (t.mon m).count = 0 ∧
      (t.mon m).sum = 0 ∧ (t.mon m).src = (s.reg r).extractLsb' 0 8 ∧ (t.mon m).index = (s.reg r).extractLsb' 8 8 ∧
      (t.mon m).edges = s.monEdges m ∧ (t.mon m).bins = List.replicate 32 0
    (s.fget r 16 16 = 0 → Leads (.monitorArm m) s fun t => t.fget r 16 16 = 1 ∧ (t.mon m).opened = false ∧
      (t.mon m).armAt = now) ∧
    (s.fget r 16 16 = 1 → exec (.monitorArm m) s = .next s) ∧
    (k.opened = false → exec (.monitorDisarm m) s = .next (s.fset r 16 16 0)) ∧
    (k.opened = true → Leads (.monitorDisarm m) s fun t => published t 1 now ∧ t.fget r 16 16 = 0 ∧ t.mon m = {}) ∧
    (s.fget r 16 16 = 1 → k.opened = false →
      let start := s.reg (rg .monStart m.val)
      let at_ := if start.toNat < k.armAt.toNat then k.armAt else start
      (at_.toNat ≤ now.toNat → Leads (.monitorWindowOpen m) s fun t => opens t at_) ∧
      (now.toNat < at_.toNat → exec (.monitorWindowOpen m) s = .next s)) ∧
    (k.opened = true → k.stop.toNat ≤ now.toNat →
      (s.fget r 17 17 = 0 → Leads (.monitorWindowClose m) s fun t => published t 0 k.stop ∧ t.fget r 16 16 = 0 ∧ t.mon m = {}) ∧
      (s.fget r 17 17 = 1 → Leads (.monitorWindowClose m) s fun t => published t 0 k.stop ∧ opens t k.stop)) ∧
    (k.opened = true → now.toNat < k.stop.toNat → exec (.monitorWindowClose m) s = .next s)) ∧
  ∀ (m : Mon) (src : W8) (v : W32) (late : Bool) (s : State),
    let k := s.mon m
    let now := (s.time (Mon.die m)).toNat
    k.opened = true →
    let inside : Prop := now + 2 < k.stop.toNat ∨ (now ≤ k.stop.toNat + 2 ∧ late = false)
    (inside → src ≠ 0 → Mon.source m k.src k.index = src → Leads (.monitorSample m src v late) s fun t =>
      (t.mon m).count = min (k.count + 1) 0xFFFFFFFF ∧ (t.mon m).min = min k.min v.toInt ∧
      (t.mon m).max = max k.max v.toInt ∧ (t.mon m).sum = max (-2 ^ 63) (min (2 ^ 63 - 1) (k.sum + v.toInt)) ∧
      (t.mon m).bins = k.bins.modify ((risingEdges none k.edges).filter fun e => decide (e ≤ v.toInt)).length
        fun n => min (n + 1) 0xFFFFFFFF) ∧
    (inside → src = 0 ∨ Mon.source m k.src k.index ≠ src → exec (.monitorSample m src v late) s = .next s) ∧
    (k.stop.toNat ≤ now + 2 → late = true ∨ k.stop.toNat + 2 < now →
      exec (.monitorSample m src v late) s = .next ((s.monClose m).monCount m src v))

/-- The mailbox, the management bus and the test port. A mailbox command starts while none is in progress, waits during a firmware
handoff, and is ignored while another is. A bad length or argument gives result 2, one not allowed result 4; a command with
input waits for its words, the last of which performs it; one with output gives words that are read one by one. Only the owner
aborts and accesses data; 1 s of silence ends the command with result 6. The bus target takes an address once and gives it back.
A test instruction that needs the reset acts as BYPASS outside it. (R700, R703, R705, R706, R707, R708, R709, R711.) -/
def Obligations.MailboxManagementAndTestPort : Prop :=
  (∀ (p : MbPath) (arg len : BitVec 24) (s : State), s.pins.pkgReset = false →
    let ended (t : State) (code : Nat) : Prop := t.mbBusy = false ∧ t.fget mbSt 15 8 = code
    let idle : Prop := s.mbBusy = false ∧ s.fw.handoff = false
    let row (i : Instr) (op length a : Nat) : Prop :=
      (s.mbBusy = true → p ≠ s.mb.owner ∨ op ≠ 0x3F → exec i s = .next s) ∧
      (s.mbBusy = false → s.fw.handoff = true → Leads i s fun t => t.mbBusy = true ∧ t.mb.owner = p ∧ t.mb.waits = true ∧
        t.mb.op.toNat = op ∧ t.fget mbSt 63 56 = op) ∧
      (idle → mbArgOk op a = false → Leads i s fun t => ended t 2 ∧ t.mb.owner = p) ∧
      (idle → (mbInput op).isNone = true → length = 0 → Leads i s fun t => ended t 2) ∧
      (idle → (mbInput op = some length ∨ ((mbInput op).isNone = true ∧ 1 ≤ length)) → mbArgOk op a = true →
        (s.mbAllowed op a = false → Leads i s fun t => ended t 4) ∧
        (s.mbAllowed op a = true → 0 < length → Leads i s fun t => t.mbBusy = true ∧ t.mb.owner = p ∧
          t.fget mbSt 55 32 = length ∧ t.fget mbSt 26 16 = min 1024 length))
    row (.mbStatus p) 0x01 0 0 ∧ row (.readErrorRecords p arg) 0x02 0 arg.toNat ∧ row (.readMonitor p arg) 0x03 0 arg.toNat ∧
    row (.writeFirmwareImage p len arg) 0x10 len.toNat arg.toNat ∧ row (.switchFirmwareBank p) 0x11 0 0 ∧
    row (.deliverFirstStage p len) 0x12 len.toNat 0 ∧ row (.loadScreeningProgram p len) 0x13 len.toNat 0 ∧
    row (.mbReadLedger p) 0x20 0 0 ∧ row (.mbReport p) 0x21 16 0 ∧ row (.loadKeyBlob p arg) 0x22 424 arg.toNat ∧
    row (.mbCertificates p) 0x23 0 0 ∧ row (.latticeConfiguration p) 0x30 2 0 ∧ row (.laserService p arg) 0x31 0 arg.toNat ∧
    row (.resetCommand p arg) 0x32 0 arg.toNat ∧ row (.mbHdmRange p) 0x33 0 0 ∧ row (.mbAbort p) 0x3F 0 0 ∧
    (s.mbBusy = true → p = s.mb.owner → Leads (.mbAbort p) s fun t => ended t 6) ∧
    (idle →
      (Leads (.mbStatus p) s fun t => t.mbBusy = true ∧ t.fget mbSt 1 1 = 1 ∧
        t.mb.output = halves [s.regView (rg .bootStatus), s.regView (rg .errStatus)]) ∧
      (1 ≤ arg.toNat → arg.toNat ≤ 255 → Leads (.readErrorRecords p arg) s fun t =>
        t.mb.output = (s.errHeld.take arg.toNat).flatMap fun r => bytesWords32 r.bytes) ∧
      (arg.toNat ≤ 255 → Leads (.readMonitor p arg) s fun t => t.mbBusy = true ∧ t.mb.output.length = 42) ∧
      (s.fget (rg .bootFwStatus) 3 3 = 0 → Leads (.switchFirmwareBank p) s fun t => ended t
        (if (Tbl.get (⟨false, false, 0, 0⟩ : FwImage) s.flash.images (decide (s.fget (rg .bootFwStatus) 0 0 = 0))).verifies then 0
          else 3)) ∧
      (Leads (.mbReadLedger p) s fun t =>
        t.mb.output = (readBlocksFrom 0 0 false s.flash.active).1.flatMap bytesWords32) ∧
      (Leads (.mbCertificates p) s fun t => t.mbBusy = true ∧ t.mb.output.head? =
        some (BitVec.ofNat 32 (bytesWords32 s.flash.idCert).length)) ∧
      (arg.toNat ≤ 3 → Leads (.laserService p arg) s fun t => ended t 0 ∧ t.laserOut.getLsbD (arg.toNat % 2) = arg.getLsbD 1) ∧
      (arg = 2 → s.fget (rg .bootStatus) 4 4 = 1 → s.stoppedSeq = false → Leads (.resetCommand p arg) s fun t =>
        t.fget (rg .bootStatus) 7 5 = 3) ∧
      (arg = 1 → Leads (.resetCommand p arg) s fun t => t.fget (rg .bootStatus) 7 5 = 2) ∧
      (Leads (.mbHdmRange p) s fun t => t.mbBusy = true ∧ t.mb.output = match s.host.hdmBase with
        | some a => halves [a.setWidth 64]
        | none => [0xFFFFFFFF, 0xFFFFFFFF]))) ∧
  (∀ (p : MbPath) (w : W32) (s : State), s.pins.pkgReset = false → s.mbBusy = true →
    (p ≠ s.mb.owner → exec (.mbDataWrite p w) s = .next s ∧ exec (.mbDataRead p) s = .next (s.emit (.readData 0))) ∧
    (p = s.mb.owner →
      (s.fget mbSt 26 16 = 0 → s.mb.waits = false → Leads (.mbDataWrite p w) s fun t => t.mbBusy = false ∧
        t.fget mbSt 15 8 = 5 ∧ t.fget mbSt 2 2 = 1) ∧
      (s.fget mbSt 26 16 ≠ 0 → 1 < s.fget mbSt 55 32 → Leads (.mbDataWrite p w) s fun t => t.mb.input = s.mb.input ++ [w] ∧
        t.fget mbSt 55 32 = s.fget mbSt 55 32 - 1 ∧ t.fget mbSt 26 16 = min 1024 (s.fget mbSt 55 32 - 1)) ∧
      (s.fget mbSt 26 16 ≠ 0 → s.fget mbSt 55 32 = 1 → s.mb.op = 0x30 → Leads (.mbDataWrite p w) s fun t =>
        t.mbBusy = false ∧ t.fget mbSt 15 8 = 0 ∧
        t.latticeCfg = some (((s.mb.input ++ [w]).headD 0).extractLsb' 0 24) ∧ t.flash.lattice = t.latticeCfg) ∧
      (∀ x y rest, s.mb.output = x :: y :: rest → Leads (.mbDataRead p) s fun t => t.mb.output = y :: rest ∧
        t.out = s.out ++ [.readData (x.setWidth 64)] ∧ t.mbBusy = true) ∧
      (∀ x, s.mb.output = [x] → Leads (.mbDataRead p) s fun t => t.mbBusy = false ∧ t.fget mbSt 15 8 = 0 ∧
        .readData (x.setWidth 64) ∈ t.out) ∧
      (s.mb.output = [] → Leads (.mbDataRead p) s fun t => t.fget mbSt 3 3 = 1 ∧ t.out = s.out ++ [.readData 0]))) ∧
  (∀ s : State, (s.mbBusy = true → 1000000000 ≤ (s.time hd - s.mb.lastAt).toNat → Leads .mailboxTimeout s fun t =>
      t.mbBusy = false ∧ t.fget mbSt 15 8 = 6) ∧
    (s.mbBusy = false → exec .mailboxTimeout s = .next s)) ∧
  (∀ (addr : BitVec 7) (s : State), s.mgtAnswers = true →
    (s.mgt = .smbus → exec (.setdasa addr) s = .next { s with mgt := .i3c addr } ∧
      exec (.entdaa addr) s = .next { s with mgt := .i3c addr }) ∧
    (s.mgt ≠ .smbus → exec (.setdasa addr) s = .next s ∧ exec (.entdaa addr) s = .next s) ∧
    exec .rstdaa s = .next { s with mgt := .smbus }) ∧
  ∀ s : State,
    let holds (i : Instr) (x : TapInstr) : Prop := exec i s = .next { s with tap := x }
    let inReset (x : TapInstr) : TapInstr := if s.pins.pkgReset then x else .bypass
    holds .tapBypass .bypass ∧ holds .tapIdcode .idcode ∧ holds .tapSamplePreload .samplePreload ∧
    holds .tapExtest (inReset .extest) ∧ holds .tapExtestPulse (inReset .extestPulse) ∧
    holds .tapExtestTrain (inReset .extestTrain) ∧ holds .tapClamp (inReset .clamp) ∧ holds .tapHighz (inReset .highz)

/-- Reads and writes of registers by the types of their fields. A read gives the bits that are not write-only or reserved and clears
the RC fields wholly within it. A write of 8 bytes to a register without an effect of its own sets the RW fields, the RWL fields
unless they are locked, clears W1C bits written with 1, and keeps every RO and RC field; every other register and all memory
stay. An access to a hole or of a wrong size is an access fault; an offset without a register reads as zero. (R14, R15, R16,
R655, R714, R716, R719.) -/
def Obligations.RegisterAccesses : Prop :=
  (∀ (g : Agent) (a : PAddr) (v : W64) (s : State) (r : Reg) (m : W64) (n : Nat), s.agentAccess g a 8 = .reg r m n →
    r.kind ∉ ([.coreCtl, .coreCksCtl, .coreOcCtl, .sqCmd, .lcSnap, .shiftCtl, .unitCtl, .xltResolve, .xltInvVa, .xltInvCmd,
      .tierCntCmd, .tierCharge, .jsCtl, .mscCtl, .mscWays, .ceCtl, .ceDb, .linkCtl, .fctShape, .fctDetour, .fctArrive, .chdCtl,
      .secCmd, .bootReset, .bootFwCtl, .monCtl, .mbCmd, .mbData] : List RegKind) →
    Leads (.registerWrite g a .eight v) s fun t =>
      let within (w x : W64) (ty : List FType) : Prop := w &&& r.kind.maskOf ty = x &&& r.kind.maskOf ty
      within (t.reg r) v [.rw] ∧ within (t.reg r) (if s.locked r then s.reg r else v) [.rwl] ∧
      within (t.reg r) (s.reg r &&& ~~~v) [.w1c] ∧ within (t.reg r) (s.reg r) [.ro, .rc, .wo] ∧
      (∀ r', r' ≠ r → t.reg r' = s.reg r') ∧ t.mem = s.mem ∧ t.out = s.out) ∧
  (∀ (g : Agent) (a : PAddr) (size : AccSize) (s : State) (r : Reg) (m : W64) (n : Nat),
    s.agentAccess g a (AccSize.bytes size) = .reg r m n → r.kind ≠ .mbData → Leads (.rcFieldRead g a size) s fun t =>
      t.out = s.out ++ [.readData ((s.regView r &&& r.kind.readMask &&& m) >>> n)] ∧
      t.reg r = s.reg r &&& ~~~(r.kind.cleared m) ∧ (∀ r', r' ≠ r → t.reg r' = s.reg r') ∧ t.mem = s.mem) ∧
  ∀ (g : Agent) (a : PAddr) (size : AccSize) (v : W64) (s : State),
    (s.agentAccess g a (AccSize.bytes size) = .hole ∨ s.agentAccess g a (AccSize.bytes size) = .badSize →
      exec (.registerWrite g a size v) s = .next (s.emit .accessFault) ∧
      exec (.rcFieldRead g a size) s = .next (s.emit .accessFault)) ∧
    (s.agentAccess g a (AccSize.bytes size) = .nothing → exec (.rcFieldRead g a size) s = .next (s.emit (.readData 0)) ∧
      exec (.registerWrite g a size v) s = .next (if size = .eight then s else s.emit .accessFault)) ∧
    ∀ r m n, s.agentAccess g a 4 = .reg r m n → r.kind ≠ .mbData →
      exec (.registerWrite g a .four v) s = .next (s.emit .accessFault)

/-- Commands of management touch neither cores nor memory. Quiescence entries, wakes, enables and tolerances, the evaluation of the
cap, power credits, thermal samples, the early stages of start-up, firmware commits, monitors, mailbox commands that read or
configure, the management bus and the test port leave every context, every core, every byte of memory and every poisoned line as
it was. (R602, R613, R623, R630, R689, R695, R700, R703, R704.) -/
def Obligations.ManagementLeavesCoresAndMemory : Prop :=
  ∀ (i : Instr) (s t : State), Instr.manages i = true → exec i s = .next t →
    t.mem = s.mem ∧ t.poison = s.poison ∧ t.ctxs = s.ctxs ∧ t.cores = s.cores
end

