-- ==== Sys2Proof/Laws/State.lean ====
section
/-! SUPPORT. The tables of the state and its accessors: what each update changes, and what it leaves. -/

namespace Sys2Proof.Machine

/-! ## Tables -/

@[simp] theorem Tbl.get_nil {κ α : Type} [DecidableEq κ] (d : α) (k : κ) : Tbl.get d ([] : Tbl κ α) k = d := rfl

@[simp] theorem Tbl.get_set_self {κ α : Type} [DecidableEq κ] (d : α) (t : Tbl κ α) (k : κ) (x : α) :
    Tbl.get d (Tbl.set t k x) k = x := by
  induction t with
  | nil => simp [Tbl.set, Tbl.get]
  | cons h t ih =>
    obtain ⟨j, y⟩ := h
    by_cases e : j = k
    · simp [Tbl.set, Tbl.get, e]
    · simp [Tbl.set, Tbl.get, e, ih]

theorem Tbl.get_set_ne {κ α : Type} [DecidableEq κ] (d : α) (t : Tbl κ α) {k j : κ} (x : α) (h : j ≠ k) :
    Tbl.get d (Tbl.set t k x) j = Tbl.get d t j := by
  induction t with
  | nil => simp [Tbl.set, Tbl.get, Ne.symm h]
  | cons e t ih =>
    obtain ⟨i, y⟩ := e
    by_cases hi : i = k
    · subst hi
      simp [Tbl.set, Tbl.get, Ne.symm h]
    · by_cases hj : i = j
      · subst hj
        simp [Tbl.set, Tbl.get, h]
      · simp [Tbl.set, Tbl.get, hi, hj, ih]

/-! ## A table of the state read after it is written -/

section
variable (s : State)

@[simp] theorem State.ctx_setCtx (c : Cx) (k : Context) : (s.setCtx c k).ctx c = k := Tbl.get_set_self ..
theorem State.ctx_setCtx_ne {c c' : Cx} (k : Context) (h : c' ≠ c) : (s.setCtx c k).ctx c' = s.ctx c' := Tbl.get_set_ne _ _ _ h
@[simp] theorem State.core_setCore (l : LC) (k : Core) : (s.setCore l k).core l = k := Tbl.get_set_self ..
theorem State.core_setCore_ne {l l' : LC} (k : Core) (h : l' ≠ l) : (s.setCore l k).core l' = s.core l' := Tbl.get_set_ne _ _ _ h
@[simp] theorem State.die_setDie (d : Die) (k : DieSt) : (s.setDie d k).die d = k := Tbl.get_set_self ..
theorem State.die_setDie_ne {d d' : Die} (k : DieSt) (h : d' ≠ d) : (s.setDie d k).die d' = s.die d' := Tbl.get_set_ne _ _ _ h
@[simp] theorem State.line_setLine (a : LAddr) (k : Line) : (s.setLine a k).line a = k := Tbl.get_set_self ..
theorem State.line_setLine_ne {a a' : LAddr} (k : Line) (h : a' ≠ a) : (s.setLine a k).line a' = s.line a' :=
  Tbl.get_set_ne _ _ _ h
@[simp] theorem State.reg_setReg (r : Reg) (w : W64) : (s.setReg r w).reg r = w := Tbl.get_set_self ..
theorem State.reg_setReg_ne {r r' : Reg} (w : W64) (h : r' ≠ r) : (s.setReg r w).reg r' = s.reg r' := by
  show Tbl.get _ (Tbl.set _ _ _) _ = _
  exact Tbl.get_set_ne _ _ _ h
@[simp] theorem State.link_setLink (k : Link) (l : LinkSt) : (s.setLink k l).link k = l := Tbl.get_set_self ..
@[simp] theorem State.stack_setStack (j : Stack) (k : StackSt) : (s.setStack j k).stack j = k := Tbl.get_set_self ..
@[simp] theorem State.ce_setCe (e : CopyEng) (k : CopySt) : (s.setCe e k).ce e = k := Tbl.get_set_self ..
@[simp] theorem State.round_setRound (a : LAddr) (k : Round) : (s.setRound a k).round a = k := Tbl.get_set_self ..
@[simp] theorem State.chd_setChd (d : Die) (n : Fin 6) (k : ChordSt) : (s.setChd d n k).chd d n = k := Tbl.get_set_self ..
@[simp] theorem State.unit_setUnit (u : PUnit) (k : UnitSt) : (s.setUnit u k).unit u = k := Tbl.get_set_self ..
@[simp] theorem State.mon_setMon (m : Mon) (k : MonSt) : (s.setMon m k).mon m = k := Tbl.get_set_self ..

@[simp] theorem State.ctx_updCtx (c : Cx) (g : Context → Context) : (s.updCtx c g).ctx c = g (s.ctx c) := s.ctx_setCtx c _
theorem State.ctx_updCtx_ne {c c' : Cx} (g : Context → Context) (h : c' ≠ c) : (s.updCtx c g).ctx c' = s.ctx c' :=
  s.ctx_setCtx_ne _ h
@[simp] theorem State.core_updCore (l : LC) (g : Core → Core) : (s.updCore l g).core l = g (s.core l) := s.core_setCore l _
theorem State.core_updCore_ne {l l' : LC} (g : Core → Core) (h : l' ≠ l) : (s.updCore l g).core l' = s.core l' :=
  s.core_setCore_ne _ h

/-! ## One lemma per field that an update leaves -/

@[simp] theorem State.setCtx_mem (c : Cx) (k : Context) : (s.setCtx c k).mem = s.mem := rfl
@[simp] theorem State.setCtx_regs (c : Cx) (k : Context) : (s.setCtx c k).regs = s.regs := rfl
@[simp] theorem State.setCtx_cores (c : Cx) (k : Context) : (s.setCtx c k).cores = s.cores := rfl
@[simp] theorem State.setCtx_cnt (c : Cx) (k : Context) : (s.setCtx c k).cnt = s.cnt := rfl
@[simp] theorem State.setCtx_dies (c : Cx) (k : Context) : (s.setCtx c k).dies = s.dies := rfl
@[simp] theorem State.setCtx_lines (c : Cx) (k : Context) : (s.setCtx c k).lines = s.lines := rfl
@[simp] theorem State.setCtx_pending (c : Cx) (k : Context) : (s.setCtx c k).pending = s.pending := rfl
@[simp] theorem State.setCtx_out (c : Cx) (k : Context) : (s.setCtx c k).out = s.out := rfl
@[simp] theorem State.setCore_mem (l : LC) (k : Core) : (s.setCore l k).mem = s.mem := rfl
@[simp] theorem State.setCore_regs (l : LC) (k : Core) : (s.setCore l k).regs = s.regs := rfl
@[simp] theorem State.setCore_ctxs (l : LC) (k : Core) : (s.setCore l k).ctxs = s.ctxs := rfl
@[simp] theorem State.setCore_cnt (l : LC) (k : Core) : (s.setCore l k).cnt = s.cnt := rfl
@[simp] theorem State.setCore_dies (l : LC) (k : Core) : (s.setCore l k).dies = s.dies := rfl
@[simp] theorem State.setCore_lines (l : LC) (k : Core) : (s.setCore l k).lines = s.lines := rfl
@[simp] theorem State.setCore_pending (l : LC) (k : Core) : (s.setCore l k).pending = s.pending := rfl
@[simp] theorem State.setCore_out (l : LC) (k : Core) : (s.setCore l k).out = s.out := rfl
@[simp] theorem State.setReg_mem (r : Reg) (w : W64) : (s.setReg r w).mem = s.mem := rfl
@[simp] theorem State.setReg_ctxs (r : Reg) (w : W64) : (s.setReg r w).ctxs = s.ctxs := rfl
@[simp] theorem State.setReg_cores (r : Reg) (w : W64) : (s.setReg r w).cores = s.cores := rfl
@[simp] theorem State.setReg_pending (r : Reg) (w : W64) : (s.setReg r w).pending = s.pending := rfl
@[simp] theorem State.setDie_mem (d : Die) (k : DieSt) : (s.setDie d k).mem = s.mem := rfl
@[simp] theorem State.setDie_regs (d : Die) (k : DieSt) : (s.setDie d k).regs = s.regs := rfl
@[simp] theorem State.setDie_ctxs (d : Die) (k : DieSt) : (s.setDie d k).ctxs = s.ctxs := rfl
@[simp] theorem State.setLine_mem (a : LAddr) (k : Line) : (s.setLine a k).mem = s.mem := rfl
@[simp] theorem State.setLine_regs (a : LAddr) (k : Line) : (s.setLine a k).regs = s.regs := rfl
@[simp] theorem State.setLine_ctxs (a : LAddr) (k : Line) : (s.setLine a k).ctxs = s.ctxs := rfl
@[simp] theorem State.setMsc_mem (h : Slice) (k : List MscLine) : (s.setMsc h k).mem = s.mem := rfl
@[simp] theorem State.setMc_mem (d : CDie) (m : MC) (k : McSt) : (s.setMc d m k).mem = s.mem := rfl
@[simp] theorem State.setStack_mem (j : Stack) (k : StackSt) : (s.setStack j k).mem = s.mem := rfl
@[simp] theorem State.setCe_mem (e : CopyEng) (k : CopySt) : (s.setCe e k).mem = s.mem := rfl
@[simp] theorem State.setLink_mem (k : Link) (l : LinkSt) : (s.setLink k l).mem = s.mem := rfl
@[simp] theorem State.setRound_mem (a : LAddr) (k : Round) : (s.setRound a k).mem = s.mem := rfl
@[simp] theorem State.setChd_mem (d : Die) (n : Fin 6) (k : ChordSt) : (s.setChd d n k).mem = s.mem := rfl
@[simp] theorem State.setUnit_mem (u : PUnit) (k : UnitSt) : (s.setUnit u k).mem = s.mem := rfl
@[simp] theorem State.setMon_mem (m : Mon) (k : MonSt) : (s.setMon m k).mem = s.mem := rfl
@[simp] theorem State.updCtx_mem (c : Cx) (g : Context → Context) : (s.updCtx c g).mem = s.mem := rfl
@[simp] theorem State.updCtx_regs (c : Cx) (g : Context → Context) : (s.updCtx c g).regs = s.regs := rfl
@[simp] theorem State.updCtx_cores (c : Cx) (g : Context → Context) : (s.updCtx c g).cores = s.cores := rfl
@[simp] theorem State.updCore_mem (l : LC) (g : Core → Core) : (s.updCore l g).mem = s.mem := rfl
@[simp] theorem State.updCore_regs (l : LC) (g : Core → Core) : (s.updCore l g).regs = s.regs := rfl
@[simp] theorem State.updCore_ctxs (l : LC) (g : Core → Core) : (s.updCore l g).ctxs = s.ctxs := rfl
@[simp] theorem State.updDie_mem (d : Die) (g : DieSt → DieSt) : (s.updDie d g).mem = s.mem := rfl
@[simp] theorem State.fset_mem (r : Reg) (hi lo v : Nat) : (s.fset r hi lo v).mem = s.mem := rfl
@[simp] theorem State.bump_mem (r : Reg) (hi lo n : Nat) : (s.bump r hi lo n).mem = s.mem := rfl
@[simp] theorem State.count_mem (c : Cx) (n : Fin 16) (k : Nat) : (s.count c n k).mem = s.mem := rfl
@[simp] theorem State.count_regs (c : Cx) (n : Fin 16) (k : Nat) : (s.count c n k).regs = s.regs := rfl
@[simp] theorem State.count_ctxs (c : Cx) (n : Fin 16) (k : Nat) : (s.count c n k).ctxs = s.ctxs := rfl
@[simp] theorem State.emit_mem (m : OutMsg) : (s.emit m).mem = s.mem := rfl
@[simp] theorem State.emit_regs (m : OutMsg) : (s.emit m).regs = s.regs := rfl
@[simp] theorem State.drawn_mem : s.drawn.mem = s.mem := rfl
@[simp] theorem State.ledger_mem (e : LedgerEntry) : (s.ledger e).mem = s.mem := by
  unfold State.ledger; split <;> rfl
@[simp] theorem State.msi_mem (a : W64) (d : W32) : (s.msi a d).mem = s.mem := by
  unfold State.msi; split <;> rfl
@[simp] theorem State.logErr_mem (d : Die) (r : ErrRec) : (s.logErr d r).mem = s.mem := by
  simp only [State.logErr]; split
  · rfl
  · split <;> rfl

end

@[simp] theorem Tbl.get_set_ite {κ α : Type} [DecidableEq κ] (d : α) (t : Tbl κ α) (i j : κ) (x : α) :
    Tbl.get d (Tbl.set t i x) j = if j = i then x else Tbl.get d t j := by
  by_cases h : j = i
  · simp [h]
  · simp [h, Tbl.get_set_ne]

end Sys2Proof.Machine
end

