-- ==== Sys2Proof/Laws/Memory.lean ====
section
/-! SUPPORT. The laws of memory: a read after a write, and that every operation keeps the canonical form. -/

namespace Sys2Proof.Machine

/-! ## The canonical form -/

theorem Memory.write_keys {m : List Host.Cell} {a : Nat} {b : W8} {x : Host.Cell} (h : x ∈ Memory.write m a b) :
    x ∈ m ∨ (x = (a, b) ∧ b ≠ Memory.unlisted) := by
  induction m with
  | nil =>
    by_cases hb : b = Memory.unlisted
    · simp [Memory.write, hb] at h
    · simp only [Memory.write, hb, if_false, List.mem_singleton] at h
      exact .inr ⟨h, hb⟩
  | cons e t ih =>
    obtain ⟨k, v⟩ := e
    simp only [Memory.write] at h
    split at h
    · split at h
      · exact .inl h
      · next hb => rcases List.mem_cons.1 h with h | h
                   · exact .inr ⟨h, hb⟩
                   · exact .inl h
    · split at h
      · split at h
        · exact .inl (List.mem_cons_of_mem _ h)
        · next ha hb => rcases List.mem_cons.1 h with h | h
                        · exact .inr ⟨by rw [h, ha], hb⟩
                        · exact .inl (List.mem_cons_of_mem _ h)
      · rcases List.mem_cons.1 h with h | h
        · exact .inl (h ▸ List.mem_cons_self ..)
        · rcases ih h with h | h
          · exact .inl (List.mem_cons_of_mem _ h)
          · exact .inr h

/-- A write keeps the canonical form. -/
theorem Memory.wf_write {m : List Host.Cell} (a : Nat) (b : W8) (h : Memory.wf m) : Memory.wf (Memory.write m a b) := by
  refine ⟨?_, fun x hx => ?_⟩
  · have hp := h.1
    clear h
    induction m with
    | nil => simp only [Memory.write]; split <;> simp
    | cons e t ih =>
      obtain ⟨k, v⟩ := e
      rw [List.pairwise_cons] at hp
      simp only [Memory.write]
      split
      · next hak =>
        split
        · exact List.pairwise_cons.2 hp
        · refine List.pairwise_cons.2 ⟨fun x hx => ?_, List.pairwise_cons.2 hp⟩
          rcases List.mem_cons.1 hx with rfl | hx
          · exact hak
          · exact Nat.lt_trans hak (hp.1 x hx)
      · split
        · split
          · exact hp.2
          · exact List.pairwise_cons.2 hp
        · next h1 h2 =>
          refine List.pairwise_cons.2 ⟨fun x hx => ?_, ih hp.2⟩
          rcases Memory.write_keys hx with hx | ⟨rfl, _⟩
          · exact hp.1 x hx
          · show k < a
            omega
  · rcases Memory.write_keys hx with hx | ⟨rfl, hb⟩
    · exact h.2 x hx
    · exact hb

/-- A write of bytes keeps the canonical form. -/
theorem Memory.wf_writeBytes {m : List Host.Cell} (a : Nat) (bs : List W8) (h : Memory.wf m) :
    Memory.wf (Memory.writeBytes m a bs) := by
  induction bs generalizing m a with
  | nil => exact h
  | cons b t ih => exact ih (a + 1) (Memory.wf_write a b h)

/-- Bytes forgotten keep the canonical form. -/
theorem Memory.wf_filter {m : List Host.Cell} (p : Host.Cell → Bool) (h : Memory.wf m) : Memory.wf (m.filter p) :=
  ⟨h.1.filter _, fun x hx => h.2 x (List.mem_filter.1 hx).1⟩

/-- The memory after reset lists nothing. -/
theorem reset_memory_wf : Memory.wf State.reset.mem := ⟨List.Pairwise.nil, fun _ h => nomatch h⟩

/-- Storing bytes keeps the canonical form. -/
theorem State.poke_wf {s : State} (a : Nat) (bs : List W8) (h : Memory.wf s.mem) : Memory.wf (s.poke a bs).mem :=
  Memory.wf_writeBytes a bs h

/-- Storing a word keeps the canonical form. -/
theorem State.poke64_wf {s : State} (a : Nat) (w : W64) (h : Memory.wf s.mem) : Memory.wf (s.poke64 a w).mem :=
  Memory.wf_writeBytes a _ h

/-- A property of a list that one step keeps is kept by a fold. -/
theorem foldl_keeps {α β : Type} {P : α → Prop} (f : α → β → α) (l : List β) (a : α) (h : P a)
    (hs : ∀ x y, P x → P (f x y)) : P (l.foldl f a) := by
  induction l generalizing a with
  | nil => exact h
  | cons y t ih => exact ih _ (hs a y h)

/-- A write into a scratchpad keeps the canonical form. -/
theorem State.spdWrite_wf {s : State} (a : Nat) (bs : List W8) (h : Memory.wf s.mem) : Memory.wf (s.spdWrite a bs).mem := by
  refine foldl_keeps (P := fun m => Memory.wf m) _ _ _ h fun m i hm => ?_
  split
  · exact hm
  · exact Memory.wf_write _ _ hm

/-! ## Reads after writes -/

/-- An address below every listed one reads as unlisted. -/
theorem Memory.read_below {m : List Host.Cell} {a : Nat} (h : ∀ x ∈ m, a < x.1) : Memory.read m a = Memory.unlisted := by
  induction m with
  | nil => rfl
  | cons e t ih =>
    obtain ⟨k, v⟩ := e
    have : k ≠ a := Nat.ne_of_gt (h (k, v) (List.mem_cons_self ..))
    simp only [Memory.read, this, if_false]
    exact ih fun x hx => h x (List.mem_cons_of_mem _ hx)

/-- A byte written is read; every other byte is left. -/
theorem Memory.read_write {m : List Host.Cell} (h : m.Pairwise fun x y => x.1 < y.1) (a i : Nat) (b : W8) :
    Memory.read (Memory.write m a b) i = if i = a then b else Memory.read m i := by
  induction m with
  | nil =>
    by_cases hb : b = Memory.unlisted
    · by_cases hi : i = a <;> simp [Memory.write, Memory.read, hb, hi]
    · by_cases hi : i = a
      · simp [Memory.write, Memory.read, hb, hi]
      · simp [Memory.write, Memory.read, hb, hi, Ne.symm hi]
  | cons e t ih =>
    obtain ⟨k, v⟩ := e
    rw [List.pairwise_cons] at h
    have hlow : ∀ j, j < k → Memory.read ((k, v) :: t) j = Memory.unlisted := fun j hj => by
      refine Memory.read_below fun x hx => ?_
      rcases List.mem_cons.1 hx with rfl | hx
      · exact hj
      · exact Nat.lt_trans hj (h.1 x hx)
    have htail : Memory.read t k = Memory.unlisted := Memory.read_below h.1
    simp only [Memory.write]
    by_cases h1 : a < k
    · simp only [h1, if_true]
      by_cases hb : b = Memory.unlisted
      · simp only [hb, if_true]
        by_cases hi : i = a
        · simp only [hi, if_true]; exact hlow a h1
        · simp only [hi, if_false]
      · simp only [hb, if_false]
        by_cases hi : i = a
        · simp [Memory.read, hi]
        · conv_lhs => rw [Memory.read]
          simp only [Ne.symm hi, if_false, hi]
    · by_cases h2 : a = k
      · subst h2
        simp only [Nat.lt_irrefl, if_false, if_true]
        by_cases hb : b = Memory.unlisted
        · simp only [hb, if_true]
          by_cases hi : i = a
          · simp only [hi, if_true]; exact htail
          · simp only [hi, if_false, Memory.read, Ne.symm hi]
        · simp only [hb, if_false]
          by_cases hi : i = a
          · simp [Memory.read, hi]
          · simp only [Memory.read, Ne.symm hi, if_false, hi]
      · simp only [h1, h2, if_false]
        by_cases hi : k = i
        · have : i ≠ a := fun e => h2 (by rw [← e, hi])
          simp only [Memory.read, hi, if_true, this, if_false]
        · simp only [Memory.read, hi, if_false]
          exact ih h.2

/-- A byte that a write of bytes does not cover is left. -/
theorem Memory.read_writeBytes_out {m : List Host.Cell} (h : Memory.wf m) (a i : Nat) (bs : List W8)
    (hi : i < a ∨ a + bs.length ≤ i) : Memory.read (Memory.writeBytes m a bs) i = Memory.read m i := by
  induction bs generalizing m a with
  | nil => rfl
  | cons b t ih =>
    have hl : (b :: t).length = t.length + 1 := rfl
    rw [hl] at hi
    have := ih (Memory.wf_write a b h) (a + 1) (by omega)
    simp only [Memory.writeBytes, this, Memory.read_write h.1]
    rw [if_neg (by omega)]

/-- A byte that a write of bytes covers is read. -/
theorem Memory.read_writeBytes_in {m : List Host.Cell} (h : Memory.wf m) (a i : Nat) (bs : List W8) (hi : i < bs.length) :
    Memory.read (Memory.writeBytes m a bs) (a + i) = bs[i] := by
  induction bs generalizing m a i with
  | nil => exact absurd hi (Nat.not_lt_zero _)
  | cons b t ih =>
    cases i with
    | zero =>
      simp only [Memory.writeBytes]
      rw [Memory.read_writeBytes_out (Memory.wf_write a b h) (a + 1) (a + 0) t (by omega), Memory.read_write h.1]
      simp
    | succ i =>
      have := ih (Memory.wf_write a b h) (a + 1) i (Nat.lt_of_succ_lt_succ hi)
      simp only [Memory.writeBytes, List.getElem_cons_succ]
      rw [← this, Nat.add_assoc, Nat.add_comm 1 i]

end Sys2Proof.Machine
end

