-- ==== Sys2Proof/WellFormed.lean ====
section
/-! DEFINITION. Well-formed commands: a DTI instruction whose fields R188 allows, and an event whose operands have the sizes
and alignments that its rule gives them. -/

namespace Sys2Proof

/-- A line address: a multiple of 128 (R360). -/
def lineAligned (a : LAddr) : Bool := a.toNat % 128 = 0

/-- A line's bytes. -/
def lineSized (d : List W8) : Bool := d.length = 128

/-- Whether a command is well formed. -/
def Instr.wf : Instr → Bool
  | .rdOnce _ _ a _ | .rdShared _ a _ | .rdUnique _ a _ => lineAligned a
  | .wrPart _ _ a _ _ d | .wrLine _ _ a _ d => lineAligned a && lineSized d
  | .atomic _ _ a _ dbl _ => a.toNat % (if dbl then 8 else 4) = 0
  | .evict _ a d => lineAligned a && (match d with | some d => lineSized d | none => true)
  | .recall a _ | .acknowledgement a _ | .homeResponse a | .homeTimeout a => lineAligned a
  | .recallResponse a _ d => lineAligned a && (match d with | some d => lineSized d | none => true)
  | .tierLateTimeout a | .tierStallRetry a | .t1Read a _ | .lowerTierResponse a _ => lineAligned a
  | .launch _ d => d.toNat % 64 = 0
  | .collectiveArrival a | .barrier a | .allReduce a | .reduceScatter a | .allGather a | .broadcast a | .snapshot a
  | .collectivePartialReceive a _ | .digestBlockReceive a _ | .roundComplete a | .snapshotMarker a => lineAligned a
  | .chordFlitReceive d n _ _ | .chordResend d n _ _ | .chdFailGo d n _ | .chordRemapComplete d n =>
    n.val < (if d.val < 12 then 1 else if d.val < 16 then 6 else 4)
  | i => i.legal

end Sys2Proof
end

