-- ==== Sys2Proof/Tests/Slice0.lean ====
section
/-! SUPPORT. Tests: ill-formed commands are refused by the check, words written out from the manual's encodings decode to their
instructions, and for each statement concrete states and operands that meet its hypotheses, with the effect on them where it is
quick to compute. Expected values are worked out by hand from the rules named. -/

set_option Elab.async false

namespace Sys2Proof.Tests

open Sys2Proof Sys2Proof.Machine

/-! ## Small states -/

/-- The state that a command answers; the state itself where it answers none. -/
def after (i : Instr) (s : State) : State := s.after (exec i s)

/-- Whether a command answers a state. -/
def gives (i : Instr) (s t : State) : Bool := match exec i s with | .next u => decide (u = t) | _ => false
/-- Whether a step answers a state. -/
def steps (s t : State) : Bool := match step s with | .next u => decide (u = t) | _ => false

/-- Context 0 of logical core 0. -/
abbrev c0 : Cx := ⟨0, 0⟩
/-- The stream that runs in it. -/
def st0 : Stream := { id := 7, st := .running, descAddr := 0, root := 0, saveBase := 0, ringBase := 0, ringLog2 := 0, countAddr := 0,
                      msiAddr := 0, msiData := 0, tierStall := false, ending := false, level := 0 }
/-- A context that issues instructions of that stream. -/
def k0 : Context := { stream := some 7, st := .issuing, pc := 0x100, s := [(1, 5), (2, 9)], a := [(1, 0x80000001000)] }
/-- A cached translation of every address to itself. -/
def tr0 : Trans := { va := 0, size := 2 ^ 57, pa := 0, asid := 0, mode := 0, global := true, perms := 0xFF, pbmt := 0 }
/-- The part with that context running and a context changed further. -/
def on (g : Context → Context) : State :=
  { ctxs := [(c0, g k0)], cores := [(0, { streams := [st0], tlb := [tr0] })] }
/-- The part with that context running. -/
def s0 : State := on id
/-- Fields of scalar instructions: s3 from s1 and s2. -/
def f0 : SForm := { d := 3, x := 1, y := 2 }

/-- A state with a field of a register set. -/
def fld (s : State) (k : RegKind) (hi lo v : Nat) (i : Nat := 0) (j : Nat := 0) : State := s.fset (rg k i j) hi lo v

theorem test_offered : s0.canIssue c0 = true ∧ s0.gate c0 = none ∧ (s0.ctx c0).pred false 0 0 = true := by decide +kernel

/-! ## Ill-formed commands (R188, R360) -/

theorem test_wf_unused_field : (Instr.add c0 { f0 with z := 1 }).wf = false ∧ (Instr.add c0 f0).wf = true := by decide +kernel
theorem test_wf_predicate : (Instr.add c0 { f0 with pn := true, pg := 0 }).wf = false := by decide +kernel
theorem test_wf_shift : (Instr.slli c0 { d := 1, x := 2, imm34 := 64 }).wf = false ∧
    (Instr.slli c0 { d := 1, x := 2, imm34 := 63 }).wf = true := by decide +kernel
theorem test_wf_line : (Instr.rdShared (.ctx c0) 0x40 .normal).wf = false ∧ (Instr.rdShared (.ctx c0) 0x80 .normal).wf = true := by
  decide +kernel
theorem test_wf_line_bytes : (Instr.wrLine (.ctx c0) 0 0 .normal []).wf = false ∧
    (Instr.wrLine (.ctx c0) 0 0 .normal (List.replicate 128 0)).wf = true := by decide +kernel
theorem test_wf_atomic : (Instr.atomic (.ctx c0) 0 4 .add true 0).wf = false ∧ (Instr.atomic (.ctx c0) 0 4 .add false 0).wf = true := by
  decide +kernel
theorem test_wf_evict : (Instr.evict (.ctx c0) 0 (some [])).wf = false ∧ (Instr.evict (.ctx c0) 0 none).wf = true := by
  decide +kernel
theorem test_wf_recall : (Instr.recallResponse 0 (.ctx c0) (some [1])).wf = false := by decide +kernel
theorem test_wf_launch : (Instr.launch 0 0x20).wf = false ∧ (Instr.launch 0 0x40).wf = true := by decide +kernel
theorem test_wf_chord : (Instr.chordRemapComplete 0 1).wf = false ∧ (Instr.chordRemapComplete 0 0).wf = true ∧
    (Instr.chordRemapComplete 16 4).wf = false := by decide +kernel
theorem test_wf_mform : (Instr.st c0 { d := 1, a := 1, size := 0xF }).wf = false := by decide +kernel
theorem test_wf_tform : (Instr.fctRecv c0 { pn := true }).wf = false := by decide +kernel
theorem test_wf_bform : (Instr.beq c0 { pn := true }).wf = false := by decide +kernel

/-! ## Words written out from the encodings of R186 and the opcode tables -/

/-- commit: major 0x48, mask in [31:0] (R263). -/
theorem test_decode_commit : (decodeDti c0 0x48000000000000FF).bind dtiWord = some 0x48000000000000FF ∧
    decodeDti c0 0x48000000000000FF = some (.commit c0 { imm34 := 0xFF }) := by decide +kernel
/-- add: s3 := s1 + s2, every lane true: major 0x01, minor 0x00, d = 3, x = 1, y = 2 (R228). -/
theorem test_decode_add : decodeDti c0 0x0100018440000000 = some (.add c0 f0) := by decide +kernel
/-- addi: s1 := s2 − 1 (R229): the immediate is 34 bits of ones. -/
theorem test_decode_addi : decodeDti c0 0x0200008BFFFFFFFF = some (.addi c0 { d := 1, x := 2, imm34 := 0x3FFFFFFFF }) := by
  decide +kernel
/-- beq: target offset 1 instruction (R261). -/
theorem test_decode_beq : decodeDti c0 0x4000088000000001 = some (.beq c0 { x := 1, y := 2, off38 := 1 }) := by
  decide +kernel
theorem test_decode_mm_pass : ((decodeDti c0 0x5100210100000800).map fun i => match i with | .mmPass _ _ => true | _ => false) = some true := by
  decide +kernel
theorem test_decode_chain_ld : ((decodeDti c0 0x4900000040000000).map fun i => match i with | .chainLd _ _ => true | _ => false) = some true := by
  decide +kernel
/-- Major 0xFF is no opcode. -/
theorem test_decode_refused : decodeDti c0 0xFF00000000000000 = none := by decide +kernel
/-- A field that add leaves unused is nonzero: the word is refused (R188). -/
theorem test_decode_unused : decodeDti c0 0x0100018441000000 = none := by decide +kernel
/-- No row of the opcode table gives bits. -/
theorem test_table_words : decodeTableWord 64 0x0100018440000000 = none ∧ (State.reset.withFetchWord 64 0).pending = [] := by
  decide +kernel

/-! ## Witnesses: the queue, memory, decoding, exceptions -/

theorem wit_step_front : steps { s0 with pending := [.tapBypass, .tapIdcode] } { s0 with pending := [.tapIdcode], tap := .bypass } = true ∧
    s0.pending = [] ∧ steps s0 s0 = true := by decide +kernel
theorem wit_memory_canonical : State.memOk { pending := [.tapBypass], mem := [(5, 1)] } ∧
    steps { pending := [.tapBypass], mem := [(5, 1)] } { mem := [(5, 1)], tap := .bypass } = true := by
  unfold State.memOk; decide +kernel
theorem wit_word_decodes : dtiWord (.add c0 f0) = some 0x0100018440000000 ∧ Instr.cx (.add c0 f0) = some c0 ∧
    (Instr.add c0 f0).legal = true := by decide +kernel
theorem wit_illegal : dtiWord (.add c0 { f0 with z := 1 }) = some 0x0100018441000000 ∧
    (Instr.add c0 { f0 with z := 1 }).legal = false ∧ decodeDti c0 0xFF00000000000000 = none ∧ s0.canIssue c0 = true ∧
    s0.gate c0 = none ∧ ((after (.illegalInstruction c0 0xFF00000000000000) s0).ctx c0).st = .stopped := by decide +kernel
/-- add under p1, which is false in lane 0. -/
theorem wit_false_predicate : (Instr.add c0 { f0 with pg := 1 }).legal = true ∧ Instr.laned (.add c0 { f0 with pg := 1 }) = false ∧
    (s0.ctx c0).pred false 1 0 = false ∧ (dtiWord (.add c0 { f0 with pg := 1 })).map wordPg = some 1 ∧
    gives (.add c0 { f0 with pg := 1 }) s0 (s0.finished c0) = true := by decide +kernel
/-- No stream at reset; an empty step of the pacer. -/
theorem wit_waits_its_turn : State.reset.canIssue c0 = false ∧
    (let s := s0.updCore 0 fun k => { k with empty := true }
     s.canIssue c0 = true ∧ s.gate c0 = some .pace ∧ gives (.add c0 f0) s (s.waits c0 .pace) = true) ∧
    (let s := s0.updCore 0 fun k => { k with slot := some 1 }
     s.gate c0 = some .issue ∧ (Instr.writes (.add c0 f0)).isSome ∧ gives (.add c0 f0) s (s.waits c0 .issue) = true) := by decide +kernel
theorem wit_exception : (s0.ctx c0).stream = some 7 ∧ (s0.core 0).stream 7 = some st0 ∧
    ((s0.raise c0 .brk 0x100 0 0).ctx c0).st = .stopped := by decide +kernel
theorem wit_register_frame : Instr.writes (.add c0 f0) = some ⟨c0, .s 3, false, false⟩ ∧
    gives (.add c0 f0) s0 (after (.add c0 f0) s0) = true := by decide +kernel

/-! ## Witnesses: scalar and vector instructions -/

/-- s3 after an instruction. -/
def res (i : Instr) : W64 := ((after i s0).ctx c0).sget 3
/-- The forms of every row of a major opcode are allowed with some fields. -/
theorem wit_scalar_legal : (∀ m ∈ List.range 17, f0.legal 0x01 m = true) ∧ ({ d := 3, x := 1 } : SForm).legal 0x01 0x20 = true ∧
    ({ d := 3, x := 1 } : SForm).legal 0x01 0x21 = true ∧ f0.legal 0x01 0x22 = true := by decide +kernel
theorem test_scalar_values : res (.add c0 f0) = 14 ∧ res (.sub c0 f0) = 0xFFFFFFFFFFFFFFFC ∧ res (.mul c0 f0) = 45 ∧
    res (.divu c0 f0) = 0 ∧ res (.remu c0 f0) = 5 ∧ res (.sll c0 f0) = 2560 ∧ res (.slt c0 f0) = 1 ∧ res (.min c0 f0) = 5 := by
  decide +kernel
theorem wit_immediate_legal : (∀ m ∈ [0, 1, 2, 3, 4, 5, 6], ({ d := 3, x := 1, imm34 := 63 } : IForm).legal 0x02 m = true) ∧
    (∀ m ∈ [7, 8], ({ d := 3, imm34 := 63 } : IForm).legal 0x02 m = true) ∧
    ({ d := 3, x := 1, imm34 := 1 } : IForm).legal 0x02 9 = true := by decide +kernel
theorem test_immediate_values : res (.addi c0 { d := 3, x := 1, imm34 := 0x3FFFFFFFF }) = 4 ∧
    res (.andi c0 { d := 3, x := 1, imm34 := 0x3FFFFFFFC }) = 4 ∧ res (.lui c0 { d := 3, imm34 := 1 }) = 0x40000000 ∧
    res (.slli c0 { d := 3, x := 1, imm34 := 63 }) = 0x8000000000000000 := by decide +kernel
theorem wit_fp32_legal : (∀ m ∈ [0, 1, 2, 4, 6, 7, 0xA, 0xB, 0xC], f0.legal 0x03 m = true) ∧ f0.legal 0x03 3 = true ∧
    ∀ m ∈ [5, 8, 9], ({ d := 3, x := 1 } : SForm).legal 0x03 m = true := by decide +kernel
/-- 1 + 2 = 3, 1 − 2 = −1, 1 / 2, the square root of 4; values written out as binary32. -/
theorem test_fp32_values : fAdd 0x3F800000 0x40000000 = (0x40400000, 0) ∧ fAdd 0x3F800000 0xC0000000 = (0xBF800000, 0) ∧
    fDiv 0x3F800000 0x40000000 = (0x3F000000, 0) ∧ fSqrt 0x40800000 = (0x40000000, 0) ∧ fMul 0x40400000 0x40000000 = (0x40C00000, 0) ∧
    (fFromInt 5).1 = 0x40A00000 ∧ (fToInt 0xC0A00000).1 = 0xFFFFFFFFFFFFFFFB := by decide +kernel
theorem wit_integer_sums : ((2 : Int) ^ 23).natAbs ≤ 2 ^ 23 ∧ ((2 : Int) ^ 11).natAbs ≤ 2 ^ 11 ∧ (2 : Int) ^ 11 ≠ 0 ∧
    fAdd (fFromInt (BitVec.ofInt 64 (2 ^ 23))).1 (fFromInt (BitVec.ofInt 64 (2 ^ 23))).1 = ((fFromInt (BitVec.ofInt 64 (2 ^ 24))).1, 0) ∧
    fMul (fFromInt (BitVec.ofInt 64 (2 ^ 11))).1 (fFromInt (BitVec.ofInt 64 (-2 ^ 11))).1 =
      ((fFromInt (BitVec.ofInt 64 (-2 ^ 22))).1, 0) := by decide +kernel
theorem wit_status_legal : ({ d := 3 } : IForm).legal 8 0 = true ∧ ({ imm34 := 0x7F } : IForm).legal 8 1 = true ∧
    ({ x := 1 } : IForm).legal 8 2 = true ∧ ({ d := 3 } : IForm).legal 8 3 = true ∧ ({ d := 3 } : IForm).legal 8 4 = true ∧
    (s0.ctx c0).replayNext = none ∧ (s0.jCounts c0).1 < 191 ∧ ((after (.srseed c0 { x := 5 }) s0).ctx c0).srstate = 1 := by
  decide +kernel
theorem wit_vector_legal : (∀ m ∈ [0, 1, 2, 5, 9, 0xA], f0.legal 0x10 m = true ∧ { f0 with mod := 0x10 }.legal 0x10 m = true) ∧
    (∀ m ∈ [3, 4, 0xF], f0.legal 0x10 m = true) ∧
    (∀ m ∈ [6, 7, 8, 0xB, 0xC, 0xD, 0xE], ({ d := 3, x := 1 } : SForm).legal 0x10 m = true) ∧
    (∀ m ∈ [0x10, 0x11], ({ d := 3, x := 1, imm16 := 511 } : SForm).legal 0x10 m = true) := by decide +kernel
/-- 1 + 2 in lane 511 of v3. -/
theorem test_vadd : ((after (.vadd c0 f0) (on fun k => { k with
    v := [(1, List.replicate 512 0x3F800000), (2, List.replicate 512 0x40000000)] })).ctx c0).vlane 3 511 = 0x40400000 := by
  decide +kernel
theorem wit_lane_predicates : k0.pred false 0 511 = true ∧ k0.pred true 0 511 = false ∧ (4 : BitVec 5) ≠ 3 ∧
    ∀ i < 512, ((0, 1) : W32 × W32).2 &&& ~~~(1 : W32) = 0 ∨ i = 0 := by decide +kernel
theorem wit_reduction_legal : (∀ m ∈ [0, 1, 2, 3], ∀ q ∈ [0, 0x10, 0x20], ({ d := 3, x := 1, mod := q } : SForm).legal 0x11 m = true) ∧
    ∀ m ∈ List.range 10, ({ d := 3, x := 1 } : SForm).legal 0x12 m = true := by decide +kernel
theorem wit_conversion_legal : ({ d := 3, x := 1, imm16 := 2 } : SForm).legal 0x13 0 = true ∧
    ({ d := 3, x := 1, y := 2, imm16 := 0x10, mod := 0xD } : SForm).legal 0x13 0 = true ∧
    ({ d := 3, x := 1, imm16 := 2 } : SForm).legal 0x13 1 = true ∧ (∀ m ∈ List.range 7, f0.legal 0x14 m = true) ∧
    ∀ m ∈ [7, 8], ({ d := 3, x := 1 } : SForm).legal 0x14 m = true := by decide +kernel

/-! ## Witnesses: loads, stores, requests, copies -/

/-- Whether a load finds all its bytes at hand. -/
def loads (s : State) (va : W64) (ps : List (Nat × Nat)) : Bool := match s.load c0 va ps .normal with | .ok _ _ => true | _ => false
/-- Whether an access lies in one part of one line. -/
def onePart (s : State) (va : W64) (acc : Acc) (n : Nat) : Bool := match s.plan c0 va acc [(0, n)] with | .ok ([_], _) => true | _ => false
/-- Whether the parts of a store are translated and find room. -/
def roomFor (s : State) (va : W64) (n : Nat) (ps : List (Nat × Nat)) (bs : List W8) (tag : WriteTag) : Bool :=
  match s.storePlan c0 va n ps with
  | .ok x => (s.storeParts c0 va x bs .normal tag).isSome
  | .error _ => false
/-- The context with an address in a1 and fields that use it. -/
def ata (a : W64) : State := on fun k => { k with a := [(1, a)] }
/-- Fields of memory instructions: s3, v3 or t3, address a1. -/
def m0 : MForm := { d := 3, a := 1 }
/-- An address in the own scratchpad, and one in T1. -/
def own : W64 := 0x80000001000
/-- Memory with the byte 0x85 at the own address. -/
def s1 : State := { ata own with mem := [(0x80000001000, 0x85)] }

theorem wit_load_own : (s1.ctx c0).ea m0 = own ∧ s1.deviceAt c0 own 8 0 = none ∧ loads s1 own [(0, 8)] = true ∧
    m0.legal 0x20 0 = true ∧ m0.legal 0x20 1 = true ∧ { m0 with size := 3 }.legal 0x20 0 = true := by decide +kernel
theorem test_ld : ((after (.ld c0 m0) s1).ctx c0).sget 3 = 0x85 ∧ ((after (.lds c0 m0) s1).ctx c0).sget 3 = 0xFFFFFFFFFFFFFF85 := by
  decide +kernel
theorem wit_load_lanes : own.toNat % 4 = 0 ∧ m0.legal 0x21 0 = true ∧ { m0 with size := 1 }.legal 0x21 2 = true ∧
    m0.legal 0x21 4 = true ∧ loads s1 own ((s1.ctx c0).lanePieces m0 0 512) = true ∧
    loads s1 own ((s1.ctx c0).lanePieces m0 0 64) = true ∧ loads s1 own ((s1.ctx c0).lanePieces m0 384 4) = true := by decide +kernel
/-- A descriptor of zeros is the absent one (R183): it passes the check. -/
theorem wit_load_tile : own.toNat % 8 = 0 ∧ m0.legal 0x24 0 = true ∧ loads (ata own) own [(0, 48)] = true ∧
    (TileDesc.ofBytes (List.replicate 48 0)).invalid = none := by decide +kernel
/-- `PMU_TIME` of die 0 through a scalar load of 8 bytes. -/
theorem wit_load_register : (match (ata 0xE0001015168).deviceAt c0 0xE0001015168 8 0 with
    | some (a, true) => (match regAccess a 8 with | .reg r _ _ => agentMay (.dti c0) r.kind | _ => false)
    | _ => false) = true := by decide +kernel
theorem wit_own_scratchpad : onePart s1 own 0 8 = true ∧ s1.place c0 0x80000001000 false = .own 0x80000001000 ∧
    s1.spdBad 0x80000001000 8 = none := by decide +kernel
/-- One store to T1 in the buffer of an empty core. -/
theorem wit_forwarding : (s0.sbParts c0 0x1000 [⟨0, 0x1000, 0, 8⟩] (List.replicate 8 1) .normal .store).isSome = true ∧
    (s0.core 0).sb = [] := by decide +kernel
theorem wit_stores : s1.deviceAt c0 own 1 1 = none ∧ m0.legal 0x20 2 = true ∧ roomFor s1 own 1 [(0, 1)] [5] .store = true ∧
    m0.legal 0x21 1 = true ∧ roomFor s1 own 2048 ((s1.ctx c0).lanePieces m0 0 512) ((s1.ctx c0).laneBytes 3 0 512) .store = true ∧
    { m0 with size := 1 }.legal 0x21 3 = true ∧
    roomFor s1 own 256 ((s1.ctx c0).lanePieces m0 0 64) ((s1.ctx c0).laneBytes 3 0 64) .store = true ∧ m0.legal 0x21 5 = true ∧
    m0.legal 0x21 6 = true ∧ roomFor s1 own 16 ((s1.ctx c0).lanePieces m0 388 4) ((s1.ctx c0).laneBytes 3 388 4) .store = true ∧
    m0.legal 0x24 1 = true ∧ roomFor s1 own 48 [(0, 48)] (List.replicate 48 0) .store = true ∧ m0.legal 0x31 0 = true ∧
    roomFor s1 own 8 [(0, 8)] (List.replicate 8 0) .flag = true ∧ (s1.ctx c0).check = none := by decide +kernel
theorem test_st : (after (.st c0 { d := 2, a := 1 }) s1).peek 0x80000001000 2 = [9, 0] := by decide +kernel
theorem wit_store_register : (match (ata 0xE0006065028).deviceAt c0 0xE0006065028 8 1 with
    | some (a, true) => (match regAccess a 8 with | .reg r _ _ => agentMay (.dti c0) r.kind | _ => false)
    | _ => false) = true ∧ { m0 with size := 3 }.legal 0x20 2 = true ∧ ((ata own).jCounts c0).1 < 191 := by decide +kernel
theorem wit_store_frame : s1.memOk ∧ s1.place c0 0x80000001000 true = .own 0x80000001000 ∧ roomFor s1 own 8 [(0, 8)] (List.replicate 8 7) .store = true := by
  unfold State.memOk; decide +kernel
theorem wit_accumulator : (match (ata own).accBase c0 { m0 with off32 := 252 } with
      | .ok t => (ata own).accWait c0 t 252 = none && (ata own).accBad c0 t 252 = none | .error _ => false) = true ∧
    { m0 with off32 := 252 }.legal 0x21 7 = true ∧ { m0 with off32 := 252 }.legal 0x21 8 = true := by decide +kernel
/-- An address of T1: a request of 8 bytes to its home, in one part; nothing journaled before. -/
theorem wit_requests : onePart s0 0x1000 0 8 = true ∧ onePart s0 0x1000 2 8 = true ∧ onePart s0 0x1000 1 8 = true ∧
    (s0.place c0 0x1000 false).refused = false ∧ (s0.place c0 0x1000 true).refused = false ∧ s0.place c0 0x1000 true ≠ .remote ∧
    (∀ kind ∈ [1, 2, 3, 4], (match s0.journal c0 kind with | .fresh s => decide (s = s0) | _ => false) = true) ∧
    (∀ m ∈ List.range 10, { m0 with size := 3 }.legal 0x22 m = true) ∧ { m0 with d := 2, size := 3 }.legal 0x22 0xA = true ∧
    { m0 with size := 5 }.legal 0x31 1 = true ∧ ({ a := 1 } : MForm).legal 0x31 2 = true := by decide +kernel
/-- In a replay with one recorded entry of each kind. -/
theorem wit_recorded : ∀ kind ∈ [1, 2, 3], (let s := { on fun k => { k with replayNext := some 0 } with
      mem := [(jAddr c0 0, BitVec.ofNat 8 kind), (jAddr c0 0 + 3, 0x01), (jAddr c0 0 + 8, 0x2A)] }
    let s := s.poke64 (snapBase c0 + 0xF000) 1
    match s.journal c0 kind with | .recorded _ v => decide (v = 0x2A) | _ => false) = true := by decide +kernel
theorem wit_misaligned : ((0x80000001001 : W64).toNat % 8 ≠ 0 ∧ (0x80000001001 : W64).toNat % 4 ≠ 0) ∧
    ((ata 0x80000001001).ctx c0).ea m0 = 0x80000001001 ∧ ((after (.ldV c0 { m0 with size := 1 }) (ata 0x80000001001)).ctx c0).st = .stopped ∧
    ((after (.tld c0 m0) (ata 0x80000001001)).ctx c0).st = .stopped ∧ ((after (.vld c0 m0) (ata 0x80000001001)).ctx c0).st = .stopped := by
  decide +kernel
/-- Copy operands: 0x100 bytes at offset 0x1000, with slot 2 (the word's layout is that of R250). -/
theorem wit_copies : (match copyOp 6029312 0x0000010000001000 with | some o => !o.slotEn | none => false) = true ∧
    copyOp 6029312 0 = none ∧ m0.legal 0x23 0 = true ∧ m0.legal 0x23 1 = true ∧ m0.legal 0x23 2 = true ∧ m0.legal 0x23 3 = true ∧
    s0.sourceOut c0 0x1000 0x100 = none ∧ (s0.prefetchLines c0 0x1000 256).isSome = true ∧ s0.prefetchLines c0 0xF1000000000 256 = none ∧
    (s0.ctx c0).bcpOuts.length < 8 := by decide +kernel
theorem wit_fences : (∀ m ∈ [0, 1, 2], ([0, 1, 2] : List (BitVec 34)).all fun i => ({ imm34 := i } : IForm).legal 0x30 m) ∧ s0.writesDone c0 = true ∧
    s0.sendsDone c0 = true ∧ (s0.ctx c0).bgFail = none ∧
    ((on fun k => { k with bgFail := some (.access, 0, 0) }).ctx c0).bgFail = some (.access, 0, 0) := by decide +kernel
theorem wit_fence_waits : (s0.updCore 0 fun k => { k with
    sb := [⟨0, 0x1000, 1, [], .normal, false, 0, .store, 0x1000⟩] }).writesDone c0 = false := by decide +kernel
theorem wit_branches : (∀ m ∈ [0, 1, 2, 3, 4, 5], ({ x := 1, y := 2 } : BForm).legal 0x40 m = true) ∧ ({ x := 1 } : BForm).legal 0x40 6 = true ∧
    ({ x := 1 } : BForm).legal 0x40 7 = true ∧ ({} : BForm).legal 0x40 0xF = true ∧ ({ x := 1, off38 := 4 } : BForm).legal 0x41 0 = true ∧
    ({} : BForm).legal 0x41 1 = true ∧ (s0.ctx c0).loops = [] ∧
    ((after (.loop c0 { x := 1, off38 := 4 }) s0).ctx c0).loops = [⟨5, 0x108, 0x120⟩] ∧
    ((after (.beq c0 { x := 1, y := 2, off38 := 4 }) s0).ctx c0).pc = 0x108 ∧
    ((after (.bne c0 { x := 1, y := 2, off38 := 0x3FFFFFFFFF }) s0).ctx c0).pc = 0xF8 := by decide +kernel
theorem wit_loop_end : loopEnd 0x20 [⟨1, 0, 0x20⟩, ⟨3, 8, 0x20⟩, ⟨2, 0, 0x40⟩] = ([⟨2, 8, 0x20⟩, ⟨2, 0, 0x40⟩], 8) := by decide +kernel

/-! ## Witnesses: commit points, chains, matrix, streams -/

theorem wit_commit : ({ imm34 := 0x3FFF } : IForm).legal 0x48 0 = true ∧ maskCount 0x3FFF = 14 ∧ maskCount 0x7FFF = 15 ∧
    ({} : IForm).legal 0x48 1 = true ∧ ((after (.commit c0 { imm34 := 0x7FFF }) s0).ctx c0).st = .stopped := by decide +kernel
theorem wit_copy_write : (let s := on fun k => { k with commit := some ⟨0, false, none⟩ }
    s.memOk ∧ s.drained c0 = true ∧ s.coreUp 0 = true ∧ (s.ctx c0).bgFail = none) := by unfold State.memOk; decide +kernel
theorem wit_finalize : (let s := on fun k => { k with commit := some ⟨0, false, some 0⟩ }
    (s.ctx c0).check = none ∧ (s.core 0).stream 7 = some st0 ∧ s.fget (rg .coreCtl) 3 0 = 15 ∧
    (∀ l ∈ s.sharers 0, (s.core l).queue = []) ∧ ((after (.commitFinalize c0) s).ctx c0).commit = none ∧
    ((after (.commitFinalize c0) s).ctx c0).pc = 0x108) := by decide +kernel
theorem wit_replay : (let s := on fun k => { k with replayDue := true }
    s.coreUp 0 = true ∧ (s.ctx c0).await = none ∧ ((after (.replayRestore c0) s).ctx c0).replayDue = false) := by decide +kernel

/-- A chain of one row and one column tile at offset 0x1000 with its stat area at 0x2000: word 3 is 0x2000 and word 10 is 1. -/
def sch : State := { on id with mem := [(0x80000001019, 0x20), (0x80000001050, 1)] }
/-- Fields that name it. -/
def t0 : TForm := { chain := 0x20 }
theorem wit_chain_load : t0.legal 0x49 0 = true ∧ sch.spdBad (windowBase 0 + 0x1000) 512 = none ∧
    sch.chainReject c0 (sch.chainRead c0 0x1000) = none ∧ ((after (.chainLd c0 t0) sch).ctx c0).chains.length = 1 := by decide +kernel
theorem wit_chain_rowfix : (let s := after (.chainLd c0 t0) sch
    t0.legal 0x49 1 = true ∧ ((s.chainBind c0 0x1000).map fun x => (s.chainSt c0 x).status.getLsbD 9) = some false ∧
    (s.ctx c0).rowfix = none ∧ t0.legal 0x49 2 = true ∧ s.chainBusy c0 0x1000 = false) := by decide +kernel
theorem wit_slots : ({ slot := 2, chain := 1, imm16 := 0x5BFF } : TForm).legal 0x58 0 = true ∧
    ({ slot := 2 } : TForm).legal 0x58 1 = true ∧ ({ slot := 2 } : TForm).legal 0x58 2 = true ∧ s0.slotInUse c0 2 = false ∧
    256 * (0x5BFF + 1) = 0x5C0000 ∧
    ((on fun k => k.setSlot 2 ⟨.filling, 0, 0, 1⟩).ctx c0).slot 2 = ⟨.filling, 0, 0, 1⟩ := by decide +kernel
/-- A BF16 tile of one element in slot 2 at the own address, as a row of weights. -/
def wd : TileDesc := { w0 := own, w3 := 0x4000000000, w5 := 0x520002 }
/-- A BF16 tile of four rows of one element in slot 2 at the own address. -/
def ad : TileDesc := { w0 := own, w3 := 0x4000000003, w5 := 0x120002 }
/-- The context with a descriptor in t1 and slot 2 in a state, at the bottom of the scratchpad. -/
def withTile (d : TileDesc) (st : SlotSt) : State := on fun k => (k.tset 1 d).setSlot 2 ⟨st, 0, 0, 0x100⟩
theorem wit_transfers : ({ ta := 1, flags := 1 } : TForm).legal 0x60 0 = true ∧ ({ ta := 1 } : TForm).legal 0x61 0 = true ∧
    (let s := withTile ad .empty
     ad.absent = false ∧ ad.slotEn = true ∧ s.sendBad 0 0 = 0 ∧ (s.jCounts c0).1 < 191 ∧
     (match s.rowsOutside c0 0 0x10000 ad.tileReads.1 with | .ok none => true | _ => false) = true ∧
     (match s.rowsOutside c0 0 0x5C0000 (ad.tileReads.2.1 ++ ad.tileReads.2.2) with | .ok none => true | _ => false) = true ∧
     ((after (.fctRecv c0 { ta := 1 }) s).ctx c0).slot 2 = ⟨.filling, 0, 0, 0x100⟩) := by decide +kernel
theorem wit_weights : weightBad wd = none ∧ ({ ta := 1 } : TForm).legal 0x50 0 = true ∧ ({ ta := 1 } : TForm).legal 0x50 1 = true ∧
    (let s := withTile wd .resident
     s.shadowWait c0 = none ∧ (s.core 0).front = none ∧
     (match s.vreads c0 wd.weightReads with | .ok bs => decide ((wtileOf wd false bs).checkFail = none) | _ => false) = true ∧
     ((after (.mmLdwS c0 { ta := 1 }) s).ctx c0).shadow = wd) ∧
    ((after (.mmLdwS c0 { ta := 1 }) (withTile wd .empty)).ctx c0).st = .stopped := by decide +kernel
theorem wit_swap : ({} : TForm).legal 0x52 0 = true ∧
    (let s := s0.updCore 0 fun q => { q with shadow := .held 0 (wtileOf wd false []) }
     (s.ctx c0).swapLost = false ∧ ((after (.mmSwap c0 {}) s).ctx c0).swap = true) := by decide +kernel
/-- A pass of the four-row tile over live weights of one row that the context owns, onto accumulators at 0x10000. -/
theorem wit_pass : ({ ta := 1, imm16 := 64 } : TForm).legal 0x51 0 = true ∧
    (let s := (withTile ad .resident).updCore 0 fun q => { q with owner := some 0, live := some (wtileOf wd false []) }
     let s := s.updCtx c0 fun k => { k with live := wd }
     s.passBad c0 { ta := 1, imm16 := 64 } = none ∧ s.passReads c0 ad none = none ∧ s.epiBlocks c0 64 4 = false ∧
     ((after (.mmPass c0 { ta := 1, imm16 := 64 }) s).core 0).passes.length = 1) := by decide +kernel
/-- A drain of four rows of FP32, whose slot field is not valid. -/
theorem wit_drain : ({ tb := 1, imm16 := 64 } : TForm).legal 0x52 1 = true ∧
    (let o : TileDesc := { w0 := own, w3 := 0x4000000003, w5 := 1 }
     let s := withTile o .empty
     o.rows = Tbl.get o.rows (s.ctx c0).accRows 64 ∧ o.cols ≤ 128 ∧ accEnd 64 o.rows ≤ 0x5C0000 ∧ s.epiBlocks c0 64 o.rows = false ∧
     ((after (.mmDrain c0 { tb := 1, imm16 := 64 }) s).core 0).drain.isSome = true) := by decide +kernel

theorem wit_weight_events : (let t := wtileOf wd false []
    ((after (.shadowLoadDone 0) (s0.updCore 0 fun q => { q with shadow := .loading 0 t 0 })).core 0).shadow = .held 0 t ∧
    ((after (.frontLoadDone 0) (s0.updCore 0 fun q => { q with front := some ⟨0, t, 0, false⟩ })).core 0).live = some t ∧
    ((after (.weightSwap 0) ((on fun k => { k with swap := true }).updCore 0 fun q => { q with shadow := .held 0 t })).core 0).live =
      some t) := by decide +kernel
theorem wit_inject : s0.fget (rg .coreCksCtl) 8 8 = 0 ∧ ((after (.injectCell 0) s0).core 0).injCell = true ∧
    (let s := fld s0 .coreCksCtl 8 8 1
     s.fget (rg .coreCksCtl) 8 8 = 1 ∧ gives (.injectOpchk 0) s s = true) := by decide +kernel
theorem wit_reacquire : (let s := (withTile wd .resident).updCtx c0 fun k => { k with live := wd, reacq := true }
    (s.core 0).owner ≠ some 0 ∧ (s.ctx c0).live.absent = false ∧
    (match s.vreads c0 wd.weightReads with | .ok bs => decide ((wtileOf wd false bs).checkFail = none) | _ => false) = true ∧
    ((after (.weightReacquire c0) s).core 0).owner = some 0) := by decide +kernel
/-- A prologue of one run over a 4 by 1 activation, with a chain whose source tile is that same tile and whose program is empty. -/
def xch : ChainRt := ⟨0x1000, patch (patch (List.replicate 512 0) 24 (leBytes 8 0x2000)) 0x80 ad.bytes, [], []⟩
theorem wit_prologue : (let s := (withTile ad .resident).updCtx c0 fun k => { k with chains := [xch], pro := some ⟨0x1000, ad, 0⟩ }
    (s.ctx c0).chainAt 0x1000 = some xch ∧ s.coreUp 0 = true ∧
    (match fourRows fun i => s.opRow c0 (xch.tile 0x080) (0 + i) 0 with
     | .ok r => (match s.chainRegs c0 xch r 0 0 fun i => decide (i / 128 < 4) && decide (i % 128 < 1) with
       | .ok _ => true | .error _ => false)
     | .error _ => false) = true) := by decide +kernel
/-- The epilogue of a pass of one row whose row has been released, with a chain that stores nothing. -/
theorem wit_epilogue : (let j : EpiJob := ⟨0x1000, 0, 0, 64, 1, 0, 1, 0⟩
    let s := (withTile ad .resident).updCtx c0 fun k => { k with chains := [xch], epi := [j] }
    j.ready = true ∧ xch.outMode < 2 ∧ s.linkBusy c0 xch = false ∧ s.badWords = [] ∧
    (match s.chainRegs c0 xch (((List.range 4).flatMap fun i => if i < 1 then
        s.accGet c0 (accTile 64 1 (arrayOf 1 i).1) (arrayOf 1 i).2 else List.replicate 128 0).map fun w => (w, 0)) 0 0
        (fun i => decide (i / 128 < 1) && decide (i % 128 < xch.colLimit)) with | .ok _ => true | .error _ => false) = true ∧
    ((after (.epilogueRun c0) s).ctx c0).epi = []) := by decide +kernel
theorem wit_rowfix : (let s := (withTile ad .resident).updCtx c0 fun k => { k with chains := [xch], rowfix := some 0x1000 }
    s.chainBusy c0 0x1000 = false ∧ s.linkBusy c0 xch = false ∧ xch.stat = 0 ∧
    ((after (.rowfixRun c0) s).ctx c0).rowfix = none) := by decide +kernel
theorem wit_chain_send : (let s := (withTile ad .resident).updCtx c0 fun k => { k with chains := [xch], sends := [(0x1000, 0, 0, 0)] }
    s.peek64 (jAddr c0 0 + 8) = 0 ∧ (s.core 0).bg = [] ∧ (s.core 0).sb = [] ∧
    s.sendBad ((xch.w 12).setWidth 12) (bits (xch.w 12) 19 12) = 0 ∧ ((after (.chainSend c0) s).ctx c0).sends = []) := by decide +kernel
theorem wit_fill_complete : (let s := on fun k => { k.setSlot 2 ⟨.filling, 0, 0, 1⟩ with fills := [⟨2, .writes⟩] }
    s.writesLanded c0 2 = true ∧ ((after (.slotFillComplete c0 2 ⟨[], [], []⟩) s).ctx c0).slot 2 = ⟨.resident, 0, 0, 1⟩) := by
  decide +kernel

/-- The part with its core taking stream commands, its stream stopped. -/
def sqs (st : StreamSt) : State := fld ({ on (fun k => { k with st := .stopped }) with
  cores := [(0, { streams := [{ st0 with st := st }], tlb := [tr0] })] }) .bootStatus 4 4 1
theorem wit_stream_commands : (sqs .stopped).sqReady 0 = true ∧
    (((sqs .stopped).fset (rg .unitStatus) 4 4 0).core 0).stream 7 = some { st0 with st := .stopped } ∧
    ((sqs .stopped).fset (rg .unitStatus) 4 4 0).holder 0 7 = some c0 ∧ ((sqs .stopped).core 0).stream 8 = none ∧
    ((after (.resume 0 7) (sqs .stopped)).ctx c0).st = .issuing ∧ ((after (.restart 0 7) (sqs .stopped)).ctx c0).replayDue = true ∧
    ((after (.endStream 0 7) (sqs .stopped)).core 0).stream 7 = none ∧
    ((after (.endStream 0 7) (sqs .stopped)).core 0).events.map (·.code) = [0x81] ∧
    ((after (.endStream 0 7) (sqs .running)).core 0).stream 7 = some { st0 with ending := true } := by decide +kernel
theorem wit_held_commands : State.reset.sqReady 0 = false ∧ ((after (.launch 0 0x40) State.reset).core 0).sqHeld = [0x41] := by
  decide +kernel
/-- A descriptor at 0x40: Sv48 (mode 9 in word 1), stream_id 5 in word 7, all else zero. -/
def sld : State := { sqs .running with mem := [(0x4F, 0x90), (0x78, 5)] }
theorem wit_launch : (let u := sld.fset (rg .unitStatus) 4 4 0
    sld.sqReady 0 = true ∧ u.badAddr 0x40 false = false ∧ u.poisoned 0 = false ∧ u.tierStatus 0x40 = none ∧ u.isLocal 0x40 = true ∧
    (descBad fun i => leWord (((u.physRead 0x40 64).drop (8 * i)).take 8)) = false ∧ (sld.core 0).stream 5 = none) := by decide +kernel
/-- A record that waits, with a ring of 16 records at 0x2000 and its counts at 0x1000 in T1; the page table has
one leaf of 1 GiB. -/
theorem wit_event_record : (let e : EventRec := ⟨0x80, 0, { st0 with root := 0x9000000000000001, countAddr := 0x3000, ringBase := 0x2000 }, 0, 0, 0, 0, 0⟩
    let s := { s0.updCore 0 fun q => { q with events := [e] } with mem := [(0x1000, 1), (0x1001, 0x10), (0x4000, 0xDF)] }
    s.mapOne (LC.walkDie 0) e.of_.root e.of_.countAddr 1 = some 0x3000 ∧ leWord (s.physRead 0x3000 8) = 0 ∧
    leWord (s.physRead 0x3008 8) = 0 ∧ s.mapOne (LC.walkDie 0) e.of_.root 0x2000 1 = some 0x2000 ∧
    ((after (.eventRecordWrite 0) s).core 0).events = []) := by decide +kernel

/-! ## Witnesses: time, buffers, homes -/

/-- The part with a core changed further. -/
def onCore (g : Core → Core) : State := s0.updCore 0 g
/-- The part with compute die 0 changed. -/
def onDie (g : DieSt → DieSt) : State := State.reset.updDie 0 g

theorem wit_step_boundary : (let s := onCore fun k => { k with empty := true }
    s.coreUp 0 = true ∧ (s.core 0).empty = true ∧ (s.die 0).gateStart = none ∧ (s.ctx c0).counts = true ∧
    (s.core 0).slot ≠ some c0.ix ∧ (after (.stepBoundary 0) s).counter c0 3 = 1 ∧
    (State.reset.fset (rg .unitStatus) 2 0 4).coreUp 0 = false) := by decide +kernel
theorem wit_pacer : (State.reset.fset (rg .paceCtl) 0 0 1).tokenRate 0 ≠ none ∧
    (after (.pacerTick 12) State.reset).time 12 = 1 := by decide +kernel
/-- A gate of 2 µs or more is followed by a hold-off to 3 µs after its start; a shorter one by none. -/
theorem wit_droop : (onDie fun k => { k with holdoff := some 5 }).die 0 ≠ (State.reset).die 0 ∧
    (let s := onDie fun k => { k with gateStart := some 10, gateEnd := 2010, time := 2010 }
     ((after (.droopGateEnd 0) s).die 0).holdoff = some 3010) ∧
    (let s := onDie fun k => { k with gateStart := some 10, gateEnd := 2009, time := 2009 }
     ((after (.droopGateEnd 0) s).die 0).holdoff = none) ∧
    (let s := onDie fun k => { k with holdoff := some 7, time := 7 }
     ((after (.droopHoldoffEnd 0) s).die 0).holdoff = none) ∧
    ((after (.droopTrigger 0) State.reset).die 0).gateStart = some 0 := by decide +kernel
theorem wit_offset : State.reset.fget (rg .toff 3) 63 63 = 0 ∧ (((8 : W64) - 5) - (3 - 2)).toInt % 2 = 0 ∧
    (after (.timeOffsetMeasure 3 2 3 5 8) State.reset).fget (rg .toff 3) 47 0 = 1 := by decide +kernel
theorem wit_scrub : State.reset.windowUp (windowBase 0) = true ∧
    (after (.scratchpadScrub 0) { State.reset with softWords := [windowBase 0 / 8, 5] }).softWords = [5] := by decide +kernel

/-- A line that the scalar issue unit waits for has come. -/
def filled (st : W8) : State := onCore fun k => { k with ocMiss := some (0x1000, .stream, true), arrived := some (0x1000, st, List.replicate 128 3, false) }
theorem wit_line_fill : ((filled 0).core 0).ocMiss = some (0x1000, .stream, true) ∧ (filled 0).isLocal 0x1000 = true ∧
    (filled 0).fget (rg .coreOcCtl 0) 24 24 = 0 ∧ (filled 0).fget (rg .coreOcCtl 0) 7 0 = 0 ∧ ((filled 0).core 0).oc = [] ∧
    ((after (.ocLineFill 0) (filled 0)).core 0).oc.map (·.age) = [3] ∧
    ((after (.ocLineFill 0) (filled 1)).core 0).missBuf = [] := by decide +kernel
/-- A buffer entry for a line, of context 0. -/
def sbe (line : PAddr) : SbEntry := ⟨0, line, 1, List.replicate 128 0, .normal, false, 0, .store, 0x77⟩
theorem wit_buffer_send : (let s := onCore fun k => { k with sb := [sbe 0x1000, sbe 0x0010000000000080] }
    (s.core 0).sb[(0 : Fin 64).val]? = some (sbe 0x1000) ∧ mayBeSent (s.core 0).sb 0 = true ∧ s.isLocal 0x1000 = true ∧
    mayBeSent (s.core 0).sb 1 = true ∧ s.isLocal 0x0010000000000080 = false ∧
    (after (.storeBufferSend 0 1) s).out.length = 1) := by decide +kernel
/-- A remote write sent at time 0 is gone at 400 µs. -/
theorem wit_write_timeout : (let e := { sbe 0x0010000000000080 with sent := true }
    let s := (onCore fun k => { k with sb := [e] }).updDie 0 fun k => { k with time := 400000 }
    (s.core 0).sb[(0 : Fin 64).val]? = some e ∧ s.isLocal e.line = false ∧ 400000 ≤ (s.now 0 - e.sentAt).toNat ∧
    (s.ctx ⟨0, e.c⟩).bgFail = none ∧
    ((after (.remoteWriteTimeout 0 0) s).ctx c0).bgFail = some (.addr, 0x77, 0x80)) := by decide +kernel
/-- A request of the context for a line; `wait` that has yet to read again. -/
def aw (kind : AwaitKind) (line : PAddr) (sent : Bool) : Await := { kind := kind, d := 3, cond := 0, size := 8, line := line, off := 8, sent := sent }
theorem wit_wait_reread : (let s := on fun k => { k with await := some (aw .wait 0x1000 false) }
    let r := on fun k => { k with await := some (aw .wait 0x0010000000001000 false) }
    (s.ctx c0).await = some (aw .wait 0x1000 false) ∧ s.isLocal 0x1000 = true ∧ (regionOf 0x1000).coherent = true ∧
    r.isLocal 0x0010000000001000 = false ∧ (s.ctx c0).replayDue = false ∧
    (after (.waitReread c0) r).out = [.remoteRead 0x0010000000001000]) := by decide +kernel

theorem wit_homes_spread : homeOf 0x2040 = homeOf 0x2000 ∧ lineOf 0x2040 = lineOf 0x2000 ∧ homeOf 0x2080 ≠ homeOf 0x2000 := by
  decide +kernel
/-- A request that another agent has at a line of T2, with its tier not yet asked. -/
def rq (k : TxnKind) : HomeReq := ⟨.hart 0, 0, .normal, k, 0⟩
/-- The part with a line of T2 in a phase. -/
def lineT2 (k : TxnKind) (p : TxnPhase) : State := State.reset.setLine 0x10000000000 { txn := some ⟨rq k, p, 0⟩ }
/-- The part with memory behind T2. -/
def ddr (s : State) : State := { s with host := { s.host with ddrBytes := 0x10000000000 } }
theorem wit_requests_arrive : ((lineT2 .rdOnce .ack).line 0x10000000000).txn ≠ none ∧
    (State.reset.line 0x0C000000000).txn = none ∧ State.reset.badAddr 0x0C000000000 true = true ∧
    State.reset.badAddr 0x10000000000 true = false ∧ (State.reset.line 0x10000000000).owner = none ∧
    regionOf 0x10000000000 = .t2 ∧ regionOf 0x40000000000 = .t3 ∧
    (let s := State.reset.setLine 0x1000 { owner := some (.hart 1) }
     (s.line 0x1000).owner = some (.hart 1) ∧ Requester.hart 1 ≠ .hart 0 ∧ s.badAddr 0x1000 true = false ∧
     ((after (.rdUnique (.hart 0) 0x1000 .normal) s).line 0x1000).txn.map (·.phase) = some (.recall [.hart 1] [])) ∧
    Requester.caches (.hart 0) = true := by decide +kernel
/-- Each answered transaction: the line after `add` of 2 to the word 5 at its byte 8, read back. -/
theorem wit_lower_tier : (let s := { ddr (lineT2 (.atomic .add 8 true 2) (.tier false)) with mem := [(0x10000000008, 5)] }
    s.memOk ∧ s.fget (rg .tierCntBase) 0 0 = 0 ∧ s.tierStatus 0x10000000000 = none ∧ s.poisoned 0x10000000000 = false ∧
    (after (.lowerTierResponse 0x10000000000 .data) s).peek 0x10000000008 2 = [7, 0]) ∧
    (ddr (lineT2 .rdOnce (.tier false))).memOk ∧ (ddr (lineT2 .rdOnce (.tier false))).tierStatus 0x10000000000 = none := by
  unfold State.memOk; decide +kernel
/-- A collective engine's request is privileged, a hart's is not; a hart's request of time 0 is late once its limit has passed. -/
theorem wit_tier_fails : (let s := ddr (lineT2 .rdOnce (.tier false))
    let p := ddr (State.reset.setLine 0x10000000000 { txn := some ⟨⟨.collective 0, 0, .normal, .rdOnce, 0⟩, .tier false, 0⟩ })
    s.privileged (rq .rdOnce) = false ∧ p.privileged ⟨.collective 0, 0, .normal, .rdOnce, 0⟩ = true ∧
    TierAnswer.code .linkDown ≠ 0 ∧ 2 ≤ tierOf 0x10000000000 ∧
    ((after (.lowerTierResponse 0x10000000000 .linkDown) p).line 0x10000000000).txn.map (·.phase) = some (.tier true) ∧
    (let d := homeDie 0x10000000000
     let late := s.updDie d fun k => { k with time := 0x40000000 }
     late.isLate 0x10000000000 (rq .rdOnce) = true ∧ late.privileged (rq .rdOnce) = false ∧
     (let w := (lineT2 .rdOnce (.tier true)).updDie d fun k => { k with time := 10000 }
      10000 ≤ (w.time d - 0).toNat ∧
      (after (.tierStallRetry 0x10000000000) w).fget (stallReg 0x10000000000) 63 32 = 10))) := by decide +kernel
theorem wit_recalls : (let s := State.reset.setLine 0x10000000000 { owner := some (.hart 1), txn := some ⟨rq .rdOnce, .recall [.hart 1] [], 0⟩ }
    s.memOk ∧ (s.line 0x10000000000).txn = some ⟨rq .rdOnce, .recall [.hart 1] [], 0⟩ ∧
    (after (.recall 0x10000000000 (.hart 1)) s).out = [.recall 0x10000000000 (.hart 1)] ∧
    (after (.recallResponse 0x10000000000 (.hart 1) (some (List.replicate 128 9))) s).peek 0x1000000007F 1 = [9] ∧
    ((after (.recallResponse 0x10000000000 (.hart 1) none) s).line 0x10000000000).sharers = [.hart 1]) := by
  unfold State.memOk; decide +kernel
theorem wit_home_response : (after (.homeResponse 0x10000000000) (lineT2 .rdOnce (.respond 3 0 [] false))).out =
      [.homeData 0 (.hart 0) 0x10000000000 3 0 [] false] ∧
    (let s := (on fun k => { k with await := some (aw .ldv 0x1000 true) }).setLine 0x1000
        { txn := some ⟨⟨.ctx c0, 0, .normal, .rdOnce, 0⟩, .respond 0 0 (List.replicate 128 1) false, 0⟩ }
     s.vertex = 0 ∧ mkPA s.vertex 0x1000 = 0x1000 ∧ (s.ctx c0).replayDue = false ∧
     ((after (.homeResponse 0x1000) s).ctx c0).sget 3 = 0x0101010101010101) := by decide +kernel
/-- An acknowledgement that has not come in 200 µs. -/
theorem wit_home_timeout : (let s := (lineT2 .rdOnce .ack).updDie (homeDie 0x10000000000) fun k => { k with time := 200000 }
    (s.line 0x10000000000).waiting = [] ∧ 200000 ≤ (s.time (homeDie 0x10000000000) - 0).toNat ∧ s.errHeld.length < 256 ∧
    ((after (.acknowledgement 0x10000000000 (.hart 0)) s).line 0x10000000000).txn = none ∧
    (after (.homeTimeout 0x10000000000) s).poisoned 0x10000000000 = true) := by decide +kernel

/-! ## Witnesses: translation, tiers, stacks, the host die -/

/-- A walk that context 0 waits for, and a page table at 0x1000 whose one leaf maps the first GiB. -/
def wk (root : W64) : Walk := { r := .ctx c0, va := 0x3000, acc := 0, root := root, background := false, record := none }
def walking (root : W64) : State := { on (fun k => { k with parked := true }) with
  walks := [wk root], mem := [(0x1000, 1), (0x1001, 0x10), (0x4000, 0xDF)] }
theorem wit_walk_found : (let w := wk 0x9000000000000001
    let s := walking 0x9000000000000001
    s.walks.find? (fun w => w.r = .ctx c0 && w.record.isNone) = some w ∧
    (match s.walkAll (walkDie (.ctx c0) w.root) w.root w.va w.acc with | (.leaf tr _ _ _, _) => decide (tr.pa = 0) | _ => false) = true ∧
    ((after (.pageWalk (.ctx c0)) s).ctx c0).parked = false) := by decide +kernel
/-- The table at 0x2000 is empty: the walk ends at an invalid entry of its first level. -/
theorem wit_walk_faults : (let w := wk 0x9000000000000002
    let s := walking 0x9000000000000002
    s.walks.find? (fun w => w.r = .ctx c0 && w.record.isNone) = some w ∧ s.faults = [] ∧
    (match s.walkAll (walkDie (.ctx c0) w.root) w.root w.va w.acc with | (.fault c _ _, _) => decide (c = 1) | _ => false) = true ∧
    (after (.pageWalk (.ctx c0)) s).nextFault = 1) := by decide +kernel
/-- A record that is due. -/
def frec : FaultRec := ⟨7, { wk 0x9000000000000002 with record := some 7 }, 1, 2, 0, [.ctx c0], 0, 0, false⟩
def faulted : State := { on (fun k => { k with parked := true }) with walks := [frec.opener], faults := [frec] }
theorem wit_record_posts : (let s := (faulted.setReg (rg .xltEqBase) 0x8000000000000000).updDie (BDie.die 0) fun k => { k with time := 1000 }
    s.faults.find? (fun f => faultDie f.opener.va = 0 && !f.posted) = some frec ∧ s.eqRoom = true ∧
    1000 ≤ (s.time (BDie.die 0) - frec.at_).toNat ∧ (after (.faultRecordPost 0) s).fget (rg .xltEqHead) 31 0 = 1) := by decide +kernel
theorem wit_resolve : State.reset.faults.any (·.id = 3) = false ∧ (after (.resolveRetry 3) State.reset).fget (rg .xltStatus) 56 56 = 1 ∧
    faulted.faults.any (·.id = 7) = true ∧ faulted.walks.filter (·.record = some 7) = [frec.opener] ∧
    ((after (.resolveFail 7) faulted).ctx c0).st = .stopped := by decide +kernel
theorem wit_invalidation : s0.inval = none ∧ ((after (.invalidation 0x60000) s0).core 0).tlb = [] ∧
    (after (.invalidation 0x60000) s0).inval.isSome = true := by decide +kernel
theorem wit_invalidation_ends : (let s := { State.reset with inval := some ⟨[], []⟩ }
    s.invalHeld = [] ∧ (after .invalidationComplete s).inval = none ∧ (after (.invalidation 1) s).invalHeld.length = 1) := by decide +kernel

theorem wit_cache_ways : State.reset.fget (rg .mscWays 0) 0 0 = 1 ∧ State.reset.fget (rg .mscWays 0) 24 24 = 0 ∧
    State.reset.fget (rg .mscWays 0) 25 25 = 0 ∧ Slice.bdie 0 = 0 ∧ Slice.bdie 16 ≠ 0 ∧
    (let s := State.reset.fset (rg .mscWays 0) 24 24 1
     s.fget (rg .mscWays 0) 24 24 = 1 ∧ (after (.mscWayReplace 0 24) s).fget (rg .mscWays 0) 25 24 = 2) ∧
    (let s := State.reset.fset (rg .mscWays 0) 25 24 3
     s.fget (rg .mscWays 0) 25 25 = 1 ∧ (after (.mscWayReplace 0 25) s).fget (rg .errStatus) 6 6 = 1) := by decide +kernel
/-- The table of counters at the base of T2, with one word cached, or one in memory. -/
theorem wit_counters : (let s := { ddr State.reset with cntCache := [(3, 0x105)] }
      let s := s.setReg (rg .tierCntBase) 0x10000000000
      regionOf (s.cntAddr 3) = .t2 ∧ s.tierStatus (lineOf (s.cntAddr 3)) = none ∧ lineOf (s.cntAddr 3) ∉ s.poison ∧ s.memOk ∧
      (after .counterFlush s).peek 0x10000000006 2 = [5, 1]) ∧
    (let s := ({ ddr State.reset with mem := [(0x10000000006, 9)] }).setReg (rg .tierCntBase) 0x10000000000
     s.countedRegions.dedup = [3] ∧ (after .counterHalve s).peek 0x10000000006 1 = [4]) := by
  unfold State.memOk; decide +kernel
/-- Charges at the quota and one beyond it; releases of all the usage and of one more. -/
theorem wit_quotas : (let s := ((State.reset.fset (rg .tierQuota 1) 20 0 10).fset (rg .tierUsed 1) 20 0 4)
    s.fget (rg .tierUsed 1) 20 0 + 6 < 2 ^ 21 ∧ (after (.tierCharge 1 1 6) s).fget (rg .tierUsed 1) 20 0 = 10 ∧
    (after (.tierCharge 1 1 7) s).fget (rg .tierCharge 1) 26 25 = 2 ∧
    (after (.tierRelease 1 1 4) s).fget (rg .tierUsed 1) 20 0 = 0 ∧
    (after (.tierRelease 1 1 5) s).fget (rg .tierCharge 1) 26 25 = 3) := by decide +kernel

/-- A read of line 0 that its stack is to answer. -/
def readT1 : State := State.reset.setLine 0 { txn := some ⟨⟨.hart 0, 0, .stream, .rdOnce, 0⟩, .stack, 0⟩ }
theorem wit_stack_reads : regionOf 0 = .t1 ∧ readT1.mscFind 0 = none ∧ readT1.stripeLine 0 = none ∧
    readT1.tripped (t1Place 0).2.1 = false ∧ readT1.chanDown (t1Place 0).2.1 (dataChan 0) (t1Place 0).1 = false ∧
    readT1.fget (rg .tierCntBase) 0 0 = 0 ∧ readT1.poisoned 0 = false ∧
    readT1.downIn (t1Place 0).2.1 (t1Place 0).2.2.1 (t1Place 0).1 = [] ∧
    ((after (.t1Read 0 ⟨0, false, false⟩) readT1).line 0).txn.map (·.phase) = some (.respond 0 0 (List.replicate 128 0) false) ∧
    (after (.t1Read 0 ⟨3, false, true⟩) readT1).poisoned 0 = true ∧
    (after (.t1Read 0 ⟨3, false, false⟩) readT1).fget (rg .jsErr 0) 31 16 = 1 := by decide +kernel
theorem wit_stripe_retires : (let e : StripeEntry := ⟨0, 0, [(0, List.replicate 128 6)], 0⟩
    let s := (State.reset.setStack 0 { stripes := [e] }).updDie (stackDie 0) fun k => { k with time := 2000 }
    s.memOk ∧ (s.stack 0).stripes[(0 : Fin 256).val]? = some e ∧ s.tripped 0 = false ∧ s.atCursor 0 e.group e.pos = false ∧
    2000 ≤ (s.time (stackDie 0) - e.at_).toNat ∧ (after (.stripeRetire 0 0) s).peek 127 2 = [6, 0]) := by
  unfold State.memOk; decide +kernel
/-- Temperatures at the edges of the trip. -/
theorem test_stack_trip : (after (.stackTemperatureReport 2 105) State.reset).fget (rg .jsStatus 2) 10 10 = 1 ∧
    (let s := State.reset.fset (rg .jsStatus 2) 10 10 1
     (after (.stackTemperatureReport 2 100) s).fget (rg .jsStatus 2) 10 10 = 1 ∧
     (after (.stackTemperatureReport 2 99) s).fget (rg .jsStatus 2) 10 10 = 0) := by decide +kernel
theorem wit_channel_fails : State.reset.fget (rg .jsSpareMap 1) 7 0 = 0xFF ∧ State.reset.fget (rg .jsRebuild 1) 35 32 = 0xF ∧
    ((after (.channelFaultReport 1 0x87) State.reset).stack 1).failed = [⟨0x87, some 0, 0⟩] ∧
    (let s := State.reset.setReg (rg .jsSpareMap 1) 0
     (∀ i : Fin 8, s.fget (rg .jsSpareMap 1) (8 * i.val + 7) (8 * i.val) ≠ 0xFF) ∧
     (after (.jsFailGo 1 0) s).fget (rg .jsStatus 1) 11 11 = 1) := by decide +kernel
/-- A rebuild of channel 5 onto spare 2, before and at the last position. -/
def rebuilding (p : Nat) : State := (State.reset.setReg (rg .jsRebuild 1) (BitVec.ofNat 64 (2 * 2 ^ 32 + 5 * 2 ^ 24 + p))).setStack 1 { failed := [⟨5, some 2, 0⟩] }
theorem wit_rebuild : (rebuilding 9).fget (rg .jsRebuild 1) 35 32 < 8 ∧ (rebuilding 9).tripped 1 = false ∧
    (∀ x ∈ (rebuilding 9).downIn 1 (chanGroup 5) 9, x = 5) ∧
    (∀ x ∈ (rebuilding 1572863).downIn 1 (chanGroup 5) 1572863, x = 5) ∧
    (after (.rebuildStep 1) (rebuilding 9)).fget (rg .jsRebuild 1) 20 0 = 10 ∧
    (after (.rebuildStep 1) (rebuilding 1572863)).fget (rg .jsSpareMap 1) 23 16 = 5 := by decide +kernel
theorem wit_scrub_pass : State.reset.tripped 3 = false ∧ State.reset.fget (rg .jsCtl 3) 23 8 ≠ 0 ∧
    (after (.patrolScrub 3 []) State.reset).fget (rg .jsStatus 3) 63 32 = 1 := by decide +kernel

theorem wit_ddr_scrub : regionOf 0x10000000000 = .t2 ∧ (ddr State.reset).tierStatus 0x10000000000 = none ∧
    (after (.ddrPatrolScrub [(0x10000000000, true)]) (ddr State.reset)).poisoned 0x10000000000 = true := by decide +kernel
theorem wit_hart_fails : (let s (l : List Nat) := { State.reset with host := { State.reset.host with harts := [(5, .running)], spares := l } }
    (s [96]).hart 5 = .running ∧ (s [96]).host.spares = [96] ∧ (s []).host.spares = [] ∧
    Tbl.get 0 (after (.hartUncorrectableError 5 true) (s [96])).host.phys 5 = 96 ∧
    (after (.hartUncorrectableError 5 false) (s [])).fget (rg .errStatus) 5 5 = 1) := by decide +kernel
theorem wit_inbound : regionOf (PAddr.loc 0x0C000000000).toNat = .hole ∧ (regionOf (PAddr.loc 0x1000).toNat).coherent = true ∧
    (match State.reset.gather (.port 0) .normal (physPieces 0x1000 8) with | (_, .ok ds) => decide (ds.length = 8) | _ => false) = true ∧
    (match State.reset.scatter (.port 0) .normal (physPieces 0x1000 2) [1, 2] with | (_, none) => true | _ => false) = true ∧
    (after (.inboundRequest 0 ⟨none, none, 4⟩) State.reset).out = [.pcieUnsupported 0] := by decide +kernel
theorem wit_flush_timeout : (let s := { State.reset with host := { State.reset.host with flushing := [0x1000], flushAt := 0 } }
    let s := s.updDie hd fun k => { k with time := 1000000 }
    s.host.flushing ≠ [] ∧ 1000000 ≤ (s.time hd - s.host.flushAt).toNat ∧ (after .hostFlushTimeout s).poisoned 0x1000 = true) := by
  decide +kernel
theorem wit_endpoint : (let s := State.reset.fset (rg .bootStraps) 9 9 1
    s.epPort = some 4 ∧ ({ s with host := { s.host with epReady := true } } : State).host.epReady = true ∧
    (32 : CopyEng).val ≥ 32 ∧ (s.fset (rg .ceCtl 32) 7 4 4).cePort 32 = 4 ∧
    ((after .epLinkDown (s.fset (rg .ceCtl 32) 7 4 4)).ce 32).stopped = true ∧ (after .perstNRelease s).host.epReady = true) := by decide +kernel

/-! ## Witnesses: copy engines, Facet links, Chord -/

/-- A descriptor with count 0 whose tag is right, its operation in word 0, that moves 8 bytes from 0x1000 to 0x2000. -/
def cdesc (op : Nat) (valid started : Bool) : CopyDesc :=
  ⟨0, [BitVec.ofNat 64 (0x50 + op), 0x1000, 0x2000, 8, 0, 0, 0, if valid then 0 else 9], 0, 0, valid, started, [], [], 0, none, none, none, []⟩
/-- Engine 0 with descriptors in flight, its ring of 16 at 0x4000 in T1 with physical addresses. -/
def ceng (l : List CopyDesc) : State := ((((State.reset.fset (rg .ceCtl) 0 0 1).setReg (rg .ceRingBase) 0x4010).setReg (rg .ceRingRoot) 0x9000000000000000)).setCe 0 { limit := 1, flight := l }
theorem wit_doorbell : (let s := ceng []
    s.fget (rg .ceCtl 0) 0 0 = 1 ∧ s.fget (rg .ceStatus 0) 32 32 = 0 ∧ s.ringSize 0 = 16 ∧
    ((after (.doorbell 0 16) s).ce 0).limit = 16 ∧ (after (.doorbell 0 17) s).fget (rg .ceStatus 0) 33 33 = 1 ∧
    (after (.doorbell 0 0) s).fget (rg .ceStatus 0) 33 33 = 1) := by decide +kernel
theorem wit_descriptor_fetch : (let s := ceng []
    s.ceHalted 0 = false ∧ (0 : W16) ≠ (s.ce 0).limit ∧
    (match s.fetchWords 0 0 with | some (u, _) => decide (u.copy = s.copy) | none => false) = true ∧
    ((after (.descriptorFetch 0) s).ce 0).flight.length = 1) := by decide +kernel
/-- A wrong tag: the ring holds zeros, so a refetch of count 9 is wrong again. -/
theorem wit_refetch : (let d := { cdesc 1 false false with count := 9, refetches := 15 }
    let s := (ceng [d]).updDie (ceDie 0) fun k => { k with time := 1000 }
    s.ceHalted 0 = false ∧ d.valid = false ∧ d.status = none ∧ 1000 ≤ (s.time (ceDie 0) - d.at_).toNat ∧
    (match s.fetchWords 0 9 with | some (u, _) => decide (u.copy = s.copy) | none => false) = true ∧
    ((after (.descriptorRefetch 0) s).ce 0).flight.map (·.status) = [some 0x04]) := by decide +kernel
theorem wit_move_segments : (let d := cdesc 1 true true
    let s := { ceng [d] with mem := [(0x1003, 7)] }
    (s.ce 0).flight.find? (·.count = d.count) = some d ∧ d.op = 1 ∧ d.slotEn = false ∧ (d.w 0).getLsbD 12 = false ∧
    (List.range d.segs).find? (fun i => !d.okSegs.contains i && !d.badSegs.contains i) = some 0 ∧
    (match s.ceRead 0 d.srcSpace 0x1000 8 .normal with
     | .ok u bs => (match u.ceWrite 0 d.dstSpace 0x2000 bs .normal with | .ok _ _ => true | _ => false)
     | _ => false) = true ∧ (after (.copy 0 0) s).homeBytes 0x2003 1 = [7] ∧
    (((after (.copy 0 0) (ceng [cdesc 1 true false])).ce 0).flight.map (·.started)) = [true]) := by decide +kernel
theorem wit_fill_pattern : (let d := { cdesc 3 true true with words := [0x53, 0, 0x2000, 8, 0x0807060504030201, 0, 0, 0] }
    let s := ceng [d]
    (s.ce 0).flight.find? (·.count = d.count) = some d ∧ d.op = 3 ∧
    (match s.ceWrite 0 d.dstSpace 0x2000 [1, 2, 3, 4, 5, 6, 7, 8] .normal with | .ok _ _ => true | _ => false) = true ∧
    (after (.fillPattern 0 0) s).homeBytes 0x2000 8 = [1, 2, 3, 4, 5, 6, 7, 8]) := by decide +kernel
theorem wit_decrypt : (let d := { cdesc 2 true true with key := some 5 }
    let s := ceng [d]
    (s.ce 0).flight.find? (·.count = d.count) = some d ∧ d.op = 2 ∧ 0 < d.len ∧ d.len ≤ 65536 ∧
    (match s.ceRead 0 d.srcSpace 0x1000 (d.len + 16) .normal with
     | .ok u _ => (match u.ceWrite 0 d.dstSpace 0x2000 (List.replicate 8 0) .normal with | .ok _ _ => true | _ => false)
     | _ => false) = true ∧ (after (.copyAndDecrypt 0 0) (ceng [cdesc 2 true true])).ce 0 ≠ (ceng [cdesc 2 true true]).ce 0) := by decide +kernel
theorem wit_completion_timeout : (let d := { cdesc 1 true true with words := [0x61, 0x1000, 0x2000, 8, 0, 0, 0, 0] }
    (ceng [d]).ce 0 ≠ {} ∧ d.srcSpace = 2 ∧ d.op ≠ 3 ∧ 0 < d.segs ∧
    (((after (.pcieCompletionTimeout 0 0 0) (ceng [d])).ce 0).flight.map (·.cause)) = [0x16]) := by decide +kernel
theorem wit_descriptor_ends : (let d := { cdesc 1 true true with okSegs := [0] }
    d.settled = true ∧ ((after (.descriptorComplete 0) (ceng [d])).ce 0).flight = [] ∧
    (after (.descriptorComplete 0) (ceng [d])).fget (rg .ceStatus) 31 16 = 1) := by decide +kernel

/-- A line of four vertices with link 0, in use towards vertex 1, with the given lanes up. -/
def lat (lanes : Nat) : State := (((State.reset.fset (rg .fctShape) 2 0 2).fset (rg .linkCtl) 0 0 1).setReg (rg .linkStatus) (BitVec.ofNat 64 (0x100 + lanes)))
theorem wit_flits : (lat 3).linkGood 0 = true ∧ ((after (.flitReceive 0 0 true) (lat 3)).link 0).expect = 1 ∧
    (after (.flitReceive 0 0 false) (lat 3)).out = [.linkResend 0 0] ∧ (after (.resendRequest 0 5) (lat 3)).out = [.flitsFrom 0 5] := by
  decide +kernel
theorem wit_lanes : (lat 3).fget (rg .linkStatus) 1 0 / 2 ^ 1 % 2 = 1 ∧ (after (.laneSignalLoss 0 1) (lat 3)).fget (rg .linkStatus) 1 0 = 1 ∧
    (after (.laneFail 0 1) (lat 1)).fget (rg .linkStatus) 2 0 = 4 ∧
    (after (.laneErrorWindow 0 0 64 1 5000) (lat 3)).fget (rg .linkErr) 31 16 = 64 ∧
    (after (.laneErrorWindow 0 0 65 0 1) (lat 3)).fget (rg .linkStatus) 1 0 = 2 ∧
    (after (.laneErrorWindow 0 0 0 1 4999) (lat 3)).fget (rg .linkStatus) 1 0 = 2 := by decide +kernel
theorem wit_lane_retrains : (lat 1).fget (rg .linkStatus) 1 0 / 2 ^ 1 % 2 = 0 ∧ (lat 1).fget (rg .linkCtl) 0 0 = 1 ∧
    (lat 1).fget (rg .linkStatus) 5 5 = 0 ∧ ((lat 1).link 0).probation = [] ∧
    ((after (.retrain 0 2) (lat 1)).link 0).probation = [(1, 0)] ∧
    (let s := ((lat 1).setLink 0 { probation := [(1, 0)] }).updDie (Link.die 0) fun k => { k with time := 1000000000 }
     1000000000 ≤ (s.time (Link.die 0) - 0).toNat ∧ (after (.laneReturn 0 1) s).fget (rg .linkStatus) 1 0 = 3) := by decide +kernel
theorem wit_laser : ({ State.reset with laserA := 0xFE } : State).laserA ||| BitVec.ofNat 8 (2 ^ (0 : Fin 8).val) = 0xFF ∧
    State.reset.laserB = 0xFF ∧ State.reset.laserOut = 0 ∧
    (after (.laserFeedLow 0 false) State.reset).fget (rg .linkCtl 47) 1 1 = 1 ∧
    (after (.laserFeedRestored 0 false) ({ State.reset with laserA := 0xFE }.fset (rg .linkCtl) 1 1 1)).fget (rg .linkCtl) 1 1 = 0 := by decide +kernel
/-- Link 0 trains with its peer 1; with another far end it is miscabled. -/
theorem wit_link_trains : (lat 0).linkPeer 0 = some (0, 1) ∧
    (after (.linkTrainingComplete 0 3 1 0 false) (lat 0)).fget (rg .linkStatus) 4 0 = 3 ∧
    (after (.linkTrainingComplete 0 3 2 0 false) (lat 0)).fget (rg .linkStatus) 4 4 = 1 := by decide +kernel
theorem wit_routes : 2 ≤ (lat 3).dimSize 0 ∧ (lat 3).dimSize 0 ≤ 16 ∧ 1 < (lat 3).dimSize 0 ∧ 1 ≠ coord (lat 3).vertex 0 ∧
    (lat 3).direct (withCoord (lat 3).vertex 0 1) = true ∧ (after .routeUpdate (lat 3)).via 0 1 = 1 ∧
    (after .routeUpdate (lat 3)).via 0 3 = 2 := by decide +kernel
/-- Messages of two classes for vertex 1; a bucket that is full, and one that holds no token. -/
theorem wit_hops : (let s := { lat 3 with out := [.remoteRead 0x100000001000] }
    let p := { lat 3 with out := [.tile 1 0 ⟨[], [], []⟩] }
    ((lat 3).link 0).switching = false ∧ (takeFirst (s.leavesOver 0 2) s.out).isSome = true ∧ (takeFirst (p.leavesOver 0 0) p.out).isSome = true ∧
    (after (.packetHop 0 2 0) s).out = [] ∧ p.fget (rg .fctClassCtl) 48 48 = 0 ∧ p.tc0Lack 0 ≤ 896 ∧
    (p.setLink 0 { tc0Spent := 897 }).tc0Lack 0 = 897 ∧ (after (.packetHop 0 0 0) (p.setLink 0 { tc0Spent := 896 })).out = [] ∧
    (after (.packetHop 0 0 0) (p.setLink 0 { tc0Spent := 897 })).fget (rg .linkErr) 47 32 = 1) := by decide +kernel

theorem wit_chord_flits : (State.reset.chd 3 1).remaps = [] ∧ ((after (.chordFlitReceive 3 1 0 true) State.reset).chd 3 1).expect = 1 ∧
    (after (.chordFlitReceive 3 1 0 false) State.reset).fget (rg .chdErr 3 1) 23 0 = 1 := by decide +kernel
/-- The eighth retry of wire 1 of group 2 within 1 ms; a retry of a wire without others. -/
theorem wit_chord_retries : (let s := State.reset.setChd 3 1 { charges := List.replicate 7 (67, 0) }
    (2 : Fin 48).val < chordGroups 3 1 ∧ 33 * 2 + worstWire ([0, 4].take 33) = 67 ∧ (s.chd 3 1).charges = List.replicate 7 (67, s.time 3) ∧
    ((after (.chordResend 3 1 2 [0, 4]) s).chd 3 1).spareUsed = [2] ∧
    ((after (.chordResend 3 1 2 [0, 4]) State.reset).chd 3 1).charges = [(67, 0)]) := by decide +kernel
theorem wit_chord_wires : (67 : BitVec 11).toNat / 33 < chordGroups 3 1 ∧ 2 ∉ (State.reset.chd 3 1).disabled ∧
    (let s := State.reset.setChd 3 1 { spareUsed := [2], remaps := [2] }
     (after (.chdFailGo 3 1 67) s).fget (rg .chdStatus 3 1) 19 19 = 1 ∧ ((after (.chordRemapComplete 3 1) s).chd 3 1).remaps = []) ∧
    ((after (.chdFailGo 3 1 67) State.reset).chd 3 1).remaps = [2] := by decide +kernel

/-! ## Witnesses: tiles, collectives, repair -/

def hdr0 : TileHeader := { fromVertex := 5, fromLc := 3, toLc := 0, tag := 9, cls := 1, format := 0, rows := 0, cols := 0, elemBytes := 0, scaleBytes := 0, checkBytes := 0 }
/-- A receive of stream 7 that the header fits. -/
def rcv0 : Recv := ⟨7, 5, 3, 9, 2, {}, none⟩
theorem wit_headers : rcv0.matches hdr0 = true ∧ { rcv0 with tag := 8 }.matches hdr0 = false ∧
    (let s := onCore fun k => { k with recvs := [{ rcv0 with tag := 8 }, rcv0] }
     (s.core 0).recvs[1]? = some rcv0 ∧ (after (.tileHeaderArrival hdr0) s).out = [.clearToSend 5 3 9]) ∧
    ((after (.tileHeaderArrival hdr0) s0).core 0).arrivals.map (·.hdr) = [hdr0] := by decide +kernel
/-- A send of an empty tile to vertex 1, which is directly reachable, or to this vertex. -/
def snd0 (v : Vertex) : Send := ⟨0, 7, v, 3, 9, 1, {}, none⟩
theorem wit_clear_to_send : (let s (v : Vertex) := { (lat 3) with ctxs := s0.ctxs, cores := [(0, { streams := [st0], tlb := [tr0], sends := [snd0 v] })] }
    (s 1).canReach 1 = true ∧ (s 3).canReach 3 = false ∧ (s 0).canReach 0 = true ∧
    (let c : Cx := ((s 1).holds 0 7).getD ⟨0, 0⟩
     let p := (snd0 1).desc.tileReads
     (match ((s 1).viewAs c 7).vreads c (p.1 ++ p.2.1 ++ p.2.2) with | .ok _ => true | .error _ => false) = true) ∧
    ((after (.clearToSend 0 0) (s 1)).core 0).sends = [] ∧ ((after (.clearToSend 0 0) (s 3)).core 0).sends = [] ∧
    ((after (.clearToSend 0 0) (s 0)).core 0).sends.map (·.data.isSome) = [true]) := by decide +kernel
/-- A header held for one nanosecond more than match_ms. -/
theorem wit_header_hold : (let s := ((onCore fun k => { k with arrivals := [⟨hdr0, 0⟩] }).fset (rg .fctClassCtl) 47 32 1).updDie (BDie.die (LC.walkDie 0)) fun k => { k with time := 1000001 }
    s.fget (rg .fctClassCtl) 47 32 ≠ 0 ∧ hdr0.fromVertex ≠ s.vertex ∧ (after (.headerHoldTimeout 0 0) s).out = [.headerFailed 5 3 9]) := by
  decide +kernel

/-- A collective line in T2 that expects 2 arrivals and has n, for a barrier over no dimension. -/
def coll (n : Nat) : State := { ddr State.reset with
  mem := [(0x10000000008, 2)] ++ (if n = 0 then [] else [(0x1000000000A, BitVec.ofNat 8 n)]) ++ [(0x1000000000C, 1)] }
def cline : LAddr := 0x10000000000
theorem wit_arrivals : (coll 0).memOk ∧ (coll 1).memOk ∧ collLine cline = true ∧ regionOf cline.toNat = .t2 ∧ (coll 1).tierStatus cline.toNat = none ∧
    (coll 1).poisoned cline = false ∧ ((coll 1).round cline).running = false ∧ bits ((coll 1).collWord cline 1) 31 16 + 1 < 65536 ∧
    ((after (.hartArrival (collDie cline) cline) (coll 0)).round cline).running = false ∧
    ((after (.hartArrival (collDie cline) cline) (coll 1)).round cline).running = true := by
  unfold State.memOk; decide +kernel
theorem wit_context_arrives : (let a := aw .arrival (mkPA 0 cline) true
    let s := { coll 1 with ctxs := [(c0, { k0 with await := some a })], cores := s0.cores }
    ((List.finRange 192).flatMap ctxsOf).find? (s.arrivalReady cline) = some c0 ∧ (s.ctx c0).await = some a ∧ (s.ctx c0).replayDue = false ∧
    ((after (.collectiveArrival cline) s).ctx c0).await = none) := by decide +kernel
/-- A round of an operation of 256 bytes from 0x1000 to 0x2000 of this vertex, 1, with vertices 0, 2 and 3 in dimension 0. -/
def rnd (op dims : Nat) : Round := { running := true, words := [BitVec.ofNat 64 (op * 2 ^ 32 + 1), BitVec.ofNat 64 dims, 0x1000, 256, 0x2000, 0] }
def member (op dims : Nat) : State := ((lat 3).setReg (rg .linkStatus) 3).fset (rg .fctShape) 23 12 1 |>.setRound cline (rnd op dims)
theorem wit_tree_rounds : (let s := member 2 1
    (rnd 2 1).onTree = true ∧ (rnd 2 1).dims = [0] ∧ coord s.vertex 0 ≠ 0 ∧ s.stoppedSeq = false ∧ s.collBad (rnd 2 1) = false ∧
    0 < (rnd 2 1).length ∧ (∀ op ∈ [1, 2, 3, 4, 5, 6], s.collBad (rnd op 1) = false) ∧ (rnd 5 1).root ≠ s.vertex ∧
    (rnd 5 0x1001).root = s.vertex) := by decide +kernel
/-- Every peer of dimension 0 within reach: links 0, 1 and 2 are good, towards vertices 0, 3 and 2. -/
def reach4 (op dims : Nat) : State :=
  let s := member op dims
  let link (s : State) (k v : Nat) : State := (s.fset (rg .linkCtl k) 0 0 1).setReg (rg .linkStatus k) (BitVec.ofNat 64 (256 * v + 3))
  link (link (link s 0 0) 1 3) 2 2
theorem wit_reach : (∀ c ∈ (reach4 1 1).groupPeers 0, (reach4 1 1).canReach ((reach4 1 1).collPeer 0 c) = true) ∧
    ((after (.barrier cline) (reach4 1 1)).round cline).sentUp = true ∧ ((after (.snapshot cline) (reach4 6 1)).round cline).sentUp = true := by
  decide +kernel
theorem wit_contribution : (let s := reach4 2 1
    (match s.readBlocks cline (rnd 2 1) [0] 0 with
     | some (u, _) => decide (u.rounds = s.rounds) && u.vertex = s.vertex && !u.stoppedSeq | none => false) = true) := by decide +kernel
theorem wit_alone : (rnd 1 0).dims = [] ∧ (member 1 0).collBad (rnd 1 0) = false ∧
    ((after (.barrier cline) (member 1 0)).round cline).done = true := by decide +kernel
/-- An empty body, whose CRC-32C is 0, and one with a wrong CRC. -/
def blk (crc : W32) : DigestBlock := ⟨0, 2, 4, true, 0, ⟨[], [], crc⟩⟩
theorem wit_blocks : (∀ x ∈ ([⟨[], [], 0⟩] : List Chunk), crc32c x.data = x.crc) ∧ crc32c (blk 0).body.data = (blk 0).body.crc ∧
    crc32c (blk 1).body.data ≠ (blk 1).body.crc ∧ ((after (.digestBlockReceive cline (blk 0)) (coll 0)).round cline).inbox = [blk 0] ∧
    (after (.digestBlockReceive cline (blk 1)) (coll 0)).out.length = 1 ∧
    ((after (.collectivePartialReceive cline ⟨0, 2, false, true, 0, [⟨[], [], 0⟩]⟩) (coll 0)).round cline).partials.length = 1 := by decide +kernel
theorem wit_marker : (let r := { rnd 6 0 with sentUp := true, words := [0x600000001, 0, 0, 0, 0x10000010000, 0] }
    let s := (ddr State.reset).setRound cline r
    r.op = 6 ∧ (match s.collResult cline 0x10000010000 (List.replicate 9216 0) with
      | some (u, st) => decide (u.rounds = s.rounds) && st = 0 | none => false) = true) := by decide +kernel
theorem wit_round_ends : (let s := (coll 2).setRound cline { rnd 1 0 with done := true }
    s.memOk ∧ (s.round cline).early = 0 ∧ (s.round cline).fail = none ∧
    (after (.roundComplete cline) s).collWord cline 0 = 1 ∧ ((after (.roundComplete cline) s).round cline).running = false) := by
  unfold State.memOk; decide +kernel

/-- A core whose context has been busy without a step for 1 µs. -/
def silent : State := { s0 with dies := [(0, { time := 1000 })] }
theorem wit_heartbeat : (silent.core 0).takeover = none ∧ silent.coreUp 0 = true ∧ 1000 ≤ (silent.now 0 - (silent.core 0).stepAt).toNat ∧
    (ctxsOf 0).any (silent.busySince · 1000) = true ∧
    ((after (.heartbeatTimeout 0) silent).core 0).takeover = some (.probing 1000) := by decide +kernel
/-- Logical core 0 on physical core 4, physical core 9 a spare; the core is being probed. -/
def probed : State := (((onCore fun k => { k with takeover := some (.probing 0) }).setMc 0 4 { role := .active, hosts := [0] }).setMc 0 9 { role := .spare }).fset (rg .coreStatus) 4 0 4
  |>.updDie 0 fun k => { k with time := 600 }
theorem wit_takeover_starts : (probed.mc 0 4).role ≠ .retired ∧ (probed.core 0).takeover = some (.probing 0) ∧ 600 ≤ (probed.now 0 - 0).toNat ∧
    probed.physOf 0 = 4 ∧ (probed.mc 0 4).hosts = [0] ∧ (List.finRange 18).find? (fun x => (probed.mc 0 x).role = .spare && x ≠ 4) = some 9 ∧
    ((after (.probeTimeout 0) probed).core 0).takeover = some (.waking 9) := by decide +kernel
theorem wit_no_takeover : ∀ l, (probed.core l).takeover ≠ some (.waking 4) := by decide +kernel
theorem wit_takeover_ends : (let s := onCore fun k => { k with takeover := some (.waking 9) }
    ((after (.spareWakeComplete 0) s).core 0).takeover = some .catching) ∧
    (let s := onCore fun k => { k with takeover := some .catching }
     (∀ c ∈ ctxsOf 0, (s.ctx c).replayDue = false) ∧ ((after (.replayCatchUp 0) s).core 0).takeover = none) := by decide +kernel
theorem wit_parity : (s0.ctx c0).stream ≠ none ∧ (s0.ctx c0).replayDue = false ∧ s0.coreUp c0.lc = true ∧ (s0.ctx c0).replayWhy = none ∧
    (after (.parityError c0) s0).fget (rg .coreCksCount) 31 16 = 1 := by decide +kernel
/-- An interval that stands at its commit, to be compared. -/
def checked : State := on fun k => { k with check := some ⟨[], 0, [], false⟩, commit := some ⟨0, false, some 0⟩ }
theorem wit_digests : (checked.ctx c0).check = some ⟨[], 0, [], false⟩ ∧ checked.atCheckPoint c0 = true := by decide +kernel
/-- The primary's digest agrees with itself and differs from its successor, whatever it is. -/
theorem wit_digest_values (d : W64) : ∃ x, d ≠ x := ⟨d + 1, by bv_omega⟩
theorem wit_screening : (let s := (({ State.reset with screening := [⟨0, 77⟩] }.setMc 0 1 { role := .spare }).fset (rg .errScreen) 11 8 1)
    s.screening ≠ [] ∧ (∀ x, (s.mc 0 x).screening = none) ∧ (s.mc 0 1).leaving = false ∧ s.imagesUsed 0 < s.freeSpds 0 ∧
    ((after (.screeningRun 0 1) s).mc 0 1).screening = some 0 ∧
    (let u := s.setMc 0 1 { role := .spare, screening := some 0 }
     u.screening[0]? = some ⟨0, 77⟩ ∧ (after (.screeningResult 0 1 77) u).fget (rg .errScreen) 31 16 = 1 ∧
     ((after (.screeningResult 0 1 78) u).mc 0 1).screenRuns = 1)) := by decide +kernel
theorem wit_migration : (let s := s0.setMc 0 (s0.physOf 0) { role := .active, hosts := [0], leaving := true }
    (s.mc (LC.cdie c0.lc) (s.physOf c0.lc)).leaving = true ∧ (s.ctx c0).stream ≠ none ∧ (s.ctx c0).sinceCommit = 0 ∧ (s.ctx c0).commit = none ∧
    (s.ctx c0).await = none ∧ c0 ∉ (s.mc (LC.cdie c0.lc) (s.physOf c0.lc)).moved ∧
    ((after (.plannedMigration c0) s).ctx c0).replayDue = true) := by decide +kernel

/-- Two held records, one kept behind them, and a queue of 64 records. -/
theorem wit_records : (let e : ErrRec := { cls := 6, index := 0, action := 1 }
    let s := { State.reset with errHeld := [e, e], errKept := [{ e with cls := 7 }] }.setReg (rg .errLogBase) 0x8000000000000000
    s.errRoom = true ∧ (after .errorRecordWrite s).fget (rg .errLogHead) 31 0 = 1 ∧
    (after .errorRecordWrite s).errHeld.map (·.cls) = [6, 7]) := by decide +kernel
/-- One entry that has waited for 10 s, and an empty ledger; the digest of its block is not computed. -/
theorem wit_ledger : (let e : LedgerEntry := ⟨1, 0, 0, 0, 0, 0, 0, 0, 0, 0⟩
    let s := { State.reset with ledgerPending := [e], dies := [(16, { time := 10000000000 })] }
    s.ledgerPending ≠ [] ∧ s.idFail = false ∧ s.fw.handoff = false ∧ s.flash.active.length < 64 ∧
    10000000000 ≤ (s.time hd - s.ledgerSince).toNat) := by decide +kernel

/-! ## Witnesses: power, security, start-up, monitors, mailbox, registers -/

/-- Logical core 0's unit is enabled, in a state. -/
def ust (k : Nat) (tol : Nat := 0xFFFFFFFF) : State := ((State.reset.fset (rg .unitCtl) 31 0 tol).fset (rg .unitCtl) 32 32 1).fset (rg .unitStatus) 2 0 k
/-- With an entry toward Q1 under way, in its prepare or its switch phase. -/
def entry (sw : Nat) (off : Bool) : State := (((ust 0).fset (rg .unitStatus) 4 4 1).fset (rg .unitStatus) 5 5 sw).setUnit 0 { target := 1, byDisable := off }
theorem wit_entries : (ust 0).isWaking 0 = false ∧ ((ust 0).unit 0).queued = false ∧ (ust 0).stoppedSeq = false ∧ (ust 0).entering 0 = false ∧ (ust 0).unitEn 0 = true ∧
    (ust 0).nextState 0 ≠ none ∧ (entry 0 false).prepared 0 = true ∧ ((entry 0 false).unit 0).target < 5 ∧
    ((entry 0 false).unit 0).wakeAfter = false ∧ (after (.quiescenceEntry 0) (entry 0 false)).switching 0 = true ∧
    (after (.entryComplete 0) (entry 1 false)).ustate 0 = 1 := by decide +kernel
theorem wit_wakes : (entry 0 false).switching 0 = false ∧ (entry 1 false).switching 0 = true ∧
    (after (.unitWake 0) (entry 0 false)).entering 0 = false ∧ ((after (.unitWake 0) (entry 1 false)).unit 0).wakeAfter = true ∧
    (ust 4).entering 0 = false ∧ (ust 4).ustate 0 ≠ 0 ∧ PUnit.domains 0 4 = 2 ∧ (ust 4).powering (PUnit.die 0) + 2 ≤ 4 ∧
    (after (.unitWake 0) (ust 4)).isWaking 0 = true ∧ (ust 2).powering (PUnit.die 0) + PUnit.domains 0 2 ≤ 4 ∧
    (after (.tolWrite 0 5) (ust 2)).isWaking 0 = true := by decide +kernel
/-- Cores 1 and 2 of the die power up from Q4: core 0 waits for them. -/
theorem wit_wake_waits : (let s := ((((ust 4).fset (rg .unitStatus 1) 2 0 4).fset (rg .unitStatus 1) 6 6 1).fset (rg .unitStatus 2) 2 0 4).fset (rg .unitStatus 2) 6 6 1
    4 < s.powering (PUnit.die 0) + PUnit.domains 0 (s.ustate 0) ∧ ((after (.unitWake 0) s).unit 0).queued = true) := by decide +kernel
theorem wit_wake_ends : (let s := ((ust 2).fset (rg .unitStatus) 6 6 1).updDie 0 fun k => { k with time := 16000 }
    s.isWaking 0 = true ∧ (s.unit 0).offAfter = false ∧ ((List.finRange 312).all fun v => !(s.unit v).queued) = true ∧ (s.core 0).sqHeld = [] ∧
    (after (.wakeComplete 0) s).ustate 0 = 0 ∧ s.isWaking (LC.unit 0) = true ∧ (s.mc (LC.cdie 0) (s.physOf 0)).role ≠ .retired ∧
    200 * wakeUnits (s.ustate (LC.unit 0)) ≤ (s.now 0 - (s.unit (LC.unit 0)).wakeAt).toNat) := by decide +kernel
theorem wit_disable : ((entry 0 true).unit 0).byDisable = true ∧ (after (.unitEnable 0) (entry 0 true)).fget (rg .unitStatus) 7 7 = 1 ∧
    (ust 0).fget (unitSt 0) 7 7 = 0 ∧ (PUnit.states 0).find? ((ust 0).ustate 0 < ·) = some 1 ∧ ((ust 0).core 0).streams = [] ∧
    (after (.unitDisable 0) (ust 0)).entering 0 = true ∧ (s0.core 0).streams ≠ [] ∧
    (after (.unitDisable 0) s0).fget (rg .unitStatus) 8 8 = 1 := by decide +kernel

/-- Supplies all at a voltage. -/
def volts (mv : Nat) : State := { State.reset with dies := (List.range 12).map fun d => (Fin.ofNat 17 d, { supplyMv := mv }) }
theorem wit_cap : State.reset.fw.handoff = false ∧ State.reset.stackHold = false ∧ (∃ d ∈ cdies, (volts 720).supplyFloor d < (volts 720).mv d) ∧
    (∀ d ∈ cdies, (volts 550).mv d ≤ (volts 550).supplyFloor d) ∧ (volts 550).effCap < 8000 ∧ 100 < (volts 550).effCap ∧
    (∀ d ∈ cdies, (volts 550).fget (rg .gap d) 32 32 = 0 ∧ (volts 550).mv d ≤ 550) ∧
    (after (.capEvaluation 8000 8000) (volts 720)).mv 11 = 715 := by decide +kernel
/-- A group member of a line of four vertices, with an effective cap of 4,000 W. -/
def grp : State := ((State.reset.fset (rg .fctShape) 2 0 2).setReg (rg .shiftCtl) (BitVec.ofNat 64 (1 + 7 * 2 ^ 16 + 10 * 2 ^ 28 + 2000 * 2 ^ 36 + 6000 * 2 ^ 49))).fset (rg .capStatus) 28 16 4000
def msg (slack : Nat) : CreditMsg := ⟨1, 7, BitVec.ofNat 32 slack, 4000, true, false⟩
theorem wit_group : grp.inGroup = true ∧ grp.partner 0 = some 1 ∧ grp.shiftTheirs = none ∧ State.reset.inGroup = false ∧
    (msg 5).refusal = false ∧ grp.fget (rg .shiftCtl) 27 16 = (msg 5).group.toNat ∧ grp.fget (rg .shiftCtl) 27 16 ≠ 8 ∧
    (let s := { grp with shiftMine := some (1, msg 1006) }
     s.minW + s.stepW ≤ s.fget (rg .capStatus) 28 16 ∧ (msg 5).effCap.toNat + s.stepW ≤ s.maxW ∧
     (after (.powerCreditMessage (msg 5)) s).fget (rg .capStatus) 28 16 = 3990 ∧
     (after (.powerCreditMessage (msg 6)) s).fget (rg .capStatus) 28 16 = 4000 ∧
     (after (.powerCreditMessage { msg 5 with refusal := true }) s).shiftMine = none) ∧
    (after (.creditArrival 1 10) grp).fget (rg .capStatus) 28 16 = 4010 ∧
    (after (.reconciliation 10 25 2 true) grp).fget (rg .capStatus) 28 16 = 4008 := by decide +kernel
/-- A slack of 10 ns over two samples of monitor 0. -/
theorem wit_slack : (let s := (grp.fset (rg .monRes) 63 32 2).setReg (rg .monRSum) 10
    s.inGroup = true ∧ s.partner s.shiftPhase = some 1 ∧ s.shiftTheirs = none ∧ s.fget (rg .monRes (s.fget (rg .shiftCtl) 15 8)) 63 32 ≠ 0 ∧
    ((after .powerCreditExchange s).shiftMine.map fun x => x.2.slackNs) = some 5) := by decide +kernel
/-- Every die at both floors for 1 ms. -/
def floored : State :=
  let s := (List.range 12).foldl (fun s d => (s.fset (rg .gap d) 31 0 gapFloor).fset (rg .gap d) 32 32 1) (volts 550)
  { s with floorSince := some 0, dies := (16, { time := 1000000 }) :: s.dies }
theorem wit_floor : floored.allFloor = true ∧ floored.stackHold = false ∧ 1000000 ≤ (floored.time hd - 0).toNat ∧ floored.effCap < 8000 ∧
    (after (.capEvaluation 8000 8000) floored).pins.capUnmet = true ∧
    (after (.capEvaluation 8000 8000) { floored with floorSince := some 1 }).pins.capUnmet = false := by decide +kernel
/-- The edges of throttling: 95 °C and 92 °C are 380 and 368 quarter degrees. -/
theorem wit_heat : (380 : Int) ≤ (380 : W16).toInt ∧ (after (.thermalSample 12 380) State.reset).fget (rg .therm 12) 33 32 = 3 ∧
    (after (.thermalSample 12 379) State.reset).fget (rg .therm 12) 32 32 = 0 ∧
    (after (.thermalSample 12 368) (State.reset.fset (rg .therm 12) 32 32 1)).fget (rg .therm 12) 32 32 = 0 ∧
    (after (.thermalSample 12 369) (State.reset.fset (rg .therm 12) 32 32 1)).fget (rg .therm 12) 32 32 = 1 ∧
    (volts 720).supplyFloor 0 < (volts 720).mv 0 ∧ (volts 720).fget (rg .therm 0) 32 32 = 0 := by decide +kernel
/-- The part out of its package reset. -/
def up : State := { State.reset with pins := { State.reset.pins with pkgReset := false } }
theorem wit_stop : up.pins.pkgReset = false ∧ (after (.coolantFail 2000) up).stoppedSeq = true ∧ (after (.coolantFail 499) up).stoppedSeq = false ∧
    (after .stopRailRelease { up with stoppedSeq := true, mem := [(5, 1), (0x10000000000, 2)] }).mem = [(0x10000000000, 2)] := by decide +kernel

theorem wit_security : up.fget (rg .secResult) 8 8 = 0 ∧ (1 : BitVec 3).toNat < 4 ∧ 4 ≤ (5 : BitVec 3).toNat ∧ up.fget (rg .secArg) 31 0 = 0 ∧ up.idFail = false ∧
    (up.fset (rg .secStatus) 1 1 1).idFail = true ∧ (match up.secRead 64 with | (_, .ok _) => true | _ => false) = true ∧
    (match up.secRead 8 with | (_, .ok _) => true | _ => false) = true ∧ (up.fset (rg .secArg) 31 0 8).fget (rg .secArg) 31 0 ≠ 0 ∧
    up.slotRead 3 = false ∧ (up.setReg (rg .secResult) 0x100).fget (rg .secResult) 8 8 = 1 ∧
    (let d := { cdesc 2 true true with key := some 5, words := [0x52, 0x1000, 0x2000, 8, 3, 0, 0, 0] }
     (ceng [d]).slotRead 3 = true ∧ (after (.clearSlot 3) (ceng [d])).fget (rg .secResult) 8 8 = 1) := by decide +kernel
theorem wit_blob : (match up.secRead 1696 with | (_, .ok _) => true | _ => false) = true := by decide +kernel
/-- A report body of any bytes of its length fits the memory at SEC_ADDR. -/
theorem wit_report : (match up.scatter (.mgmt 0) .normal (physPieces 0x1000 9000) (List.replicate 9000 0) with | (_, none) => true | _ => false) = true := by
  decide +kernel

/-- The part at a stage of its start-up. -/
def stage (k : Nat) : State := up.fset (rg .bootStatus) 3 0 k
def rom (edges : Nat) (flash a b : Bool) : BootRomInput := ⟨edges, true, flash, a, b, 0⟩
theorem wit_boot_rom : (stage 0).atStage 0 = true ∧ (after (.bootRomStage (rom 9499 true true true)) (stage 0)).fget (rg .bootStatus) 15 8 = 1 ∧
    (after (.bootRomStage (rom 9500 false true true)) (stage 0)).fget (rg .bootStatus) 15 8 = 8 ∧
    (after (.bootRomStage (rom 10500 true false false)) (stage 0)).fget (rg .bootStatus) 15 8 = 4 ∧
    (after (.bootRomStage (rom 10500 true false true)) (stage 0)).fget (rg .bootStatus) 3 0 = 1 ∧
    (after (.bootRomStage (rom 9500 true true true)) ((stage 0).fset (rg .bootStraps) 13 12 2)).fget (rg .bootStatus) 15 8 = 2 ∧
    (let s := (stage 0).fset (rg .bootStraps) 13 12 1
     s.fw.firstStageLoaded = false ∧ gives (.bootRomStage (rom 9500 true true true)) s s = true) := by decide +kernel
def image (v : Bool) : FwImage := ⟨v, true, 0, 3⟩
theorem wit_first_stage : (stage 1).atStage 1 = true ∧ (stage 1).flash.bootBank = false ∧
    (after (.firstStage ⟨true, image true, image true⟩) (stage 1)).fget (rg .bootStatus) 3 0 = 2 ∧
    (after (.firstStage ⟨true, image false, image true⟩) (stage 1)).fget (rg .bootFwStatus) 1 0 = 1 ∧
    (after (.firstStage ⟨true, image false, image false⟩) (stage 1)).fget (rg .bootStatus) 15 8 = 5 := by decide +kernel
theorem wit_stages : (∀ k ∈ [2, 3, 4, 5, 6, 7, 8, 9, 10], (stage k).atStage k = true) ∧ (stage 4).led = [] ∧
    (after .ledgerRead (stage 2)).fget (rg .bootStatus) 3 0 = 3 ∧ (after (.railSequence true) (stage 3)).pins.vrCd = true ∧
    (after (.railSequence false) (stage 3)).fget (rg .bootStatus) 15 8 = 3 ∧
    (after (.selfTest []) (stage 5)).fget (rg .bootStatus) 3 0 = 6 := by decide +kernel
theorem wit_assignment : (∀ d : CDie, 16 ≤ ((List.finRange 18).filter fun m => (stage 6).coreGood d m && !(stage 6).outOfService 2 d.val m.val none).length) := by
  decide +kernel
def dimm : Dimm := ⟨false, 1, 2, 64, [6400]⟩
theorem wit_memory : (after .jahelTraining { stage 7 with mem := [(3, 1)] }).mem = [] ∧ (stage 8).atStage 8 = true ∧
    (after (.ddrTraining [some dimm] true) (stage 8)).fget (rg .bootStatus) 15 8 = 6 ∧
    ((List.range 12).filter fun i => ((List.replicate 12 (some dimm)).getD i none).isSome) = List.range 12 := by decide +kernel
theorem wit_facet : (stage 9).fget (rg .linkStatus) 5 5 = 1 ∧ ((stage 9).fset (rg .linkStatus) 5 5 0).fget (rg .linkStatus) 5 5 = 0 ∧
    (stage 9).led ++ (stage 9).ledgerPending = [] := by decide +kernel
theorem wit_host_start : (∀ lc, ((stage 10).core lc).sqHeld = []) ∧ (after (.hostStart [] 0) (stage 10)).fget (rg .bootStatus) 4 4 = 1 := by decide +kernel

/-- The part ready. -/
def rdy : State := (stage 15).fset (rg .bootStatus) 4 4 1
theorem wit_resets : (after (.packageColdReset false) rdy).fget (rg .bootStatus) 7 5 = 2 ∧ gives (.pkgResetNAssert 999) rdy rdy = true ∧
    (after (.pkgResetNAssert 10000) rdy).pins.pkgReset = true ∧ (after (.pkgResetNRelease 0x3000) State.reset).fget (rg .bootStraps) 15 0 = 0x3000 ∧
    (after (.packageWarmReset false) { rdy with mem := [(3, 1)] }).mem = [] ∧ (after (.railFault 3) (stage 3)).fget (rg .bootStatus) 15 8 = 3 ∧
    up.epPort = none ∧ (up.fset (rg .bootStraps) 8 8 1).epPort.isSome = true := by decide +kernel
theorem wit_domain_resets : (after (.perDomainReset 191) rdy).fget (rg .bootReset) 39 32 = 2 ∧ (after (.perDomainReset 192) rdy).fget (rg .bootReset) 39 32 = 0 ∧
    (after (.perDomainReset 360) rdy).fget (rg .bootReset) 39 32 = 1 ∧ (after (.perDomainReset 224) rdy).fget (rg .bootReset) 39 32 = 2 ∧
    (after (.perDomainReset 288) rdy).fget (rg .bootReset) 39 32 = 0 ∧ ((after (.perCoreReset 0) { rdy with ctxs := s0.ctxs, cores := s0.cores }).core 0).streams = [] ∧
    (after .hostCoreComplexReset rdy).fget (rg .secStatus) 31 16 = 1 := by decide +kernel
theorem wit_lattice_resets : rdy.latticeSeen ≠ some 4 ∧ (after .latticeReset rdy).latticeSeqSent = 1 ∧ (rdy.fset (rg .bootCtl) 0 0 0).fget (rg .bootCtl) 0 0 = 0 ∧
    (after (.latticeResetReceive 0 4) (rdy.fset (rg .bootCtl) 0 0 0)).fget (rg .bootCtl) 23 8 = 4 ∧
    gives (.latticeResetReceive 0 4) { rdy with latticeSeen := some 4 } { rdy with latticeSeen := some 4 } = true ∧
    (after (.latticeResetReceive 0 4) rdy).fget (rg .bootStatus) 7 5 = 4 := by decide +kernel
theorem wit_firmware : rdy.fget (rg .bootFwStatus) 3 3 = 0 ∧ (after (.fwSwitch (image true)) rdy).fw.image = some (image true) ∧
    (after (.fwSwitch (image false)) rdy).fget (rg .bootFwStatus) 15 8 = 1 ∧
    (after (.handoff 5) { rdy with fw := { rdy.fw with image := some (image true), handoff := true } }).fget (rg .bootFwStatus) 2 2 = 1 ∧
    (let p := (rdy.fset (rg .bootFwStatus) 2 2 1).updDie hd fun k => { k with time := 0xFFFFFFFFFFFF }
     (after .fwCommit p).fget (rg .bootFwStatus) 2 2 = 0 ∧ (after .probationEnd p).fget (rg .bootFwStatus) 2 2 = 0 ∧
     (after .watchdogExpiry p).fget (rg .bootFwStatus) 5 5 = 1) := by decide +kernel

/-- Monitor 0, armed, its window open over a source. -/
def watched (k : MonSt) (now : Nat) : State := ((State.reset.fset (rg .monCtl) 16 16 1).setMon 0 k).updDie (Mon.die 0) fun x => { x with time := BitVec.ofNat 64 now }
def win : MonSt := { opened := true, src := 0x10, index := 0, start := 100, lenUs := 1, bins := List.replicate 32 0 }
theorem wit_monitors : (after (.monitorArm 0) State.reset).fget (rg .monCtl) 16 16 = 1 ∧ win.stop = 1100 ∧
    ((after (.monitorWindowOpen 0) (watched { armAt := 50 } 50)).mon 0).start = 50 ∧
    ((after (.monitorWindowClose 0) (watched win 1100)).mon 0).opened = false ∧
    gives (.monitorWindowClose 0) (watched win 1099) (watched win 1099) = true ∧
    (after (.monitorDisarm 0) (watched win 500)).fget (rg .monRes) 16 16 = 1 ∧
    ((after (.monitorWindowClose 0) ((watched win 1100).fset (rg .monCtl) 17 17 1)).mon 0).start = 1100 := by decide +kernel
theorem wit_samples : Mon.source 0 0x10 0 = 0x10 ∧ 500 + 2 < win.stop.toNat ∧ ((after (.monitorSample 0 0x10 7 false) (watched win 500)).mon 0).sum = 7 ∧
    ((after (.monitorSample 0 0x10 7 false) (watched win 1102)).mon 0).count = 1 ∧ (0x11 : W8) ≠ Mon.source 0 0x10 0 ∧
    ((after (.monitorSample 0 0x10 7 true) (watched win 1098)).mon 0).opened = false := by decide +kernel

theorem wit_mailbox : up.mbBusy = false ∧ up.fw.handoff = false ∧ mbArgOk 0x02 0 = false ∧ mbArgOk 0x02 1 = true ∧ up.mbAllowed 0x02 1 = true ∧
    up.mbAllowed 0x10 0 = false ∧ (after (.mbStatus .smbus) up).mb.output.length = 4 ∧ (after (.readErrorRecords .harts 0) up).fget mbSt 15 8 = 2 ∧
    (after (.latticeConfiguration .pcie) up).fget mbSt 55 32 = 2 ∧
    (after (.mbStatus .i3c) { up with fw := { up.fw with handoff := true } }).mb.waits = true ∧
    (after (.resetCommand .harts 1) up).fget (rg .bootStatus) 7 5 = 2 ∧
    (let b := { up with mb := { up.mb with owner := .pcie, op := 0x30 } }.setReg mbSt 0x0000000200020001
     b.mbBusy = true ∧ (after (.mbDataWrite .pcie 9) b).fget mbSt 55 32 = 1 ∧ gives (.mbDataWrite .harts 9) b b = true ∧
     (after (.mbAbort .pcie) b).fget mbSt 15 8 = 6 ∧
     (after (.mbDataWrite .pcie 9) (b.setReg mbSt 0x0000000100010001)).latticeCfg = some 9 ∧
     (after (.mbDataWrite .pcie 9) (b.setReg mbSt 1)).fget mbSt 15 8 = 5 ∧
     (let r := { b with mb := { b.mb with output := [4, 5] } }
      (after (.mbDataRead .pcie) r).out = [.readData 4] ∧ (after (.mbDataRead .pcie) { r with mb := { r.mb with output := [5] } }).mbBusy = false) ∧
     (after .mailboxTimeout (b.updDie hd fun k => { k with time := 1000000000 })).fget mbSt 15 8 = 6) := by decide +kernel
theorem wit_bus : up.mgtAnswers = true ∧ up.mgt = .smbus ∧ (after (.setdasa 9) up).mgt = .i3c 9 ∧ (after (.entdaa 9) { up with mgt := .i3c 3 }).mgt = .i3c 3 ∧
    (after .tapExtest up).tap = .bypass ∧ (after .tapExtest State.reset).tap = .extest := by decide +kernel

/-- `PACE_CTL` of die 0, an offset of its page without a register, a hole, a wrong size, and a register read by 4 bytes. -/
theorem wit_registers : (match up.agentAccess (.hart 0) 0xE0000030018 8 with | .reg r _ _ => decide (r.kind = .paceCtl) | _ => false) = true ∧
    up.agentAccess (.hart 0) 0xE0008800000 8 = .hole ∧ up.agentAccess (.hart 0) 0xE00000300F0 8 = .nothing ∧
    up.agentAccess (.hart 0) 0xE0000030018 2 = .badSize ∧
    (match up.agentAccess (.hart 0) 0xE0000030018 4 with | .reg _ _ _ => true | _ => false) = true ∧
    (after (.registerWrite (.hart 0) 0xE0000030018 .eight 0xFFFFFFFFFFFFFFFF) up).reg (rg .paceCtl) = 0xFFFFFFFF00000001 ∧
    (after (.rcFieldRead (.hart 0) 0xE0000030018 .eight) up).out = [.readData 0x0180000000000000] := by decide +kernel
/-- Disabling a unit manages; an instruction does not. -/
theorem test_manages : Instr.manages (.unitDisable 0) = true ∧ Instr.manages (.add c0 f0) = false ∧
    (match exec (.unitDisable 0) up with | .next _ => true | _ => false) = true := by decide +kernel

end Sys2Proof.Tests
end

section
/-! SUPPORT and PROOF of the register accesses: the fields of a register as masks, what a store by field types does to each type, and
what a write, a read and a failed access of register space answer. -/

namespace Sys2Proof.Machine

/-! ## The fields of a register as masks -/

/-- No two fields of a register table share a bit. -/
theorem RegKind.fields_pairwise_disjoint (k : RegKind) : k.fields.Pairwise fun f g => f.mask &&& g.mask = 0 := by
  cases k <;> decide

theorem Field.getLsbD_foldl_mask (p : Field → Prop) [DecidablePred p] (fs : List Field) (m : W64) (n : Nat) :
    (fs.foldl (fun m f => if p f then m ||| f.mask else m) m).getLsbD n = true ↔
      m.getLsbD n = true ∨ ∃ f ∈ fs, p f ∧ f.mask.getLsbD n = true := by
  induction fs generalizing m with
  | nil => simp
  | cons f fs ih =>
    rw [List.foldl_cons, ih]
    by_cases hf : p f <;> simp [hf, or_assoc]

/-- The bits of `maskOf` are those of the fields that have one of the types. -/
theorem RegKind.getLsbD_maskOf (k : RegKind) (ts : List FType) (n : Nat) :
    (k.maskOf ts).getLsbD n = true ↔ ∃ f ∈ k.fields, f.ty ∈ ts ∧ f.mask.getLsbD n = true := by
  rw [RegKind.maskOf, Field.getLsbD_foldl_mask]
  simp

/-- Fields of different types lie apart. -/
theorem RegKind.maskOf_and_maskOf (k : RegKind) {ts us : List FType} (h : ∀ t ∈ ts, t ∉ us) :
    k.maskOf ts &&& k.maskOf us = 0 := by
  refine BitVec.eq_of_getLsbD_eq fun n _ => ?_
  refine (Bool.eq_false_iff.2 fun hn => ?_).trans BitVec.getLsbD_zero.symm
  rw [BitVec.getLsbD_and, Bool.and_eq_true, RegKind.getLsbD_maskOf, RegKind.getLsbD_maskOf] at hn
  obtain ⟨⟨f, hf, hft, hfn⟩, g, hg, hgu, hgn⟩ := hn
  have hne : f ≠ g := fun e => h f.ty hft (e ▸ hgu)
  have hsymm : Std.Symm fun f g : Field => f.mask &&& g.mask = 0 := ⟨fun f g hfg => by rwa [BitVec.and_comm]⟩
  have hfg : f.mask &&& g.mask = 0 := k.fields_pairwise_disjoint.forall hf hg hne
  have hbit := congrArg (BitVec.getLsbD · n) hfg
  simp [hfn, hgn] at hbit

/-! ## A store by the types of the fields -/

section
variable {w c m x v : W64}

/-! A store gives `((x &&& ~~~w) ||| (v &&& w)) &&& ~~~c`: `w` are the bits it replaces, `c` those it clears, `m` those looked at. -/

theorem and_mask_of_taken (hw : w &&& m = m) (hc : c &&& m = 0) :
    (((x &&& ~~~w) ||| (v &&& w)) &&& ~~~c) &&& m = v &&& m := by
  ext n hn
  have hw := congrArg (·[n]) hw
  have hc := congrArg (·[n]) hc
  simp at hw hc ⊢
  grind

theorem and_mask_of_kept (hw : w &&& m = 0) :
    (((x &&& ~~~w) ||| (v &&& w)) &&& ~~~c) &&& m = (x &&& ~~~c) &&& m := by
  ext n hn
  have hw := congrArg (·[n]) hw
  simp at hw ⊢
  grind

theorem and_not_and_mask_self : (x &&& ~~~(m &&& v)) &&& m = (x &&& ~~~v) &&& m := by
  ext n hn
  simp
  grind

theorem and_not_and_mask_of_disjoint (hc : c &&& m = 0) : (x &&& ~~~c) &&& m = x &&& m := by
  ext n hn
  have hc := congrArg (·[n]) hc
  simp at hc ⊢
  grind

end

variable (s : State) (r : Reg)

/-- The bits of a register that a write replaces: its RW fields, and its RWL fields while no lock keeps them (R14, R15). -/
def State.replaced : W64 := r.kind.maskOf [.rw] ||| (if s.locked r then 0 else r.kind.maskOf [.rwl])

/-- A store of all 64 bits: the replaced bits take the value, and W1C bits written with 1 are cleared. -/
theorem State.reg_regStore_allOnes (v : W64) : (s.regStore r (BitVec.allOnes 64) v).reg r =
    ((s.reg r &&& ~~~s.replaced r) ||| (v &&& s.replaced r)) &&& ~~~(r.kind.maskOf [.w1c] &&& v) := by
  simp only [State.regStore, State.reg_setReg, State.replaced, BitVec.and_allOnes]

theorem State.reg_regStore_ne {r r' : Reg} (m v : W64) (h : r' ≠ r) : (s.regStore r m v).reg r' = s.reg r' :=
  s.reg_setReg_ne _ h

@[simp] theorem State.regStore_mem (m v : W64) : (s.regStore r m v).mem = s.mem := rfl
@[simp] theorem State.regStore_out (m v : W64) : (s.regStore r m v).out = s.out := rfl

theorem State.replaced_and_maskOf_rw : s.replaced r &&& r.kind.maskOf [.rw] = r.kind.maskOf [.rw] := by
  ext n hn
  simpa [State.replaced] using Or.inl

theorem State.replaced_and_maskOf_rwl :
    s.replaced r &&& r.kind.maskOf [.rwl] = if s.locked r then 0 else r.kind.maskOf [.rwl] := by
  have h : r.kind.maskOf [.rw] &&& r.kind.maskOf [.rwl] = 0 := RegKind.maskOf_and_maskOf _ (by decide)
  rw [State.replaced, BitVec.and_or_distrib_right, h]
  split <;> simp

/-- A write replaces nothing but RW and RWL fields. -/
theorem State.replaced_and_maskOf_other {ts : List FType} (hrw : FType.rw ∉ ts) (hrwl : FType.rwl ∉ ts) :
    s.replaced r &&& r.kind.maskOf ts = 0 := by
  have h : r.kind.maskOf [.rw] &&& r.kind.maskOf ts = 0 := RegKind.maskOf_and_maskOf _ (by simpa using hrw)
  have h' : r.kind.maskOf [.rwl] &&& r.kind.maskOf ts = 0 := RegKind.maskOf_and_maskOf _ (by simpa using hrwl)
  rw [State.replaced, BitVec.and_or_distrib_right, h]
  split <;> simp [h']

/-- A write clears no bit of a field that is not W1C. -/
theorem RegKind.w1c_and_maskOf (k : RegKind) (v : W64) {ts : List FType} (h : FType.w1c ∉ ts) :
    (k.maskOf [.w1c] &&& v) &&& k.maskOf ts = 0 := by
  have hd : k.maskOf [.w1c] &&& k.maskOf ts = 0 := k.maskOf_and_maskOf (by simpa using h)
  rw [BitVec.and_assoc, BitVec.and_comm v, ← BitVec.and_assoc, hd]
  exact BitVec.zero_and

theorem State.regStore_rw (v : W64) :
    (s.regStore r (BitVec.allOnes 64) v).reg r &&& r.kind.maskOf [.rw] = v &&& r.kind.maskOf [.rw] := by
  rw [State.reg_regStore_allOnes]
  exact and_mask_of_taken (s.replaced_and_maskOf_rw r) (r.kind.w1c_and_maskOf v (by decide))

theorem State.regStore_rwl (v : W64) : (s.regStore r (BitVec.allOnes 64) v).reg r &&& r.kind.maskOf [.rwl] =
    (if s.locked r then s.reg r else v) &&& r.kind.maskOf [.rwl] := by
  have hw := s.replaced_and_maskOf_rwl r
  have hc : (r.kind.maskOf [.w1c] &&& v) &&& r.kind.maskOf [.rwl] = 0 := r.kind.w1c_and_maskOf v (by decide)
  rw [State.reg_regStore_allOnes]
  by_cases hl : s.locked r = true
  · rw [if_pos hl] at hw ⊢
    rw [and_mask_of_kept hw, and_not_and_mask_of_disjoint hc]
  · rw [if_neg hl] at hw ⊢
    exact and_mask_of_taken hw hc

theorem State.regStore_w1c (v : W64) : (s.regStore r (BitVec.allOnes 64) v).reg r &&& r.kind.maskOf [.w1c] =
    (s.reg r &&& ~~~v) &&& r.kind.maskOf [.w1c] := by
  rw [State.reg_regStore_allOnes, and_mask_of_kept (s.replaced_and_maskOf_other r (by decide) (by decide)),
    and_not_and_mask_self]

theorem State.regStore_other (v : W64) {ts : List FType} (hrw : FType.rw ∉ ts) (hrwl : FType.rwl ∉ ts) (hw1c : FType.w1c ∉ ts) :
    (s.regStore r (BitVec.allOnes 64) v).reg r &&& r.kind.maskOf ts = s.reg r &&& r.kind.maskOf ts := by
  rw [State.reg_regStore_allOnes, and_mask_of_kept (s.replaced_and_maskOf_other r hrw hrwl),
    and_not_and_mask_of_disjoint (r.kind.w1c_and_maskOf v hw1c)]

/-! ## The mailbox's note of its owner's access changes no register, memory or message (R708) -/

section
variable (p : MbPath) (k : RegKind)

/-- The touch of an access changes the mailbox at most. -/
theorem State.mbTouch_eq : ∃ mb, s.mbTouch p k = { s with mb } := by
  rw [State.mbTouch]
  split
  · exact ⟨_, rfl⟩
  · exact ⟨s.mb, rfl⟩

@[simp] theorem State.mbTouch_reg : (s.mbTouch p k).reg r = s.reg r := by
  obtain ⟨mb, h⟩ := s.mbTouch_eq p k
  rw [h]
  rfl

@[simp] theorem State.mbTouch_mem : (s.mbTouch p k).mem = s.mem := by
  obtain ⟨mb, h⟩ := s.mbTouch_eq p k
  rw [h]

@[simp] theorem State.mbTouch_out : (s.mbTouch p k).out = s.out := by
  obtain ⟨mb, h⟩ := s.mbTouch_eq p k
  rw [h]

@[simp] theorem State.mbTouch_locked : (s.mbTouch p k).locked r = s.locked r := by
  obtain ⟨mb, h⟩ := s.mbTouch_eq p k
  rw [h]
  rfl

@[simp] theorem State.mbTouch_regView : (s.mbTouch p k).regView r = s.regView r := by
  obtain ⟨mb, h⟩ := s.mbTouch_eq p k
  rw [h]
  rfl

end

/-! ## What a write and a read of a register do -/

/-- The registers of which a write has an effect of its own, or is a command (the register tables). -/
def RegKind.special : List RegKind :=
  [.coreCtl, .coreCksCtl, .coreOcCtl, .sqCmd, .lcSnap, .shiftCtl, .unitCtl, .xltResolve, .xltInvVa, .xltInvCmd,
    .tierCntCmd, .tierCharge, .jsCtl, .mscCtl, .mscWays, .ceCtl, .ceDb, .linkCtl, .fctShape, .fctDetour, .fctArrive, .chdCtl,
    .secCmd, .bootReset, .bootFwCtl, .monCtl, .mbCmd, .mbData]

/-- A write of a register without an effect of its own is a store by the types of its fields (R14, R15). -/
theorem State.regWrite_of_not_special (g : Agent) (v : W64) (h : r.kind ∉ RegKind.special) :
    s.regWrite g r v = (s.mbTouch (Agent.path g) r.kind).regStore r (BitVec.allOnes 64) v := by
  unfold State.regWrite
  split
  case h_29 => rfl
  all_goals
    next hk => exact absurd (hk ▸ by decide) h

/-- A read of any register but `MB_DATA`: its readable bits, and its RC fields within the bits read are cleared (R14, R16, R719). -/
theorem State.regRead_of_ne_mbData (g : Agent) (m : W64) (h : r.kind ≠ .mbData) : s.regRead g r m =
    (if r.kind.cleared m = 0 then s else s.setReg r (s.reg r &&& ~~~r.kind.cleared m),
      s.regView r &&& r.kind.readMask &&& m) := by
  unfold State.regRead
  split
  · contradiction
  · rfl

/-- What a read leaves: no message, no memory and no other register changes, and its own RC fields are cleared. -/
theorem State.regRead_effect (g : Agent) (m : W64) (h : r.kind ≠ .mbData) :
    (s.regRead g r m).1.out = s.out ∧ (s.regRead g r m).1.mem = s.mem ∧
    (s.regRead g r m).1.reg r = s.reg r &&& ~~~r.kind.cleared m ∧
    ∀ r', r' ≠ r → (s.regRead g r m).1.reg r' = s.reg r' := by
  rw [s.regRead_of_ne_mbData r g m h]
  by_cases hc : r.kind.cleared m = 0
  · rw [if_pos hc, hc]
    exact ⟨rfl, rfl, BitVec.and_allOnes.symm, fun _ _ => rfl⟩
  · rw [if_neg hc]
    exact ⟨rfl, rfl, s.reg_setReg r _, fun r' hr' => s.reg_setReg_ne _ hr'⟩

@[simp] theorem State.emit_out (o : OutMsg) : (s.emit o).out = s.out ++ [o] := rfl
@[simp] theorem State.emit_reg (o : OutMsg) : (s.emit o).reg r = s.reg r := rfl

/-! ## Accesses to register space -/

section
variable {s r} {g : Agent} {a : PAddr} {n k : Nat} {m v : W64}

theorem State.writeAccess_reg (h : s.agentAccess g a n = .reg r m k) :
    s.writeAccess g a n v = if r.kind = .mbData || n = 8 then s.regWrite g r v else s.emit .accessFault := by
  rw [State.writeAccess, h]

theorem State.readAccess_reg (h : s.agentAccess g a n = .reg r m k) : s.readAccess g a n =
    (((s.mbTouch (Agent.path g) r.kind).regRead g r m).1).emit
      (.readData (((s.mbTouch (Agent.path g) r.kind).regRead g r m).2 >>> k)) := by
  rw [State.readAccess, h]

theorem State.writeAccess_fault (h : s.agentAccess g a n = .hole ∨ s.agentAccess g a n = .badSize) :
    s.writeAccess g a n v = s.emit .accessFault := by
  rcases h with h | h <;> rw [State.writeAccess, h]

theorem State.readAccess_fault (h : s.agentAccess g a n = .hole ∨ s.agentAccess g a n = .badSize) :
    s.readAccess g a n = s.emit .accessFault := by
  rcases h with h | h <;> rw [State.readAccess, h]

theorem State.writeAccess_nothing (h : s.agentAccess g a n = .nothing) :
    s.writeAccess g a n v = if n = 8 then s else s.emit .accessFault := by
  rw [State.writeAccess, h]

theorem State.readAccess_nothing (h : s.agentAccess g a n = .nothing) : s.readAccess g a n = s.emit (.readData 0) := by
  rw [State.readAccess, h]

end

theorem AccSize.bytes_eq_eight (size : AccSize) : AccSize.bytes size = 8 ↔ size = .eight := by
  cases size <;> decide

theorem exec_registerWrite (g : Agent) (a : PAddr) (size : AccSize) (v : W64) :
    exec (.registerWrite g a size v) s = .next (s.writeAccess g a (AccSize.bytes size) v) := rfl

theorem exec_rcFieldRead (g : Agent) (a : PAddr) (size : AccSize) :
    exec (.rcFieldRead g a size) s = .next (s.readAccess g a (AccSize.bytes size)) := rfl

/-! ## The statement -/

section
variable {s r} {g : Agent} {a : PAddr} {n : Nat} {m : W64}

/-- A write of 8 bytes to a register without an effect of its own is a store to it. -/
theorem exec_registerWrite_of_not_special (v : W64) (h : s.agentAccess g a 8 = .reg r m n) (hk : r.kind ∉ RegKind.special) :
    exec (.registerWrite g a .eight v) s =
      .next ((s.mbTouch (Agent.path g) r.kind).regStore r (BitVec.allOnes 64) v) := by
  rw [exec_registerWrite, AccSize.bytes, State.writeAccess_reg h, ← State.regWrite_of_not_special s r g v hk]
  simp

theorem exec_rcFieldRead_of_ne_mbData {size : AccSize} (h : s.agentAccess g a (AccSize.bytes size) = .reg r m n)
    (hk : r.kind ≠ .mbData) : Leads (.rcFieldRead g a size) s fun t =>
      t.out = s.out ++ [.readData ((s.regView r &&& r.kind.readMask &&& m) >>> n)] ∧
      t.reg r = s.reg r &&& ~~~(r.kind.cleared m) ∧ (∀ r', r' ≠ r → t.reg r' = s.reg r') ∧ t.mem = s.mem := by
  refine ⟨_, by rw [exec_rcFieldRead, State.readAccess_reg h], ?_⟩
  obtain ⟨hout, hmem, hself, hrest⟩ := (s.mbTouch (Agent.path g) r.kind).regRead_effect r g m hk
  have hval := congrArg Prod.snd ((s.mbTouch (Agent.path g) r.kind).regRead_of_ne_mbData r g m hk)
  refine ⟨?_, ?_, fun r' hr' => ?_, ?_⟩
  · simp [hout, hval]
  · simp [hself]
  · simp [hrest r' hr']
  · simp [hmem]

/-- A write of 4 bytes to any register but `MB_DATA` has the wrong size (R719). -/
theorem exec_registerWrite_four (v : W64) (h : s.agentAccess g a 4 = .reg r m n) (hk : r.kind ≠ .mbData) :
    exec (.registerWrite g a .four v) s = .next (s.emit .accessFault) := by
  rw [exec_registerWrite, AccSize.bytes, State.writeAccess_reg h]
  simp [hk]

end

end Sys2Proof.Machine

namespace Sys2Proof.Proofs

open Sys2Proof.Machine

/-- Settles O59: a write without an effect of its own is a store, of which each type of field has its lemma; a read and a
failed access follow from the cases of the access. -/
theorem registerAccesses : Obligations.RegisterAccesses := by
  unfold Obligations.RegisterAccesses
  refine ⟨fun g a v s r m n h hk => ?_, fun g a size s r m n h hk => exec_rcFieldRead_of_ne_mbData h hk,
    fun g a size v s => ⟨fun h => ?_, fun h => ?_, fun r m n h hk => exec_registerWrite_four v h hk⟩⟩
  · refine ⟨_, exec_registerWrite_of_not_special v h hk, State.regStore_rw _ r v, ?_, ?_, ?_, fun r' hr' => ?_, ?_, ?_⟩
    · simpa using (s.mbTouch (Agent.path g) r.kind).regStore_rwl r v
    · simpa using (s.mbTouch (Agent.path g) r.kind).regStore_w1c r v
    · simpa using (s.mbTouch (Agent.path g) r.kind).regStore_other r v (ts := [.ro, .rc, .wo])
        (by decide) (by decide) (by decide)
    · rw [State.reg_regStore_ne _ _ _ hr', State.mbTouch_reg]
    · rw [State.regStore_mem, State.mbTouch_mem]
    · rw [State.regStore_out, State.mbTouch_out]
  · rw [exec_registerWrite, exec_rcFieldRead, State.writeAccess_fault h, State.readAccess_fault h]
    exact ⟨rfl, rfl⟩
  · rw [exec_registerWrite, exec_rcFieldRead, State.writeAccess_nothing h, State.readAccess_nothing h]
    exact ⟨rfl, by simp only [AccSize.bytes_eq_eight]⟩

end Sys2Proof.Proofs
end

section
/-! SUPPORT and PROOF of the number formats: an instruction that is offered with allowed fields and a true predicate does its own
effect, and rounding to FP32 depends on the value alone and keeps the integers of up to 24 bits. -/

namespace Sys2Proof.Machine

/-! ## An offered instruction -/

section
variable {s : State} {c : Cx} {f : SForm} {maj min : W8}

/-- In a step that offers an instruction, its allowed fields and a true predicate lead to its own effect. -/
theorem dti_of_offers {word : W64} {legal lane0 : Bool} (body : State → Eff) (ho : s.offers c) (hl : legal = true)
    (hp : lane0 = true) : dti c word legal lane0 body s = State.settle c (body s) := by
  obtain ⟨hcan, hgate⟩ := ho
  simp [dti, hcan, hgate, hl, hp]

/-- An offered S-form instruction on registers changes its context, and no more. The change may be written for the context as it is. -/
theorem dtiS_onCtx_of_offers {g g' : Context → Context} (ho : s.offers c) (hp : (s.ctx c).pred f.pn f.pg 0 = true)
    (hl : f.legal maj.toNat min.toNat = true) (hg : g (s.ctx c) = g' (s.ctx c)) :
    dtiS maj min c f (onCtx c g) s = .next (s.ran c g') := by
  have hupd : s.updCtx c g = s.updCtx c g' := by rw [State.updCtx, hg, State.updCtx]
  rw [dtiS, dti_of_offers _ ho hl hp, onCtx, State.settle, hupd, State.ran]

theorem scalarFp_of_offers (min : W8) (g : W32 → W32 → W32 → W32 × W32) (ho : s.offers c)
    (hp : (s.ctx c).pred f.pn f.pg 0 = true) (hl : f.legal 0x03 min.toNat = true) :
    let r := g (((s.ctx c).sget f.x).setWidth 32) (((s.ctx c).sget f.y).setWidth 32) (((s.ctx c).sget f.z).setWidth 32)
    scalarFp min g c f s = .next (s.ran c fun k => (k.sset f.d (r.1.setWidth 64)).raiseFlags r.2) :=
  dtiS_onCtx_of_offers ho hp hl rfl

theorem scalarCmp_of_offers (min : W8) (g : W32 → W32 → Bool × W32) (ho : s.offers c)
    (hp : (s.ctx c).pred f.pn f.pg 0 = true) (hl : f.legal 0x03 min.toNat = true) :
    let r := g (((s.ctx c).sget f.x).setWidth 32) (((s.ctx c).sget f.y).setWidth 32)
    scalarCmp min g c f s = .next (s.ran c fun k => (k.sset f.d (if r.1 then 1 else 0)).raiseFlags r.2) :=
  dtiS_onCtx_of_offers ho hp hl rfl

end

/-! ## Rounding depends on the value alone -/

theorem log2_mul_two_pow {m : Nat} (h : m ≠ 0) (k : Nat) : Nat.log2 (m * 2 ^ k) = Nat.log2 m + k := by
  induction k with
  | zero => simp
  | succ k ih => rw [Nat.pow_succ, ← Nat.mul_assoc, Nat.mul_comm _ 2, Nat.log2_two_mul (by positivity), ih, Nat.add_assoc]

/-- A factor of 2 in the number and in the divisor does not change the rounding. -/
theorem rneShift_mul_two_pow (m k j : Nat) : rneShift (m * 2 ^ j) (k + j) = rneShift m k := by
  have hj : 0 < 2 ^ j := Nat.two_pow_pos j
  have hdiv : m * 2 ^ j / 2 ^ (k + j) = m / 2 ^ k := by rw [Nat.pow_add, Nat.mul_div_mul_right _ _ hj]
  have hmod : m * 2 ^ j % 2 ^ (k + j) = m % 2 ^ k * 2 ^ j := by rw [Nat.pow_add, Nat.mul_mod_mul_right]
  have hlt : 2 ^ (k + j) < 2 * (m % 2 ^ k * 2 ^ j) ↔ 2 ^ k < 2 * (m % 2 ^ k) := by
    rw [Nat.pow_add, ← Nat.mul_assoc, Nat.mul_lt_mul_right hj]
  have heq : 2 * (m % 2 ^ k * 2 ^ j) = 2 ^ (k + j) ↔ 2 * (m % 2 ^ k) = 2 ^ k := by
    rw [Nat.pow_add, ← Nat.mul_assoc, Nat.mul_left_inj hj.ne']
  simp only [rneShift, hdiv, hmod, hlt, heq, Nat.mul_ne_zero_iff, hj.ne', ne_eq, not_false_eq_true, and_true]

/-- A whole number divided exactly rounds to its quotient. -/
theorem rneShift_of_exact (m k j : Nat) : rneShift (m * 2 ^ (k + j)) k = (m * 2 ^ j, false) := by
  have hk : 0 < 2 ^ k := Nat.two_pow_pos k
  have h : m * 2 ^ (k + j) = m * 2 ^ j * 2 ^ k := by ring
  simp [rneShift, h, hk.ne]

/-- The grid of a format depends on the value alone: m · 2^k times 2^(e − k) rounds as m · 2^e does. -/
theorem toGrid_mul_two_pow (p : Nat) (emin : Int) {m : Nat} (h : m ≠ 0) (e : Int) (k : Nat) :
    toGrid p emin none (m * 2 ^ k) (e - k) = toGrid p emin none m e := by
  have hq : Int.ofNat (m * 2 ^ k).log2 + (e - k) = Int.ofNat m.log2 + e := by
    rw [log2_mul_two_pow h, Int.ofNat_eq_natCast, Int.ofNat_eq_natCast]
    omega
  simp only [toGrid, hq]
  generalize max (Int.ofNat m.log2 + e - (Int.ofNat p - 1)) emin = q
  by_cases hfine : q ≤ e - k
  · obtain ⟨n, hn⟩ := Int.le.dest hfine
    have hk : (e - k - q).toNat = n := by omega
    have hnk : (e - q).toNat = k + n := by omega
    rw [if_pos hfine, if_pos (by omega), hk, hnk, Nat.pow_add, Nat.mul_assoc]
  · rw [if_neg hfine]
    by_cases hmid : q ≤ e
    · obtain ⟨n, hn⟩ := Int.le.dest hmid
      obtain ⟨j, rfl⟩ : ∃ j, k = j + n := ⟨(q - (e - k)).toNat, by omega⟩
      have hj : (q - (e - (j + n : Nat))).toNat = j := by omega
      have hn' : (e - q).toNat = n := by omega
      rw [if_pos hmid, hj, hn', rneShift_of_exact]
    · have hk : (q - (e - k)).toNat = (q - e).toNat + k := by omega
      rw [if_neg hmid, hk, rneShift_mul_two_pow]

/-- FP32 rounding depends on the value alone. -/
theorem round32_mul_two_pow (neg : Bool) (m : Nat) (e : Int) (k : Nat) :
    round32 neg (m * 2 ^ k) (e - k) = round32 neg m e := by
  by_cases h : m = 0
  · simp [round32, h]
  · have hk : m * 2 ^ k ≠ 0 := by positivity
    simp only [round32, toGrid_mul_two_pow _ _ h, h, hk]

theorem Dy.round_mk (n : Int) (e : Int) (zneg : Bool) :
    (⟨n, e⟩ : Dy).round zneg = round32 (if n = 0 then zneg else decide (n < 0)) n.natAbs e := rfl

theorem Dy.round_mul_two_pow (n : Int) (k : Nat) (zneg : Bool) :
    (⟨n * 2 ^ k, -k⟩ : Dy).round zneg = (⟨n, 0⟩ : Dy).round zneg := by
  have hk : (0 : Int) < 2 ^ k := by positivity
  have habs : (n * 2 ^ k).natAbs = n.natAbs * 2 ^ k := by simp [Int.natAbs_mul, Int.natAbs_pow]
  have hneg : n * 2 ^ k < 0 ↔ n < 0 := by simp [Int.mul_neg_iff, hk, hk.not_gt]
  have hzero : n * 2 ^ k = 0 ↔ n = 0 := by simp
  simp only [Dy.round_mk, habs, hneg, hzero, ← Int.zero_sub, round32_mul_two_pow]

/-! ## Numbers of up to 24 bits are exact in FP32 (R28, R30) -/

/-- The sign bit stands above the magnitude. -/
theorem toNat_sign32_or {mag : Nat} (neg : Bool) (h : mag < 2 ^ 31) :
    (sign32 neg ||| BitVec.ofNat 32 mag).toNat = neg.toNat * 2 ^ 31 + mag := by
  have hmag : mag % 4294967296 = mag := Nat.mod_eq_of_lt (by omega)
  cases neg
  · simp [sign32, hmag]
  · simpa [sign32, hmag] using (Nat.two_pow_add_eq_or_of_lt h 1).symm

/-- A pattern whose exponent field is at no end of its range is a normal number (R30). -/
theorem num32_of_exponent {w : W32} (h0 : w.toNat / 2 ^ 23 % 2 ^ 8 ≠ 0) (h1 : w.toNat / 2 ^ 23 % 2 ^ 8 ≠ 2 ^ 8 - 1) :
    num32 w = .fin (decide (w.toNat / 2 ^ 31 % 2 = 1)) (2 ^ 23 + w.toNat % 2 ^ 23)
      (Int.ofNat (w.toNat / 2 ^ 23 % 2 ^ 8) - 127 - 23) := by
  simp only [num32, Elem.decode, elFp32, h0, h1, and_false, if_false]
  rfl

/-- The normal number of a sign, an exponent field and a fraction (R30). -/
theorem num32_normal (neg : Bool) {ex fr : Nat} (h0 : 0 < ex) (h1 : ex < 255) (hf : fr < 2 ^ 23) :
    num32 (sign32 neg ||| BitVec.ofNat 32 (ex * 2 ^ 23 + fr)) = .fin neg (2 ^ 23 + fr) (ex - 127 - 23) := by
  have hs : neg.toNat ≤ 1 := Bool.toNat_le neg
  have hw := toNat_sign32_or (mag := ex * 2 ^ 23 + fr) neg (by omega)
  generalize sign32 neg ||| BitVec.ofNat 32 (ex * 2 ^ 23 + fr) = w at hw ⊢
  have hsign : w.toNat / 2 ^ 31 % 2 = neg.toNat := by omega
  have hex : w.toNat / 2 ^ 23 % 2 ^ 8 = ex := by omega
  have hfr : w.toNat % 2 ^ 23 = fr := by omega
  rw [num32_of_exponent (by omega) (by omega), hsign, hex, hfr]
  simp

/-- A nonzero number of up to 24 bits, moved up to the top of the significand. -/
theorem significand_bounds {m : Nat} (h0 : m ≠ 0) (hm : m < 2 ^ 24) :
    2 ^ 23 ≤ m * 2 ^ (23 - m.log2) ∧ m * 2 ^ (23 - m.log2) < 2 ^ 24 := by
  have hL : m.log2 < 24 := (Nat.log2_lt h0).2 hm
  have hlog : (m * 2 ^ (23 - m.log2)).log2 = 23 := by rw [log2_mul_two_pow h0]; omega
  exact (Nat.log2_eq_iff (by positivity)).1 hlog

/-- A nonzero m below 2^24 and an exponent in the normal range: m · 2^e is a pattern of FP32, and sets no flag. -/
theorem round32_of_lt (neg : Bool) {m : Nat} {e : Int} (h0 : m ≠ 0) (hm : m < 2 ^ 24) (hlo : -126 ≤ m.log2 + e)
    (hhi : m.log2 + e ≤ 127) :
    round32 neg m e = (sign32 neg |||
      BitVec.ofNat 32 ((m.log2 + e + 127).toNat * 2 ^ 23 + (m * 2 ^ (23 - m.log2) - 2 ^ 23)), 0) := by
  have hL : m.log2 < 24 := (Nat.log2_lt h0).2 hm
  obtain ⟨hS, hS'⟩ := significand_bounds h0 hm
  have hq : max (Int.ofNat m.log2 + e - (Int.ofNat 24 - 1)) (-149) = m.log2 + e - 23 := by
    rw [Int.ofNat_eq_natCast, Int.ofNat_eq_natCast]; omega
  have hshift : (e - (m.log2 + e - 23)).toNat = 23 - m.log2 := by omega
  have hgrid : toGrid 24 (-149) none m e = (m * 2 ^ (23 - m.log2), m.log2 + e - 23, false) := by
    simp only [toGrid, hq, hshift]
    rw [if_pos (by omega)]
  have hmag : (m.log2 + e - 23 + 149).toNat * 2 ^ 23 + m * 2 ^ (23 - m.log2) =
      (m.log2 + e + 127).toNat * 2 ^ 23 + (m * 2 ^ (23 - m.log2) - 2 ^ 23) := by omega
  simp only [round32, hgrid, h0, hmag, if_false]
  rw [if_neg (by omega)]
  rfl

/-- A nonzero number of up to 24 bits is read back from its pattern, with its significand moved up. -/
theorem num32_round32 (neg : Bool) {m : Nat} {e : Int} (h0 : m ≠ 0) (hm : m < 2 ^ 24) (hlo : -126 ≤ m.log2 + e)
    (hhi : m.log2 + e ≤ 127) :
    num32 (round32 neg m e).1 = .fin neg (m * 2 ^ (23 - m.log2)) (m.log2 + e - 23) := by
  obtain ⟨hS, hS'⟩ := significand_bounds h0 hm
  rw [round32_of_lt neg h0 hm hlo hhi, num32_normal neg (by omega) (by omega) (by omega), Nat.add_sub_cancel' hS]
  congr 1
  omega

/-! ## Sums and products of finite values -/

theorem fAdd_of_fin {x y : W32} {a b : Bool} {m n : Nat} {e g : Int} (hx : num32 x = .fin a m e) (hy : num32 y = .fin b n g) :
    fAdd x y = (Dy.add (Num.dy (.fin a m e)) (Num.dy (.fin b n g))).round (a && b) := by
  rw [fAdd, hx, hy]

theorem fMul_of_fin {x y : W32} {a b : Bool} {m n : Nat} {e g : Int} (hx : num32 x = .fin a m e) (hy : num32 y = .fin b n g) :
    fMul x y = round32 (a != b) (m * n) (e + g) := by
  rw [fMul, hx, hy]

/-! ## Small integers in FP32 (R230) -/

section
variable {n m : Int}

theorem fFromInt_ofInt (h : n.natAbs ≤ 2 ^ 24) : fFromInt (BitVec.ofInt 64 n) = (⟨n, 0⟩ : Dy).round false := by
  rw [fFromInt, BitVec.toInt_ofInt_eq_self (by decide) (by omega) (by omega)]

/-- The flags of the conversion of an integer of at most 2^24 in magnitude, which is below 2^24 or 2^24 itself. -/
theorem fFromInt_ofInt_flags (h : n.natAbs ≤ 2 ^ 24) : (fFromInt (BitVec.ofInt 64 n)).2 = 0 := by
  rw [fFromInt_ofInt h, Dy.round_mk]
  generalize (if n = 0 then false else decide (n < 0)) = neg
  rcases h.lt_or_eq with hlt | heq
  · by_cases h0 : n.natAbs = 0
    · simp [round32, h0]
    · have hL : n.natAbs.log2 < 24 := (Nat.log2_lt h0).2 hlt
      rw [round32_of_lt neg h0 hlt (by omega) (by omega)]
  · rw [heq]
    cases neg <;> decide

/-- The FP32 value of an integer below 2^24 in magnitude is the integer, as a multiple of a power of 2. -/
theorem num32_fFromInt_ofInt (h : n.natAbs < 2 ^ 24) :
    ∃ k : Nat, num32 (fFromInt (BitVec.ofInt 64 n)).1 = .fin (decide (n < 0)) (n.natAbs * 2 ^ k) (-k) := by
  rw [fFromInt_ofInt h.le, Dy.round_mk]
  by_cases h0 : n = 0
  · exact ⟨149, by subst h0; decide⟩
  · have habs : n.natAbs ≠ 0 := Int.natAbs_ne_zero.2 h0
    have hL : n.natAbs.log2 < 24 := (Nat.log2_lt habs).2 h
    refine ⟨23 - n.natAbs.log2, ?_⟩
    rw [if_neg h0, num32_round32 _ habs h (by omega) (by omega)]
    congr 1
    omega

theorem Num.dy_fin_natAbs (n : Int) (k : Nat) (e : Int) :
    Num.dy (.fin (decide (n < 0)) (n.natAbs * 2 ^ k) e) = ⟨n * 2 ^ k, e⟩ := by
  by_cases h : n < 0
  · have habs : ((n.natAbs : Nat) : Int) = -n := by omega
    simp [Num.dy, h, habs]
  · have habs : ((n.natAbs : Nat) : Int) = n := by omega
    simp [Num.dy, h, habs]

/-- Integers as multiples of powers of 2 add to their sum as one. -/
theorem Dy.add_mul_two_pow (n m : Int) (k l : Nat) :
    ∃ j : Nat, Dy.add ⟨n * 2 ^ k, -k⟩ ⟨m * 2 ^ l, -l⟩ = ⟨(n + m) * 2 ^ j, -j⟩ := by
  by_cases hn : n = 0
  · exact ⟨l, by simp [Dy.add, hn]⟩
  by_cases hm : m = 0
  · exact ⟨k, by simp [Dy.add, hn, hm]⟩
  refine ⟨max k l, ?_⟩
  have hmin : min (-(k : Int)) (-l) = -((max k l : Nat) : Int) := by omega
  have hk : max k l = k + (-(k : Int) - -((max k l : Nat) : Int)).toNat := by omega
  have hl : max k l = l + (-(l : Int) - -((max k l : Nat) : Int)).toNat := by omega
  simp only [Dy.add, hmin]
  rw [if_neg (by simp [hn]), if_neg (by simp [hm]), mul_assoc, mul_assoc, ← pow_add, ← pow_add, ← hk, ← hl, add_mul]

/-- An integer rounds without regard to the sign of a zero unless it is zero. -/
theorem Dy.round_int (z : Bool) (h : n = 0 → z = false) : (⟨n, 0⟩ : Dy).round z = (⟨n, 0⟩ : Dy).round false := by
  by_cases hn : n = 0
  · rw [h hn]
  · simp [Dy.round_mk, hn]

theorem fAdd_fFromInt (hn : n.natAbs < 2 ^ 24) (hm : m.natAbs < 2 ^ 24) :
    fAdd (fFromInt (BitVec.ofInt 64 n)).1 (fFromInt (BitVec.ofInt 64 m)).1 = (⟨n + m, 0⟩ : Dy).round false := by
  obtain ⟨k, hk⟩ := num32_fFromInt_ofInt hn
  obtain ⟨l, hl⟩ := num32_fFromInt_ofInt hm
  obtain ⟨j, hj⟩ := Dy.add_mul_two_pow n m k l
  rw [fAdd_of_fin hk hl, Num.dy_fin_natAbs, Num.dy_fin_natAbs, hj, Dy.round_mul_two_pow, Dy.round_int]
  simp
  omega

theorem fMul_fFromInt (hn0 : n ≠ 0) (hm0 : m ≠ 0) (hn : n.natAbs < 2 ^ 24) (hm : m.natAbs < 2 ^ 24) :
    fMul (fFromInt (BitVec.ofInt 64 n)).1 (fFromInt (BitVec.ofInt 64 m)).1 = (⟨n * m, 0⟩ : Dy).round false := by
  obtain ⟨k, hk⟩ := num32_fFromInt_ofInt hn
  obtain ⟨l, hl⟩ := num32_fFromInt_ofInt hm
  have hsign : (decide (n < 0) != decide (m < 0)) = decide (n * m < 0) := by
    rw [Bool.eq_iff_iff]
    simp [Int.mul_neg_iff]
    omega
  have hmag : n.natAbs * 2 ^ k * (m.natAbs * 2 ^ l) = (n * m).natAbs * 2 ^ (k + l) := by
    rw [Int.natAbs_mul, Nat.pow_add]
    ring
  have hexp : -(k : Int) + -l = 0 - (k + l : Nat) := by omega
  rw [fMul_of_fin hk hl, hsign, hmag, hexp, round32_mul_two_pow, Dy.round_mk, if_neg (mul_ne_zero hn0 hm0)]

/-- The pattern of an integer of at most 2^24 in magnitude, with no flag, is what its conversion gives. -/
theorem Dy.round_eq_fFromInt (h : n.natAbs ≤ 2 ^ 24) :
    (⟨n, 0⟩ : Dy).round false = ((fFromInt (BitVec.ofInt 64 n)).1, 0) := by
  rw [← fFromInt_ofInt h, ← fFromInt_ofInt_flags h]

end

end Sys2Proof.Machine

namespace Sys2Proof.Proofs

open Sys2Proof.Machine

/-- Settles O12: each instruction is `scalarFp` or `scalarCmp` of its function, or the shared frame of the S-form itself. -/
theorem scalarFp32Results : Obligations.ScalarFp32Results := by
  unfold Obligations.ScalarFp32Results
  intro c f s ho hp
  exact ⟨scalarFp_of_offers 0x00 (fun x y _ => fAdd x y) ho hp, scalarFp_of_offers 0x01 (fun x y _ => fSub x y) ho hp,
    scalarFp_of_offers 0x02 (fun x y _ => fMul x y) ho hp, scalarFp_of_offers 0x03 fFma ho hp,
    scalarFp_of_offers 0x04 (fun x y _ => fDiv x y) ho hp, scalarFp_of_offers 0x05 (fun x _ _ => fSqrt x) ho hp,
    scalarFp_of_offers 0x06 (fun x y _ => fMin x y) ho hp, scalarFp_of_offers 0x07 (fun x y _ => fMax x y) ho hp,
    fun hl => dtiS_onCtx_of_offers ho hp hl rfl, fun hl => dtiS_onCtx_of_offers ho hp hl rfl,
    scalarCmp_of_offers 0x0A fEq ho hp, scalarCmp_of_offers 0x0B fLt ho hp, scalarCmp_of_offers 0x0C fLe ho hp⟩

/-- Settles O13: both operands are read back exactly, their exact sum or product is an integer of at most 2^24 in magnitude, and
rounding it is the conversion of that integer. -/
theorem integerSumsAreExact : Obligations.IntegerSumsAreExact := by
  unfold Obligations.IntegerSumsAreExact
  refine ⟨fun n m hn hm => ?_, fun n m hn0 hm0 hn hm => ?_⟩
  · rw [fAdd_fFromInt (by omega) (by omega), Dy.round_eq_fFromInt (by omega)]
  · have hprod : (n * m).natAbs ≤ 2 ^ 11 * 2 ^ 11 := Int.natAbs_mul n m ▸ Nat.mul_le_mul hn hm
    rw [fMul_fFromInt hn0 hm0 (by omega) (by omega), Dy.round_eq_fFromInt (by omega)]

end Sys2Proof.Proofs
end

section
/-! SUPPORT and PROOF of the words of the DTI instructions and of the frame in which each of them runs: what a word's fields are read
back as, which form a major opcode has, and what an instruction does that is not allowed or whose lane-0 predicate is false. -/

namespace Sys2Proof

/-! ## The fields of a word (R185, R186) -/

/-! A word is a concatenation, whose width Lean writes as a sum; `hext` reads it at that width, so that each field is cut from
its part. -/

theorem wordPn_eq (w : W64) : wordPn w = (w.extractLsb' 55 1).getLsbD 0 := by
  simp [wordPn]

section
variable (maj min8 : W8) (min4 : BitVec 4)

theorem SForm.word_fields (f : SForm) : wordMajor (f.word maj min8) = maj.toNat ∧ wordMinor8 (f.word maj min8) = min8.toNat ∧
    ofWord (f.word maj min8) = f := by
  have hext (i n : Nat) : (f.word maj min8).extractLsb' i n =
      (maj ++ BitVec.ofBool f.pn ++ f.pg ++ min8 ++ f.d ++ f.x ++ f.y ++ f.z ++ f.mod ++ f.imm16).extractLsb' i n := rfl
  simp (disch := omega) only [wordMajor, wordMinor8, ofWord, wordPn_eq, wordPg, hext, BitVec.extractLsb'_append_eq_of_le,
    BitVec.extractLsb'_append_eq_of_add_le]
  simp

theorem IForm.word_fields (f : IForm) : wordMajor (f.word maj min8) = maj.toNat ∧ wordMinor8 (f.word maj min8) = min8.toNat ∧
    ofWord (f.word maj min8) = f := by
  have hext (i n : Nat) : (f.word maj min8).extractLsb' i n =
      (maj ++ BitVec.ofBool f.pn ++ f.pg ++ min8 ++ f.d ++ f.x ++ f.imm34).extractLsb' i n := rfl
  simp (disch := omega) only [wordMajor, wordMinor8, ofWord, wordPn_eq, wordPg, hext, BitVec.extractLsb'_append_eq_of_le,
    BitVec.extractLsb'_append_eq_of_add_le]
  simp

theorem MForm.word_fields (f : MForm) : wordMajor (f.word maj min4) = maj.toNat ∧ wordMinor4 (f.word maj min4) = min4.toNat ∧
    ofWord (f.word maj min4) = f := by
  have hext (i n : Nat) : (f.word maj min4).extractLsb' i n =
      (maj ++ BitVec.ofBool f.pn ++ f.pg ++ min4 ++ f.d ++ f.a ++ f.hint ++ f.size ++ f.off32).extractLsb' i n := rfl
  simp (disch := omega) only [wordMajor, wordMinor4, ofWord, wordPn_eq, wordPg, hext, BitVec.extractLsb'_append_eq_of_le,
    BitVec.extractLsb'_append_eq_of_add_le]
  simp

theorem TForm.word_fields (f : TForm) : wordMajor (f.word maj min4) = maj.toNat ∧ wordMinor4 (f.word maj min4) = min4.toNat ∧
    ofWord (f.word maj min4) = f := by
  have hext (i n : Nat) : (f.word maj min4).extractLsb' i n = (maj ++ BitVec.ofBool f.pn ++ f.pg ++ min4 ++ f.ta ++ f.tb ++ f.acc ++
      f.slot ++ f.flags ++ f.chain ++ f.imm16).extractLsb' i n := rfl
  simp (disch := omega) only [wordMajor, wordMinor4, ofWord, wordPn_eq, wordPg, hext, BitVec.extractLsb'_append_eq_of_le,
    BitVec.extractLsb'_append_eq_of_add_le]
  simp

theorem BForm.word_fields (f : BForm) : wordMajor (f.word maj min4) = maj.toNat ∧ wordMinor4 (f.word maj min4) = min4.toNat ∧
    ofWord (f.word maj min4) = f := by
  have hext (i n : Nat) : (f.word maj min4).extractLsb' i n =
      (maj ++ BitVec.ofBool f.pn ++ f.pg ++ min4 ++ f.x ++ f.y ++ f.off38).extractLsb' i n := rfl
  simp (disch := omega) only [wordMajor, wordMinor4, ofWord, wordPn_eq, wordPg, hext, BitVec.extractLsb'_append_eq_of_le,
    BitVec.extractLsb'_append_eq_of_add_le]
  simp

end

/-! ## The form of a major opcode (R187) -/

/-- The five forms of R186. -/
inductive WordForm where
  | s | i | m | t | b
  deriving DecidableEq

/-- The form of a major opcode. -/
def majorForm : Nat → Option WordForm
  | 0x01 | 0x03 | 0x10 | 0x11 | 0x12 | 0x13 | 0x14 => some .s
  | 0x02 | 0x08 | 0x30 | 0x48 => some .i
  | 0x20 | 0x21 | 0x22 | 0x23 | 0x24 | 0x31 => some .m
  | 0x49 | 0x50 | 0x51 | 0x52 | 0x58 | 0x60 | 0x61 => some .t
  | 0x40 | 0x41 => some .b
  | _ => none

section
variable {a b b' : Nat}

theorem majorForm_of_sCtor {k} (h : sCtor a b = some k) : majorForm a = some .s := by
  unfold sCtor at h
  split at h
  on_goal -1 => cases h
  all_goals rfl

theorem majorForm_of_iCtor {k} (h : iCtor a b = some k) : majorForm a = some .i := by
  unfold iCtor at h
  split at h
  on_goal -1 => cases h
  all_goals rfl

theorem majorForm_of_mCtor {k} (h : mCtor a b = some k) : majorForm a = some .m := by
  unfold mCtor at h
  split at h
  on_goal -1 => cases h
  all_goals rfl

theorem majorForm_of_tCtor {k} (h : tCtor a b = some k) : majorForm a = some .t := by
  unfold tCtor at h
  split at h
  on_goal -1 => cases h
  all_goals rfl

theorem majorForm_of_bCtor {k} (h : bCtor a b = some k) : majorForm a = some .b := by
  unfold bCtor at h
  split at h
  on_goal -1 => cases h
  all_goals rfl

theorem sCtor_eq_none (h : majorForm a ≠ some .s) : sCtor a b = none :=
  Option.eq_none_iff_forall_ne_some.2 fun _ hk => h (majorForm_of_sCtor hk)

theorem iCtor_eq_none (h : majorForm a ≠ some .i) : iCtor a b = none :=
  Option.eq_none_iff_forall_ne_some.2 fun _ hk => h (majorForm_of_iCtor hk)

theorem mCtor_eq_none (h : majorForm a ≠ some .m) : mCtor a b = none :=
  Option.eq_none_iff_forall_ne_some.2 fun _ hk => h (majorForm_of_mCtor hk)

theorem tCtor_eq_none (h : majorForm a ≠ some .t) : tCtor a b = none :=
  Option.eq_none_iff_forall_ne_some.2 fun _ hk => h (majorForm_of_tCtor hk)

end

/-! ## The instruction of a word with its fields -/

section
variable {c : Cx} {maj min8 : W8} {min4 : BitVec 4}

theorem dtiFields_sForm {k f} (h : sCtor maj.toNat min8.toNat = some k) : dtiFields c (SForm.word f maj min8) = some (k c f) := by
  obtain ⟨hmaj, hmin, hf⟩ := f.word_fields maj min8
  simp only [dtiFields, hmaj, hmin, hf, h]

theorem dtiFields_iForm {k f} (h : iCtor maj.toNat min8.toNat = some k) : dtiFields c (IForm.word f maj min8) = some (k c f) := by
  obtain ⟨hmaj, hmin, hf⟩ := f.word_fields maj min8
  have hform := majorForm_of_iCtor h
  have hs : sCtor maj.toNat min8.toNat = none := sCtor_eq_none (by simp [hform])
  simp only [dtiFields, hmaj, hmin, hf, hs, h]

theorem dtiFields_mForm {k f} (h : mCtor maj.toNat min4.toNat = some k) : dtiFields c (MForm.word f maj min4) = some (k c f) := by
  obtain ⟨hmaj, hmin, hf⟩ := f.word_fields maj min4
  have hform := majorForm_of_mCtor h
  have hs (b : Nat) : sCtor maj.toNat b = none := sCtor_eq_none (by simp [hform])
  have hi (b : Nat) : iCtor maj.toNat b = none := iCtor_eq_none (by simp [hform])
  simp only [dtiFields, hmaj, hmin, hf, hs, hi, h]

theorem dtiFields_tForm {k f} (h : tCtor maj.toNat min4.toNat = some k) : dtiFields c (TForm.word f maj min4) = some (k c f) := by
  obtain ⟨hmaj, hmin, hf⟩ := f.word_fields maj min4
  have hform := majorForm_of_tCtor h
  have hs (b : Nat) : sCtor maj.toNat b = none := sCtor_eq_none (by simp [hform])
  have hi (b : Nat) : iCtor maj.toNat b = none := iCtor_eq_none (by simp [hform])
  have hm (b : Nat) : mCtor maj.toNat b = none := mCtor_eq_none (by simp [hform])
  simp only [dtiFields, hmaj, hmin, hf, hs, hi, hm, h]

theorem dtiFields_bForm {k f} (h : bCtor maj.toNat min4.toNat = some k) : dtiFields c (BForm.word f maj min4) = some (k c f) := by
  obtain ⟨hmaj, hmin, hf⟩ := f.word_fields maj min4
  have hform := majorForm_of_bCtor h
  have hs (b : Nat) : sCtor maj.toNat b = none := sCtor_eq_none (by simp [hform])
  have hi (b : Nat) : iCtor maj.toNat b = none := iCtor_eq_none (by simp [hform])
  have hm (b : Nat) : mCtor maj.toNat b = none := mCtor_eq_none (by simp [hform])
  have ht (b : Nat) : tCtor maj.toNat b = none := tCtor_eq_none (by simp [hform])
  simp only [dtiFields, hmaj, hmin, hf, hs, hi, hm, ht, h]

end

section
variable (maj min8 : W8) (min4 : BitVec 4)

@[simp] theorem SForm.wordPn_word (f : SForm) : wordPn (f.word maj min8) = f.pn := congrArg pn (f.word_fields maj min8).2.2
@[simp] theorem SForm.wordPg_word (f : SForm) : wordPg (f.word maj min8) = f.pg := congrArg pg (f.word_fields maj min8).2.2
@[simp] theorem IForm.wordPn_word (f : IForm) : wordPn (f.word maj min8) = f.pn := congrArg pn (f.word_fields maj min8).2.2
@[simp] theorem IForm.wordPg_word (f : IForm) : wordPg (f.word maj min8) = f.pg := congrArg pg (f.word_fields maj min8).2.2
@[simp] theorem MForm.wordPn_word (f : MForm) : wordPn (f.word maj min4) = f.pn := congrArg pn (f.word_fields maj min4).2.2
@[simp] theorem MForm.wordPg_word (f : MForm) : wordPg (f.word maj min4) = f.pg := congrArg pg (f.word_fields maj min4).2.2
@[simp] theorem TForm.wordPn_word (f : TForm) : wordPn (f.word maj min4) = f.pn := congrArg pn (f.word_fields maj min4).2.2
@[simp] theorem TForm.wordPg_word (f : TForm) : wordPg (f.word maj min4) = f.pg := congrArg pg (f.word_fields maj min4).2.2
@[simp] theorem BForm.wordPn_word (f : BForm) : wordPn (f.word maj min4) = f.pn := congrArg pn (f.word_fields maj min4).2.2
@[simp] theorem BForm.wordPg_word (f : BForm) : wordPg (f.word maj min4) = f.pg := congrArg pg (f.word_fields maj min4).2.2

end

end Sys2Proof

namespace Sys2Proof.Machine

/-! ## The frame of an instruction, read off its word (R188, R191 to R193) -/

/-- What the opcode tables and the dispatcher say of a DTI instruction with a context and a word: the fields of the word are its own,
and where it is offered it runs in the frame `dti` of its word, with an effect of its own. -/
structure IsDti (i : Instr) (c : Cx) (w : W64) : Prop where
  fields : dtiFields c w = some i
  exec_eq (s : State) (ho : s.offers c) : ∃ body, exec i s =
    .next (dti c w i.legal (Instr.laned i || (s.ctx c).pred (wordPn w) (wordPg w) 0) body s)

section
variable {s : State} {c : Cx}

theorem dti_illegal (ho : s.offers c) (word : W64) (lane0 : Bool) (body : State → Eff) :
    dti c word false lane0 body s = s.raise c .illegal (s.ctx c).pc 0 word := by
  obtain ⟨hcan, hgate⟩ := ho
  simp [dti, hcan, hgate]

theorem dti_lane0_false (ho : s.offers c) (word : W64) (body : State → Eff) : dti c word true false body s = s.finished c := by
  obtain ⟨hcan, hgate⟩ := ho
  simp [dti, hcan, hgate, State.settle, State.finished]

end

section
variable {c : Cx} {maj min8 : W8} {min4 : BitVec 4}

theorem IsDti.of_sForm {k : Cx → SForm → Instr} {f : SForm} (hk : sCtor maj.toNat min8.toNat = some k)
    (hl : (k c f).legal = f.legal maj.toNat min8.toNat) (hn : Instr.laned (k c f) = false)
    (hx : ∀ s, ∃ body, exec (k c f) s = dtiS maj min8 c f body s) : IsDti (k c f) c (f.word maj min8) :=
  ⟨dtiFields_sForm hk, fun s _ => (hx s).imp fun body h => by simp [h, dtiS, hl, hn]⟩

theorem IsDti.of_lanedForm {k : Cx → SForm → Instr} {f : SForm} (hk : sCtor maj.toNat min8.toNat = some k)
    (hl : (k c f).legal = f.legal maj.toNat min8.toNat) (hn : Instr.laned (k c f) = true)
    (hx : ∀ s, ∃ body, exec (k c f) s = dtiV maj min8 c f body s) : IsDti (k c f) c (f.word maj min8) :=
  ⟨dtiFields_sForm hk, fun s _ => (hx s).imp fun body h => by simp [h, dtiV, hl, hn]⟩

theorem IsDti.of_iForm {k : Cx → IForm → Instr} {f : IForm} (hk : iCtor maj.toNat min8.toNat = some k)
    (hl : (k c f).legal = f.legal maj.toNat min8.toNat) (hn : Instr.laned (k c f) = false)
    (hx : ∀ s, ∃ body, exec (k c f) s = dtiI maj min8 c f body s) : IsDti (k c f) c (f.word maj min8) :=
  ⟨dtiFields_iForm hk, fun s _ => (hx s).imp fun body h => by simp [h, dtiI, hl, hn]⟩

theorem IsDti.of_mForm {k : Cx → MForm → Instr} {f : MForm} (hk : mCtor maj.toNat min4.toNat = some k)
    (hl : (k c f).legal = f.legal maj.toNat min4.toNat)
    (hx : ∀ s, ∃ body, exec (k c f) s = dtiM maj min4 (Instr.laned (k c f)) c f body s) : IsDti (k c f) c (f.word maj min4) :=
  ⟨dtiFields_mForm hk, fun s _ => (hx s).imp fun body h => by simp [h, dtiM, hl]⟩

theorem IsDti.of_tForm {k : Cx → TForm → Instr} {f : TForm} (hk : tCtor maj.toNat min4.toNat = some k)
    (hl : (k c f).legal = f.legal maj.toNat min4.toNat) (hn : Instr.laned (k c f) = false)
    (hx : ∀ s, s.offers c → ∃ body, exec (k c f) s = dtiT maj min4 c f body s) : IsDti (k c f) c (f.word maj min4) :=
  ⟨dtiFields_tForm hk, fun s ho => (hx s ho).imp fun body h => by simp [h, dtiT, hl, hn]⟩

theorem IsDti.of_bForm {k : Cx → BForm → Instr} {f : BForm} (hk : bCtor maj.toNat min4.toNat = some k)
    (hl : (k c f).legal = f.legal maj.toNat min4.toNat) (hn : Instr.laned (k c f) = false)
    (hx : ∀ s, ∃ body, exec (k c f) s = dtiB maj min4 c f body s) : IsDti (k c f) c (f.word maj min4) :=
  ⟨dtiFields_bForm hk, fun s _ => (hx s).imp fun body h => by simp [h, dtiB, hl, hn]⟩

end

/-- A context that is offered its instruction has its turn at the slot, if any context has one (R129). -/
theorem State.turn_of_offers {s : State} {c : Cx} (ho : s.offers c) : (s.core c.lc).turns.head?.getD c.ix = c.ix := by
  obtain ⟨-, hgate⟩ := ho
  simp only [State.gate] at hgate
  split_ifs at hgate with _ _ _ hissue
  exact not_not.1 fun hne => hissue (by simp [hne])

/-- A pass that is offered comes ahead of no other context (R130). -/
theorem State.passFirst_of_offers {s : State} {c : Cx} (ho : s.offers c) : s.passFirst c = s := by
  have hturn := State.turn_of_offers ho
  simp only [State.passFirst]
  split
  next g t hturns =>
    have hg : g = c.ix := by simpa [hturns] using hturn
    simp [hg]
  next => rfl

theorem exec_mmPass_of_offers {s : State} {c : Cx} (f : TForm) (ho : s.offers c) :
    ∃ body, exec (.mmPass c f) s = dtiT 0x51 0x0 c f body s :=
  ⟨_, congrArg (dtiT 0x51 0x0 c f _) (State.passFirst_of_offers ho)⟩

/-- Each instruction stands in the table of its form at its opcodes, and its arm of the dispatcher is the frame of that form. -/
theorem isDti_of_dtiWord {i : Instr} {w : W64} {c : Cx} (hw : dtiWord i = some w) (hc : Instr.cx i = some c) : IsDti i c w := by
  cases i with
  | add _ f | sub _ f | mul _ f | mulh _ f | mulhu _ f | divu _ f | remu _ f | and _ f | or _ f | xor _ f | sll _ f | srl _ f
  | sra _ f | slt _ f | sltu _ f | min _ f | max _ f | mvA _ f | mvS _ f | addA _ f | fadd _ f | fsub _ f | fmul _ f | fma _ f
  | fdiv _ f | fsqrt _ f | fmin _ f | fmax _ f | fcvtSI _ f | fcvtIS _ f | feq _ f | flt _ f | fle _ f | vext _ f =>
    obtain rfl := Option.some.inj hc
    obtain rfl := Option.some.inj hw
    exact .of_sForm rfl rfl rfl fun _ => ⟨_, rfl⟩
  | vadd _ f | vsub _ f | vmul _ f | vfma _ f | vfms _ f | vdiv _ f | vsqrt _ f | vrcp _ f | vrsqrt _ f | vmin _ f | vmax _ f
  | vabs _ f | vneg _ f | vmov _ f | vbcast _ f | vsel _ f | vins _ f | vrsum _ f | vrmax _ f | vrmin _ f | vrsumsq _ f
  | vexp2 _ f | vlog2 _ f | vexp _ f | vlog _ f | vtanh _ f | vsigm _ f | vsilu _ f | vgelu _ f | vsin _ f | vcos _ f | cvtN _ f
  | cvtW _ f | vcmpEq _ f | vcmpLt _ f | vcmpLe _ f | vcmpUn _ f | pand _ f | por _ f | pxor _ f | pnot _ f | pfirst _ f =>
    obtain rfl := Option.some.inj hc
    obtain rfl := Option.some.inj hw
    exact .of_lanedForm rfl rfl rfl fun _ => ⟨_, rfl⟩
  | addi _ f | andi _ f | ori _ f | xori _ f | slli _ f | srli _ f | srai _ f | li _ f | lui _ f | addiA _ f | astatRd _ f
  | astatClr _ f | srseed _ f | srstateRd _ f | timeRd _ f | fenceLd _ f | fenceSt _ f | fenceAll _ f | commit _ f | halt _ f =>
    obtain rfl := Option.some.inj hc
    obtain rfl := Option.some.inj hw
    exact .of_iForm rfl rfl rfl fun _ => ⟨_, rfl⟩
  | ld _ f | lds _ f | st _ f | vld _ f | vst _ f | vldP _ f | vstP _ f | vldS _ f | vstS _ f | vstC _ f | vldAcc _ f
  | vstAcc _ f | ldV _ f | amoAdd _ f | amoAnd _ f | amoOr _ f | amoXor _ f | amoMin _ f | amoMax _ f | amoMinu _ f | amoMaxu _ f
  | amoSwap _ f | amoCas _ f | bcpIn _ f | bcpOut _ f | pfOc _ f | pfMsc _ f | tld _ f | tst _ f | flagSet _ f | wait _ f
  | barArrive _ f =>
    obtain rfl := Option.some.inj hc
    obtain rfl := Option.some.inj hw
    exact .of_mForm rfl rfl fun _ => ⟨_, rfl⟩
  | chainLd _ f | chainRowfix _ f | chainDrop _ f | mmLdwS _ f | mmLdwF _ f | mmSwap _ f | mmDrain _ f | slotDef _ f
  | slotMark _ f | slotRel _ f | fctSend _ f | fctRecv _ f =>
    obtain rfl := Option.some.inj hc
    obtain rfl := Option.some.inj hw
    exact .of_tForm rfl rfl rfl fun _ _ => ⟨_, rfl⟩
  | mmPass _ f =>
    obtain rfl := Option.some.inj hc
    obtain rfl := Option.some.inj hw
    exact .of_tForm rfl rfl rfl fun _ ho => exec_mmPass_of_offers f ho
  | beq _ f | bne _ f | blt _ f | bge _ f | bltu _ f | bgeu _ f | jal _ f | jr _ f | brk _ f | loop _ f | lbreak _ f =>
    obtain rfl := Option.some.inj hc
    obtain rfl := Option.some.inj hw
    exact .of_bForm rfl rfl rfl fun _ => ⟨_, rfl⟩
  | _ => cases hc

end Sys2Proof.Machine

namespace Sys2Proof.Proofs

open Sys2Proof.Machine

/-- Settles O4: the fields of the word are the instruction's own, and they are allowed. -/
theorem instructionWordsDecode : Obligations.InstructionWordsDecode := by
  unfold Obligations.InstructionWordsDecode
  intro i w c hw hc hl
  obtain ⟨hfields, -⟩ := isDti_of_dtiWord hw hc
  simp [decodeDti, hfields, hl]

/-- Settles O5: an offered instruction that is not allowed stops in its frame, before its own effect. -/
theorem illegalInstructionStops : Obligations.IllegalInstructionStops := by
  unfold Obligations.IllegalInstructionStops
  refine ⟨fun i w c s hw hc hl ho => ?_, fun c w s hdec ho => ?_⟩
  · obtain ⟨body, hexec⟩ := (isDti_of_dtiWord hw hc).exec_eq s ho
    rw [hexec, hl, dti_illegal ho]
  · show execIllegalInstruction c w s = _
    simp only [execIllegalInstruction, hdec, dti_illegal ho]

/-- Settles O6: an offered and allowed instruction whose lane-0 predicate is false completes in its frame, before its own effect. -/
theorem falsePredicateDoesNothing : Obligations.FalsePredicateDoesNothing := by
  unfold Obligations.FalsePredicateDoesNothing
  intro i w c s hw hc hl hn ho hp
  obtain ⟨body, hexec⟩ := (isDti_of_dtiWord hw hc).exec_eq s ho
  rw [hexec, hl, hn, hp, Bool.or_self, dti_lane0_false ho, State.finished]

end Sys2Proof.Proofs
end

section
/-! SUPPORT and PROOF of the instructions on registers: what a write of one register leaves of a context, what the frame of an
instruction leaves of the state, and that each of the instructions writes no more than its rule names. -/

namespace Sys2Proof.Machine

/-! ## A register read after another is written (R176, R177) -/

section
variable (k : Context) {w : Writes}

theorem Context.sset_eq (d : BitVec 5) (x : W64) : ∃ u, k.sset d x = { k with s := u } := by
  unfold Context.sset
  split
  · exact ⟨k.s, rfl⟩
  · exact ⟨_, rfl⟩

theorem Context.pset_eq (d : BitVec 3) (x : List Bool) : ∃ u, k.pset d x = { k with p := u } := by
  unfold Context.pset
  split
  · exact ⟨k.p, rfl⟩
  · exact ⟨_, rfl⟩

theorem Context.sget_sset_ne {r d : BitVec 5} (x : W64) (h : r ≠ d) : (k.sset d x).sget r = k.sget r := by
  unfold Context.sset
  split
  · rfl
  · simp only [Context.sget, Tbl.get_set_ne _ _ _ h]

theorem Context.aget_aset_ne {r d : BitVec 4} (x : W64) (h : r ≠ d) : (k.aset d x).aget r = k.aget r := Tbl.get_set_ne _ _ _ h

theorem Context.vlane_vset_ne {r d : BitVec 5} (x : List W32) (i : Nat) (h : r ≠ d) : (k.vset d x).vlane r i = k.vlane r i := by
  simp only [Context.vlane, Context.vset, Tbl.get_set_ne _ _ _ h]

theorem Context.plane_pset_ne {r d : BitVec 3} (x : List Bool) (i : Nat) (h : r ≠ d) : (k.pset d x).plane r i = k.plane r i := by
  unfold Context.pset
  split
  · rfl
  · simp only [Context.plane, Tbl.get_set_ne _ _ _ h]

/-! ## What a change of a context leaves of it -/

/-- The part of `RegFrame` that speaks of the context of the instruction. -/
structure CtxFrame (w : Writes) (k k' : Context) : Prop where
  scalar : ∀ r, w.dest ≠ .s r → k'.sget r = k.sget r
  address : ∀ r, w.dest ≠ .a r → k'.aget r = k.aget r
  vector : ∀ r i, w.dest ≠ .v r → k'.vlane r i = k.vlane r i
  predicate : ∀ r i, w.dest ≠ .p r → k'.plane r i = k.plane r i
  tile : ∀ r, k'.tget r = k.tget r
  slots : ∀ r, k'.slot r = k.slot r
  claims : k'.live = k.live ∧ k'.shadow = k.shadow
  flags : w.flags = false → k'.astat = k.astat
  random : w.sr = false → k'.srstate = k.srstate
  stream : k'.stream = k.stream

theorem CtxFrame.refl (w : Writes) : CtxFrame w k k :=
  ⟨fun _ _ => rfl, fun _ _ => rfl, fun _ _ _ => rfl, fun _ _ _ => rfl, fun _ => rfl, fun _ => rfl, ⟨rfl, rfl⟩, fun _ => rfl,
    fun _ => rfl, rfl⟩

theorem CtxFrame.trans {k k' k'' : Context} (h : CtxFrame w k k') (h' : CtxFrame w k' k'') : CtxFrame w k k'' where
  scalar r hr := (h'.scalar r hr).trans (h.scalar r hr)
  address r hr := (h'.address r hr).trans (h.address r hr)
  vector r i hr := (h'.vector r i hr).trans (h.vector r i hr)
  predicate r i hr := (h'.predicate r i hr).trans (h.predicate r i hr)
  tile r := (h'.tile r).trans (h.tile r)
  slots r := (h'.slots r).trans (h.slots r)
  claims := ⟨h'.claims.1.trans h.claims.1, h'.claims.2.trans h.claims.2⟩
  flags hf := (h'.flags hf).trans (h.flags hf)
  random hr := (h'.random hr).trans (h.random hr)
  stream := h'.stream.trans h.stream

theorem CtxFrame.sset {d : BitVec 5} (hd : w.dest = .s d) (x : W64) : CtxFrame w k (k.sset d x) := by
  obtain ⟨u, hu⟩ := k.sset_eq d x
  rw [hu]
  exact { CtxFrame.refl k w with scalar := fun _ hr => hu ▸ k.sget_sset_ne x fun h => hr (h ▸ hd) }

theorem CtxFrame.aset {d : BitVec 4} (hd : w.dest = .a d) (x : W64) : CtxFrame w k (k.aset d x) :=
  { CtxFrame.refl k w with address := fun _ hr => k.aget_aset_ne x fun h => hr (h ▸ hd) }

theorem CtxFrame.vset {d : BitVec 5} (hd : w.dest = .v d) (x : List W32) : CtxFrame w k (k.vset d x) :=
  { CtxFrame.refl k w with vector := fun _ i hr => k.vlane_vset_ne x i fun h => hr (h ▸ hd) }

theorem CtxFrame.pset {d : BitVec 3} (hd : w.dest = .p d) (x : List Bool) : CtxFrame w k (k.pset d x) := by
  obtain ⟨u, hu⟩ := k.pset_eq d x
  rw [hu]
  exact { CtxFrame.refl k w with predicate := fun _ i hr => hu ▸ k.plane_pset_ne x i fun h => hr (h ▸ hd) }

theorem CtxFrame.advance (w : Writes) : CtxFrame w k k.advance := { CtxFrame.refl k w with }

theorem CtxFrame.setAstat (hf : w.flags = true) (x : W32) : CtxFrame w k { k with astat := x } :=
  { CtxFrame.refl k w with flags := fun h => absurd h (by simp [hf]) }

theorem CtxFrame.setSrstate (hr : w.sr = true) (x : W32) : CtxFrame w k { k with srstate := x } :=
  { CtxFrame.refl k w with random := fun h => absurd h (by simp [hr]) }

theorem CtxFrame.raiseFlags {fl : W32} (hf : w.flags = true ∨ fl = 0) : CtxFrame w k (k.raiseFlags fl) := by
  rcases hf with hf | rfl
  · exact .setAstat k hf _
  · exact { CtxFrame.refl k w with flags := fun _ => BitVec.or_zero }

/-- The flags that an instruction collects lie within a mask when those of each lane do. -/
theorem foldl_or_and_eq_zero {α : Type} (l : List (α × W32)) (a m : W32) :
    l.foldl (fun a x => a ||| x.2) a &&& m = 0#32 ↔ a &&& m = 0#32 ∧ ∀ x ∈ l, x.2 &&& m = 0#32 := by
  induction l generalizing a with
  | nil => simp
  | cons x l ih =>
    simp only [List.foldl_cons, ih, BitVec.and_or_distrib_right, BitVec.or_eq_zero_iff, List.forall_mem_cons, and_assoc]

theorem foldl_or_lanes_eq_zero {α : Type} {g : Nat → α × W32} (h : ∀ i, (g i).2 = 0) :
    (lanes g).foldl (fun a x => a ||| x.2) 0 = 0 := by
  have hx : ∀ x ∈ lanes g, x.2 &&& BitVec.allOnes 32 = 0#32 := by simp [lanes, h]
  have hfold := (foldl_or_and_eq_zero (lanes g) 0 (BitVec.allOnes 32)).2 ⟨BitVec.zero_and, hx⟩
  rwa [BitVec.and_allOnes] at hfold

theorem CtxFrame.mapLanes {pn : Bool} {pg : BitVec 3} {d : BitVec 5} {g : Nat → W32 × W32} (hd : w.dest = .v d)
    (hf : w.flags = true ∨ ∀ i, (g i).2 = 0) : CtxFrame w k (k.mapLanes pn pg d g) :=
  (vset k hd _).trans (raiseFlags _ (hf.imp_right fun h => foldl_or_lanes_eq_zero fun i => by split <;> simp [h]))

theorem CtxFrame.mapPred {f : SForm} {g : Nat → Bool × W32} (hd : w.dest = .p (f.d.setWidth 3))
    (hf : w.flags = true ∨ ∀ i, (g i).2 = 0) : CtxFrame w k (k.mapPred f g) :=
  (pset k hd _).trans (raiseFlags _ (hf.imp_right fun h => foldl_or_lanes_eq_zero fun i => by split <;> simp [h]))

end

/-! ## A lane-wise write (R192) -/

theorem getD_lanes {α : Type} (g : Nat → α) (a : α) {i : Nat} (h : i < 512) : (lanes g).getD i a = g i := by
  simp [lanes, h]

section
variable (k : Context) (pn : Bool) (pg : BitVec 3) {d : BitVec 5} (g : Nat → W32 × W32)

/-- The values of the lanes with their flags, of which `mapLanes` takes the parts. -/
theorem Context.mapLanes_eq : k.mapLanes pn pg d g =
    (k.vset d (lanes fun i => if k.pred pn pg i then (g i).1 else k.vlane d i)).raiseFlags
      ((lanes fun i => if k.pred pn pg i then g i else (k.vlane d i, 0)).foldl (fun a x => a ||| x.2) 0) := by
  simp only [Context.mapLanes, lanes, List.map_map, Function.comp_def, apply_ite Prod.fst]

theorem Context.vlane_mapLanes_self {i : Nat} (h : i < 512) :
    (k.mapLanes pn pg d g).vlane d i = if k.pred pn pg i then (g i).1 else k.vlane d i := by
  rw [Context.mapLanes_eq, ← getD_lanes (fun i => if k.pred pn pg i then (g i).1 else k.vlane d i) 0 h]
  exact congrArg (List.getD · i 0) (Tbl.get_set_self [] k.v d _)

theorem Context.vlane_mapLanes_ne {r : BitVec 5} (i : Nat) (h : r ≠ d) : (k.mapLanes pn pg d g).vlane r i = k.vlane r i :=
  k.vlane_vset_ne _ i h

/-- The flags that a lane-wise write adds lie within a mask when those of the true lanes do. -/
theorem Context.astat_mapLanes_and {m : W32} (h : ∀ i, i < 512 → k.pred pn pg i = true → (g i).2 &&& m = 0) :
    (k.mapLanes pn pg d g).astat &&& m = k.astat &&& m := by
  have hlanes : ∀ x ∈ lanes (fun i => if k.pred pn pg i then g i else (k.vlane d i, 0)), x.2 &&& m = 0#32 := by
    simp only [lanes, List.forall_mem_map, List.mem_range]
    intro i hi
    split
    next hp => exact h i hi hp
    next => exact BitVec.zero_and
  have hfold := (foldl_or_and_eq_zero _ 0 m).2 ⟨BitVec.zero_and, hlanes⟩
  rw [Context.mapLanes_eq, Context.raiseFlags]
  exact BitVec.and_or_distrib_right.trans (by rw [hfold]; exact BitVec.or_zero)

end

/-! ## What an exception changes (R195, R196) -/

section
variable (s : State) (c : Cx) (e : Exc) (code : W8) (pc data det : W64)

@[simp] theorem State.event_ctxs : (s.event c code pc data det).ctxs = s.ctxs := by
  unfold State.event; split <;> rfl

@[simp] theorem State.event_regs : (s.event c code pc data det).regs = s.regs := by
  unfold State.event; split <;> rfl

@[simp] theorem State.event_mem : (s.event c code pc data det).mem = s.mem := by
  unfold State.event; split <;> rfl

/-- The context after an exception. -/
def Context.stop (k : Context) : Context := { k with st := .stopped, wait := none, parked := false, readyAt := none }

@[simp] theorem Core.events_setStream (q : Core) (id : W32) (st : StreamSt) : (q.setStream id st).events = q.events := rfl

/-- A change of a core that leaves its events leaves those of every core. -/
theorem State.events_updCore {l : LC} {g : Core → Core} (hg : ∀ q, (g q).events = q.events) (l' : LC) :
    ((s.updCore l g).core l').events = (s.core l').events := by
  by_cases h : l' = l
  · rw [h, State.core_updCore, hg]
  · rw [State.core_updCore_ne _ _ h]

/-- An exception stops its context; what else it changes are its core's streams, events and issue unit. -/
theorem State.raise_eq : ∃ u : State, s.raise c e pc data det = u.updCtx c Context.stop ∧
    u.ctxs = s.ctxs ∧ u.regs = s.regs ∧ u.mem = s.mem ∧
    ∀ l, (u.core l).events = ((s.event c e.code pc data det).core l).events := by
  have hunblock (q : Core) : (if q.blockedBy = some c.ix then
      { q with blockedBy := none, ocMiss := none, missBuf := [], arrived := none } else q).events = q.events := by
    split <;> rfl
  simp only [State.raise]
  split
  · exact ⟨_, rfl, by simp, by simp, by simp, State.events_updCore _ hunblock⟩
  · exact ⟨_, rfl, by simp, by simp, by simp, fun l =>
      (State.events_updCore _ hunblock l).trans (State.events_updCore _ (Core.events_setStream · _ _) l)⟩

end

/-! ## What an instruction on registers leaves of the state -/

@[simp] theorem State.ctx_issued (s : State) (c c' : Cx) : (s.issued c).ctx c' = s.ctx c' := rfl

section
variable {w : Writes} {s t u : State}

theorem RegFrame.of_ctx (hk : CtxFrame w (s.ctx w.c) (t.ctx w.c)) (ho : ∀ c', c' ≠ w.c → t.ctx c' = s.ctx c')
    (hr : t.regs = s.regs) (hm : t.mem = s.mem) : RegFrame w s t :=
  { hk with
    others := ho
    registers := fun r => by rw [State.reg, State.reg, hr]
    memory := fun a => by rw [hm] }

theorem RegFrame.of_ctxs_eq (hc : t.ctxs = s.ctxs) (hr : t.regs = s.regs) (hm : t.mem = s.mem) : RegFrame w s t := by
  have hctx (c : Cx) : t.ctx c = s.ctx c := by rw [State.ctx, State.ctx, hc]
  exact .of_ctx (hctx _ ▸ .refl _ w) (fun c' _ => hctx c') hr hm

theorem RegFrame.updCtx {g : Context → Context} (hc : t.ctxs = s.ctxs) (hr : t.regs = s.regs) (hm : t.mem = s.mem)
    (hg : CtxFrame w (s.ctx w.c) (g (s.ctx w.c))) : RegFrame w s (t.updCtx w.c g) := by
  have hctx (c : Cx) : t.ctx c = s.ctx c := by rw [State.ctx, State.ctx, hc]
  refine .of_ctx ?_ (fun c' h => ?_) hr hm
  · rwa [State.ctx_updCtx, hctx]
  · rw [State.ctx_updCtx_ne _ _ h, hctx]

theorem RegFrame.refl (w : Writes) (s : State) : RegFrame w s s := .of_ctxs_eq rfl rfl rfl

theorem RegFrame.ran {g : Context → Context} (hg : CtxFrame w (s.ctx w.c) (g (s.ctx w.c))) : RegFrame w s (s.ran w.c g) := by
  refine .of_ctx ?_ (fun c' h => ?_) rfl rfl
  · simpa [State.ran] using hg.trans (.advance _ w)
  · simp [State.ran, State.ctx_updCtx_ne _ _ h]

theorem RegFrame.finished (w : Writes) (s : State) : RegFrame w s (s.finished w.c) := by
  refine .of_ctx ?_ (fun c' h => ?_) rfl rfl
  · simpa [State.finished] using CtxFrame.advance _ w
  · simp [State.finished, State.ctx_updCtx_ne _ _ h]

theorem RegFrame.waits (w : Writes) (s : State) (x : Wait) : RegFrame w s (s.waits w.c x) :=
  .updCtx rfl rfl rfl { CtxFrame.refl _ w with }

theorem RegFrame.raise (w : Writes) (s : State) (e : Exc) (pc data det : W64) : RegFrame w s (s.raise w.c e pc data det) := by
  obtain ⟨u, hraise, hc, hr, hm, -⟩ := s.raise_eq w.c e pc data det
  exact hraise ▸ .updCtx hc hr hm { CtxFrame.refl _ w with }

end

/-- What the frame of an instruction that only changes its context can answer: the context cannot run, waits, stops at an instruction
that is not allowed, passes over one whose predicate is false, or takes the change. -/
theorem dti_onCtx_cases (c : Cx) (word : W64) (legal lane0 : Bool) (g : Context → Context) (s : State) :
    let t := dti c word legal lane0 (onCtx c g) s
    t = s ∨ (∃ x, t = s.waits c x) ∨ t = s.raise c .illegal (s.ctx c).pc 0 word ∨ t = s.finished c ∨ t = s.ran c g := by
  unfold dti
  split
  · exact .inl rfl
  · split
    · split <;> exact .inr (.inl ⟨_, rfl⟩)
    · exact .inr (.inl ⟨_, rfl⟩)
    · split
      · exact .inr (.inr (.inl rfl))
      · split
        · exact .inr (.inr (.inr (.inl rfl)))
        · exact .inr (.inr (.inr (.inr rfl)))

/-- An instruction that only changes its context, by a change that writes no more than its rule names, leaves what `RegFrame` says. -/
theorem RegFrame.of_onCtx {w : Writes} {s t : State} {o : Out} {word : W64} {legal lane0 : Bool} {g : Context → Context}
    (h : o = .next t) (ho : o = .next (dti w.c word legal lane0 (onCtx w.c g) s)) (hg : ∀ k, CtxFrame w k (g k)) :
    RegFrame w s t := by
  obtain rfl : dti w.c word legal lane0 (onCtx w.c g) s = t := Host.Outcome.next.inj (ho ▸ h)
  rcases dti_onCtx_cases w.c word legal lane0 g s with h | ⟨x, h⟩ | h | h | h <;> rw [h]
  · exact .refl w s
  · exact .waits w s x
  · exact .raise w s _ _ _ _
  · exact .finished w s
  · exact .ran (hg _)

end Sys2Proof.Machine

namespace Sys2Proof.Proofs

open Sys2Proof.Machine

/-- Settles O9: each instruction changes its context by a write of its destination, of flags where its rule names them, and of the
random state for `cvt.n` and `srseed`. -/
theorem registerInstructionsFrame : Obligations.RegisterInstructionsFrame := by
  unfold Obligations.RegisterInstructionsFrame
  intro i w s t hw h
  cases i with
  | add c f | sub c f | mul c f | mulh c f | mulhu c f | divu c f | remu c f | and c f | or c f | xor c f | sll c f | srl c f
  | sra c f | slt c f | sltu c f | min c f | max c f | mvS c f | vext c f | addi c f | andi c f | ori c f | xori c f | slli c f
  | srli c f | srai c f | li c f | lui c f | astatRd c f | srstateRd c f =>
    obtain rfl := Option.some.inj hw
    exact .of_onCtx h rfl fun k => .sset k rfl _
  | mvA c f | addA c f | addiA c f =>
    obtain rfl := Option.some.inj hw
    exact .of_onCtx h rfl fun k => .aset k rfl _
  | fadd c f | fsub c f | fmul c f | fma c f | fdiv c f | fsqrt c f | fmin c f | fmax c f | fcvtSI c f | fcvtIS c f | feq c f
  | flt c f | fle c f =>
    obtain rfl := Option.some.inj hw
    exact .of_onCtx h rfl fun k => (CtxFrame.sset k rfl _).trans (.raiseFlags _ (.inl rfl))
  | astatClr c f =>
    obtain rfl := Option.some.inj hw
    exact .of_onCtx h rfl fun k => .setAstat k rfl _
  | srseed c f =>
    obtain rfl := Option.some.inj hw
    exact .of_onCtx h rfl fun k => .setSrstate k rfl _
  | vadd c f | vsub c f | vmul c f | vfma c f | vfms c f | vdiv c f | vsqrt c f | vrcp c f | vrsqrt c f | vmin c f | vmax c f
  | vrsum c f | vrmax c f | vrmin c f | vrsumsq c f | vexp2 c f | vlog2 c f | vexp c f | vlog c f | vtanh c f | vsigm c f
  | vsilu c f | vgelu c f | vsin c f | vcos c f =>
    obtain rfl := Option.some.inj hw
    exact .of_onCtx h rfl fun k => .mapLanes k rfl (.inl rfl)
  | vabs c f | vneg c f | vmov c f | vbcast c f | vsel c f | vins c f =>
    obtain rfl := Option.some.inj hw
    exact .of_onCtx h rfl fun k => .mapLanes k rfl (.inr fun _ => rfl)
  | cvtN c f =>
    obtain rfl := Option.some.inj hw
    exact .of_onCtx h rfl fun k => ((CtxFrame.setSrstate k rfl _).trans (.vset _ rfl _)).trans (.raiseFlags _ (.inl rfl))
  | cvtW c f =>
    obtain rfl := Option.some.inj hw
    exact .of_onCtx h rfl fun k => (CtxFrame.vset k rfl _).trans (.raiseFlags _ (.inl rfl))
  | vcmpEq c f | vcmpLt c f | vcmpLe c f | vcmpUn c f =>
    obtain rfl := Option.some.inj hw
    exact .of_onCtx h rfl fun k => .mapPred k rfl (.inl rfl)
  | pand c f | por c f | pxor c f | pnot c f | pfirst c f =>
    obtain rfl := Option.some.inj hw
    exact .of_onCtx h rfl fun k => .mapPred k rfl (.inr fun _ => rfl)
  | _ => cases hw

/-- Settles O16: a lane takes its value by its predicate, and a flag outside the mask of the true lanes was there before. -/
theorem lanesUnderPredicates : Obligations.LanesUnderPredicates := by
  unfold Obligations.LanesUnderPredicates
  intro k pn pg d g
  refine ⟨fun i hi hp => ?_, fun i hi hp => ?_, fun r i hr => k.vlane_mapLanes_ne pn pg g i hr, fun m hm => ?_⟩
  · rw [k.vlane_mapLanes_self pn pg g hi, if_pos hp]
  · rw [k.vlane_mapLanes_self pn pg g hi, if_neg (by simp [hp])]
  · calc ((k.mapLanes pn pg d g).astat &&& ~~~k.astat) &&& ~~~m
        = ((k.mapLanes pn pg d g).astat &&& ~~~m) &&& ~~~k.astat := by ac_rfl
      _ = (k.astat &&& ~~~m) &&& ~~~k.astat := by rw [k.astat_mapLanes_and pn pg g hm]
      _ = (k.astat &&& ~~~k.astat) &&& ~~~m := by ac_rfl
      _ = 0 := by simp

end Sys2Proof.Proofs
end

section
/-! SUPPORT and PROOF of exceptions: the fields of a word that several fields are written into, the state of a context as
`CORE_CTX_STATUS` shows it, and what an exception leaves of the contexts and of the core's event records. -/

namespace Sys2Proof.Machine

/-! ## A field read after a field is written -/

section
variable (w : W64) {hi lo hi' lo' : Nat} (v : Nat)

theorem testBit_bits (n : Nat) : (bits w hi lo).testBit n = (decide (n < hi + 1 - lo) && w.getLsbD (n + lo)) := by
  rw [bits, Nat.testBit_mod_two_pow, Nat.testBit_div_two_pow, BitVec.testBit_toNat]

theorem getLsbD_withBits (hlo : lo ≤ hi) (hhi : hi < 64) (n : Nat) :
    (withBits w hi lo v).getLsbD n = if lo ≤ n ∧ n ≤ hi then v.testBit (n - lo) else w.getLsbD n := by
  have hmask : 2 ^ (hi + 1) - 2 ^ lo = (2 ^ (hi + 1 - lo) - 1) * 2 ^ lo := by
    rw [Nat.sub_mul, ← Nat.pow_add, Nat.sub_add_cancel (by omega), Nat.one_mul]
  simp only [withBits, hmask, BitVec.getLsbD_or, BitVec.getLsbD_and, BitVec.getLsbD_not, BitVec.getLsbD_ofNat,
    Nat.testBit_mul_two_pow, Nat.testBit_two_pow_sub_one, Nat.testBit_mod_two_pow]
  rcases Nat.lt_or_ge n 64 with hn | hn
  · by_cases h : lo ≤ n ∧ n ≤ hi
    · simp [h, hn, show n - lo < hi + 1 - lo by omega]
    · have hout : ¬ lo ≤ n ∨ ¬ n - lo < hi + 1 - lo := by omega
      rcases hout with hout | hout <;> simp [h, hn, hout]
  · simp [show ¬ n < 64 by omega, show ¬ n ≤ hi by omega, BitVec.getLsbD_of_ge w n hn]

theorem bits_withBits_self (hlo : lo ≤ hi) (hhi : hi < 64) : bits (withBits w hi lo v) hi lo = v % 2 ^ (hi + 1 - lo) := by
  refine Nat.eq_of_testBit_eq fun n => ?_
  rw [testBit_bits, getLsbD_withBits w v hlo hhi, Nat.testBit_mod_two_pow]
  by_cases hn : n < hi + 1 - lo
  · rw [if_pos (by omega), Nat.add_sub_cancel]
  · simp [hn]

theorem bits_withBits_of_disjoint (hlo : lo ≤ hi) (hhi : hi < 64) (h : hi' < lo ∨ hi < lo') :
    bits (withBits w hi lo v) hi' lo' = bits w hi' lo' := by
  refine Nat.eq_of_testBit_eq fun n => ?_
  rw [testBit_bits, testBit_bits, getLsbD_withBits w v hlo hhi]
  by_cases hn : n < hi' + 1 - lo'
  · rw [if_neg (by omega)]
  · simp [hn]

end

theorem CtxSt.code_lt (x : CtxSt) : x.code < 4 := by
  cases x <;> decide

/-- The field of a context in `CORE_CTX_STATUS` holds its state (R135). -/
theorem State.bits_coreCtxStatus (s : State) (c : Cx) :
    bits (s.regView (rg .coreCtxStatus c.lc.val)) (16 * c.ix.val + 1) (16 * c.ix.val) = (s.ctx c).st.code := by
  obtain ⟨l, i⟩ := c
  fin_cases i <;> simp (disch := omega) [State.regView, rg, ctxsOf, bits_withBits_self, bits_withBits_of_disjoint,
    Nat.mod_eq_of_lt (CtxSt.code_lt _)]

@[simp] theorem State.core_updCtx (s : State) (c : Cx) (g : Context → Context) (l : LC) : (s.updCtx c g).core l = s.core l := rfl

/-! ## The contexts and the events after an exception -/

section
variable (s : State) (c : Cx) (e : Exc) (pc data det : W64)

theorem State.ctx_raise : (s.raise c e pc data det).ctx c = (s.ctx c).stop := by
  obtain ⟨u, hraise, hctxs, -⟩ := s.raise_eq c e pc data det
  rw [hraise, State.ctx_updCtx, State.ctx, hctxs, State.ctx]

theorem State.ctx_raise_ne {c' : Cx} (h : c' ≠ c) : (s.raise c e pc data det).ctx c' = s.ctx c' := by
  obtain ⟨u, hraise, hctxs, -⟩ := s.raise_eq c e pc data det
  rw [hraise, State.ctx_updCtx_ne _ _ h, State.ctx, hctxs, State.ctx]

/-- The record of an exception joins those of the core (R173, R196). -/
theorem State.events_raise {id : W32} {x : Stream} (hid : (s.ctx c).stream = some id) (hx : (s.core c.lc).stream id = some x) :
    ((s.raise c e pc data det).core c.lc).events =
      (s.core c.lc).events ++ [⟨e.code, c.ix, x, pc, data, s.now c.lc, s.epoch c, det⟩] := by
  obtain ⟨u, hraise, -, -, -, hevents⟩ := s.raise_eq c e pc data det
  have hev : ((s.event c e.code pc data det).core c.lc).events =
      (s.core c.lc).events ++ [⟨e.code, c.ix, x, pc, data, s.now c.lc, s.epoch c, det⟩] := by
    simp only [State.event, hid, Option.bind_some, hx, State.core_updCore]
  rw [hraise, State.core_updCtx, hevents, hev]

end

end Sys2Proof.Machine

namespace Sys2Proof.Proofs

open Sys2Proof.Machine

/-- Settles O8: an exception changes its context in the state alone, its field in `CORE_CTX_STATUS` shows that, and its record is
queued before the stream stops. -/
theorem exceptionEntry : Obligations.ExceptionEntry := by
  unfold Obligations.ExceptionEntry
  intro s c e pc data det id x hid hx
  have hctx := s.ctx_raise c e pc data det
  refine ⟨?_, ?_, ?_, ?_, s.events_raise c e pc data det hid hx, ?_, fun c' h => s.ctx_raise_ne c e pc data det h⟩
  · rw [hctx]; rfl
  · rw [hctx]; exact hid
  · rw [hctx]; rfl
  · rw [hctx]; rfl
  · rw [State.bits_coreCtxStatus, hctx]; rfl

end Sys2Proof.Proofs
end

section
/-! PROOF of the vector instructions, the conversions and the predicate instructions: each is the shared frame of its class with the
function of its row, and its flags and lanes are those of a lane-wise write. -/

namespace Sys2Proof.Machine

section
variable {s : State} {c : Cx} {f : SForm} {maj min : W8}

/-- An offered instruction whose lanes are predicated each changes its context, and no more. The change may be written for the context
as it is. -/
theorem dtiV_onCtx_of_offers {g g' : Context → Context} (ho : s.offers c) (hl : f.legal maj.toNat min.toNat = true)
    (hg : g (s.ctx c) = g' (s.ctx c)) : dtiV maj min c f (onCtx c g) s = .next (s.ran c g') := by
  have hupd : s.updCtx c g = s.updCtx c g' := by rw [State.updCtx, hg, State.updCtx]
  rw [dtiV, dti_of_offers _ ho hl rfl, onCtx, State.settle, hupd, State.ran]

theorem vectorOp_of_offers (maj min : W8) (g : W32 → W32 → W32 → W32 × W32) (ho : s.offers c)
    (hl : f.legal maj.toNat min.toNat = true) :
    vectorOp maj min g c f s = .next (s.ran c fun k => k.mapLanes f.pn f.pg f.d fun i =>
      g ((s.ctx c).vlane f.x i) ((s.ctx c).yLane f i) ((s.ctx c).vlane f.z i)) :=
  dtiV_onCtx_of_offers ho hl rfl

theorem compareOp_of_offers (min : W8) (g : W32 → W32 → Bool × W32) (ho : s.offers c) (hl : f.legal 0x14 min.toNat = true) :
    compareOp min g c f s = .next (s.ran c fun k => k.mapPred f fun i => g ((s.ctx c).vlane f.x i) ((s.ctx c).vlane f.y i)) :=
  dtiV_onCtx_of_offers ho hl rfl

theorem predOp_of_offers (min : W8) (g : Bool → Bool → Bool) (ho : s.offers c) (hl : f.legal 0x14 min.toNat = true) :
    predOp min g c f s = .next (s.ran c fun k => k.mapPred f fun i =>
      (g ((s.ctx c).plane (f.x.setWidth 3) i) ((s.ctx c).plane (f.y.setWidth 3) i), 0)) :=
  dtiV_onCtx_of_offers ho hl rfl

/-- The three codes of mod bits [21:20] that a reduction allows give groups of 512, 128 and 32 lanes (R234). -/
theorem groupLog_of_legal {min : Nat} (hl : f.legal 0x11 min = true) : groupLog f.mod =
    if bits (f.mod.setWidth 64) 5 4 = 0 then 9 else if bits (f.mod.setWidth 64) 5 4 = 1 then 7 else 5 := by
  have hmod : f.mod = 0x00 ∨ f.mod = 0x10 ∨ f.mod = 0x20 := by
    simp [SForm.legal] at hl
    tauto
  rcases hmod with h | h | h <;> rw [h] <;> decide

theorem reduceOp_of_offers (min : W8) (pre : W32 → W32 × W32) (op : W32 → W32 → W32 × W32) (ho : s.offers c)
    (hl : f.legal 0x11 min.toNat = true) :
    let n : Nat := if bits (f.mod.setWidth 64) 5 4 = 0 then 9 else if bits (f.mod.setWidth 64) 5 4 = 1 then 7 else 5
    reduceOp min pre op c f s = .next (s.ran c fun k => k.mapLanes f.pn f.pg f.d fun j =>
      if j < 512 / 2 ^ n then
        let src := (List.range (2 ^ n)).map fun m => pre ((s.ctx c).vlane f.x (2 ^ n * j + m))
        treeReduce op n (src.map (·.1), src.foldl (fun a w => a ||| w.2) 0)
      else (0, 0)) :=
  dtiV_onCtx_of_offers ho hl (by simp only [Context.reduceLane, groupLog_of_legal hl])

end

end Sys2Proof.Machine

namespace Sys2Proof.Proofs

open Sys2Proof.Machine

/-- Settles O15: each instruction is `vectorOp` of its function, or the shared frame of its class itself. -/
theorem vectorArithmeticResults : Obligations.VectorArithmeticResults := by
  unfold Obligations.VectorArithmeticResults
  intro c f s ho
  exact ⟨vectorOp_of_offers 0x10 0x00 (fun x y _ => fAdd x y) ho, vectorOp_of_offers 0x10 0x01 (fun x y _ => fSub x y) ho,
    vectorOp_of_offers 0x10 0x02 (fun x y _ => fMul x y) ho, vectorOp_of_offers 0x10 0x03 fFma ho,
    vectorOp_of_offers 0x10 0x04 (fun x y z => fFma x y (fNeg z)) ho, vectorOp_of_offers 0x10 0x05 (fun x y _ => fDiv x y) ho,
    vectorOp_of_offers 0x10 0x06 (fun x _ _ => fSqrt x) ho, vectorOp_of_offers 0x10 0x07 (fun x _ _ => vfun 10 x) ho,
    vectorOp_of_offers 0x10 0x08 (fun x _ _ => vfun 11 x) ho, vectorOp_of_offers 0x10 0x09 (fun x y _ => fMin x y) ho,
    vectorOp_of_offers 0x10 0x0A (fun x y _ => fMax x y) ho, vectorOp_of_offers 0x10 0x0B (fun x _ _ => (x &&& 0x7FFFFFFF, 0)) ho,
    vectorOp_of_offers 0x10 0x0C (fun x _ _ => (x ^^^ 0x80000000, 0)) ho, vectorOp_of_offers 0x10 0x0D (fun x _ _ => (x, 0)) ho,
    fun hl => dtiV_onCtx_of_offers ho hl rfl, fun hl => dtiV_onCtx_of_offers ho hl rfl,
    fun hl hp => dtiS_onCtx_of_offers ho hp hl rfl, fun hl => dtiV_onCtx_of_offers ho hl rfl⟩

/-- Settles O17: a reduction is `reduceOp` of its operation, a transcendental `vectorOp` of its fixed function. -/
theorem reductionAndFunctionResults : Obligations.ReductionAndFunctionResults := by
  unfold Obligations.ReductionAndFunctionResults
  intro c f s ho
  exact ⟨reduceOp_of_offers 0x00 (fun w => (w, 0)) fAdd ho, reduceOp_of_offers 0x01 (fun w => (w, 0)) fMax ho,
    reduceOp_of_offers 0x02 (fun w => (w, 0)) fMin ho, reduceOp_of_offers 0x03 (fun w => fMul w w) fAdd ho,
    vectorOp_of_offers 0x12 0x00 (fun x _ _ => vfun 0 x) ho, vectorOp_of_offers 0x12 0x01 (fun x _ _ => vfun 1 x) ho,
    vectorOp_of_offers 0x12 0x02 (fun x _ _ => vfun 2 x) ho, vectorOp_of_offers 0x12 0x03 (fun x _ _ => vfun 3 x) ho,
    vectorOp_of_offers 0x12 0x04 (fun x _ _ => vfun 4 x) ho, vectorOp_of_offers 0x12 0x05 (fun x _ _ => vfun 5 x) ho,
    vectorOp_of_offers 0x12 0x06 (fun x _ _ => vfun 6 x) ho, vectorOp_of_offers 0x12 0x07 (fun x _ _ => vfun 7 x) ho,
    vectorOp_of_offers 0x12 0x08 (fun x _ _ => vfun 8 x) ho, vectorOp_of_offers 0x12 0x09 (fun x _ _ => vfun 9 x) ho⟩

/-- Settles O18: a comparison is `compareOp`, a logic operation `predOp`, and the others are the shared frame of their class. -/
theorem conversionAndPredicateResults : Obligations.ConversionAndPredicateResults := by
  unfold Obligations.ConversionAndPredicateResults
  intro c f s ho
  exact ⟨fun hl => dtiV_onCtx_of_offers ho hl rfl, fun hl => dtiV_onCtx_of_offers ho hl rfl,
    compareOp_of_offers 0x00 fEq ho, compareOp_of_offers 0x01 fLt ho, compareOp_of_offers 0x02 fLe ho,
    compareOp_of_offers 0x03 fUn ho, predOp_of_offers 0x04 (fun a b => a && b) ho, predOp_of_offers 0x05 (fun a b => a || b) ho,
    predOp_of_offers 0x06 (fun a b => a != b) ho, predOp_of_offers 0x07 (fun a _ => !a) ho,
    fun hl => dtiV_onCtx_of_offers ho hl rfl⟩

end Sys2Proof.Proofs
end

section
/-! PROOF of the stores: an offered store whose parts are planned and find room writes them and moves on, and a store of 8 bytes to a
register is journaled and written after it. -/

namespace Sys2Proof.Machine

section
variable {s : State} {c : Cx} {f : MForm}

/-- An offered M-form instruction with allowed fields and a true predicate, or predicated lanes, does its own effect. -/
theorem dtiM_of_offers {maj : W8} {min : BitVec 4} {vec : Bool} (body : State → Eff) (ho : s.offers c)
    (hl : f.legal maj.toNat min.toNat = true) (hp : vec = true ∨ (s.ctx c).pred f.pn f.pg 0 = true) :
    dtiM maj min vec c f body s = .next (State.settle c (body s)) := by
  rw [dtiM, dti_of_offers body ho hl (by simpa using hp)]

theorem settle_done (c : Cx) (s : State) : State.settle c (.done s) = s.finished c := rfl

/-! ## Stores to memory (R330, R331) -/

theorem guardOp_of_unchecked (h : (s.ctx c).check = none) (body : State → Eff) : guardOp c body s = body s := by
  simp only [guardOp, h]

/-- A store whose parts are planned and find room is done, where nothing holds it back. -/
theorem storeThen_done {va : W64} {n : Nat} {pieces : List (Nat × Nat)} {bs : List W8} {h : Hint} {tag : WriteTag}
    {guard : (State → Eff) → State → Eff} {ps : List Part} {t : State} (hguard : ∀ body, guard body s = body s)
    (hplan : s.storePlan c va n pieces = .ok ps) (hparts : s.storeParts c va ps bs h tag = some t) :
    storeThen c va n pieces bs h tag guard s = .done (t.digests c va pieces bs) := by
  simp only [storeThen, hplan, hparts, hguard]

theorem scalarStore_of_memory {va v : W64} {n : Nat} {h : Hint} {tag : WriteTag} {guard : (State → Eff) → State → Eff}
    (hdev : s.deviceAt c va n 1 = none) :
    scalarStore c va v n h tag guard s = storeThen c va n [(0, n)] (leBytes n v.toNat) h tag guard s := by
  simp only [scalarStore, hdev]

theorem vectorStore_of_offers {min : BitVec 4} {base n : Nat} (ho : s.offers c) (hl : f.legal 0x21 min.toNat = true)
    (hva : ((s.ctx c).ea f).toNat % 4 = 0) {ps : List Part} {t : State}
    (hplan : s.storePlan c ((s.ctx c).ea f) (4 * n) ((s.ctx c).lanePieces f base n) = .ok ps)
    (hparts : s.storeParts c ((s.ctx c).ea f) ps ((s.ctx c).laneBytes f.d base n) (hintOf f.hint) .store = some t) :
    vectorStore min base n c f s =
      .next ((t.digests c ((s.ctx c).ea f) ((s.ctx c).lanePieces f base n) ((s.ctx c).laneBytes f.d base n)).finished c) := by
  rw [vectorStore, dtiM_of_offers _ ho hl (.inl rfl)]
  simp only [hva, ne_eq, not_true_eq_false, if_false, storeThen_done (guard := id) (fun _ => rfl) hplan hparts, settle_done]

/-! ## Stores to a register (R211, R587, R719) -/

theorem mem_of_pickReg {x : Nat} {rs : List Reg} {r : Reg} (h : pickReg x rs = .reg r) : r ∈ rs := by
  unfold pickReg at h
  split at h
  next r' hfind => exact RegTarget.reg.inj h ▸ List.mem_of_find?_eq_some hfind
  next => cases h

/-- The `SEC_` and `BOOT_` pages of HD hold registers of those blocks only (R717, R718). The tests for the pages below 0xC0
are passed over. -/
theorem agentMay_of_mem_blockRegs {o : Nat} {rs : List Reg} {r : Reg} (hlo : 0xC0 ≤ o / 0x1000) (hhi : o / 0x1000 < 0xE0)
    (h : blockRegs 16 o = some rs) (hr : r ∈ rs) : agentMay (.dti c) r.kind = false := by
  unfold blockRegs at h
  dsimp only at h
  generalize o / 0x1000 = page at *
  rw [if_neg (by omega), if_neg (by omega), if_neg (by omega), if_neg (by omega), if_neg (by omega), if_neg (by omega),
    if_neg (by simp; omega), if_neg (by decide), if_neg (by omega), if_neg (by omega), if_neg (by omega), if_neg (by omega),
    if_neg (by omega)] at h
  split_ifs at h
  · obtain rfl := Option.some.inj h
    revert r
    simp [agentMay]
  · obtain rfl := Option.some.inj h
    revert r
    simp [agentMay]
  · omega

/-- What a register access reaches is what its offset names. The kernel would compute the offset when it compares an access with
the body of `regAccess`, so the function is unfolded by itself and not at its arguments. -/
theorem regTarget_of_regAccess {a n sh : Nat} {r : Reg} {w : W64} (h : regAccess a n = .reg r w sh) :
    regTarget (a - 0xE0000000000) = .reg r := by
  have hbody : regAccess = regAccess := rfl
  conv_rhs at hbody => delta regAccess
  rw [hbody] at h
  beta_reduce at h
  generalize regTarget (a - 0xE0000000000) = x at h ⊢
  cases x with
  | hole => cases h
  | nothing => dsimp only at h; split at h <;> cases h
  | reg r' =>
    dsimp only at h
    split_ifs at h <;> rw [(RegAcc.reg.inj h).1]

/-- The pages that are shut to a context name no register that is open to it (R655, R688, R726). -/
theorem pageShut_eq_false {a n sh : Nat} {r : Reg} {w : W64} (hr : regAccess a n = .reg r w sh)
    (hmay : agentMay (.dti c) r.kind = true) : pageShut (.dti c) a = false := by
  have htarget := regTarget_of_regAccess hr
  by_contra hshut
  obtain ⟨-, hlo, hhi⟩ : _ ∧ 0xE00080C0000 ≤ a ∧ a < 0xE00080E0000 := by simpa [pageShut] using hshut
  have hdie : (a - 0xE0000000000) / 0x800000 = 16 := by omega
  simp only [regTarget, hdie] at htarget
  rw [if_neg (by decide)] at htarget
  split at htarget
  next => cases htarget
  next rs hrs =>
    have hno := agentMay_of_mem_blockRegs (c := c) (by omega) (by omega) hrs (mem_of_pickReg htarget)
    exact absurd hmay (by simp [hno])

theorem journal_fresh {kind : Nat} (hreplay : (s.ctx c).replayNext = none) (hroom : (s.jCounts c).1 < 191) :
    s.journal c kind = .fresh s := by
  simp only [State.journal, hreplay, if_neg (Nat.not_le.2 hroom)]

/-- A store of 8 bytes to a register that is open to the context, outside of a checked interval and a replay. -/
theorem deviceWrite_register {a sh : Nat} {r : Reg} {m va v : W64} (hr : regAccess a 8 = .reg r m sh)
    (hmay : agentMay (.dti c) r.kind = true) (hcheck : (s.ctx c).check = none) (hreplay : (s.ctx c).replayNext = none)
    (hroom : (s.jCounts c).1 < 191) : s.deviceWrite c a 8 true va v =
      completed c ((s.jAppend c 7 0 (s.ctx c).pc 0).digest c va (leBytes 8 v.toNat)) fun s => s.regWrite (.dti c) r v := by
  simp [State.deviceWrite, pageShut_eq_false hr hmay, hr, hmay, guardOp_of_unchecked hcheck, journaled, journal_fresh hreplay hroom]

end

end Sys2Proof.Machine

namespace Sys2Proof.Proofs

open Sys2Proof.Machine

/-- Settles O22: each store to memory is `storeThen` of its bytes, and a store to a register is `completed` before the register is
written. -/
theorem storesComplete : Obligations.StoresComplete := by
  unfold Obligations.StoresComplete
  intro c f s ho
  refine ⟨fun hp hl hdev ps t hplan hparts => ?_, fun hp hl a r m sh hdev hn hr hmay hcheck hreplay hroom => ?_, fun hva => ?_,
    fun hp hva hl ps t hplan hparts => ?_, fun hp hva hl hdev hcheck ps t hplan hparts => ?_⟩
  · refine (dtiM_of_offers _ ho hl (.inr hp)).trans ?_
    simp only [sizeOf4, scalarStore_of_memory hdev, storeThen_done (guard := id) (fun _ => rfl) hplan hparts, settle_done]
  · refine (dtiM_of_offers _ ho hl (.inr hp)).trans ?_
    rw [hn] at hdev hr
    simp only [sizeOf4, scalarStore, hn, hdev, deviceWrite_register hr hmay hcheck hreplay hroom]
    rfl
  · exact ⟨fun hl _ _ => vectorStore_of_offers (min := 0x1) (n := 512) ho hl hva,
      fun hl _ _ => vectorStore_of_offers (min := 0x3) ho hl hva,
      fun hl _ _ => vectorStore_of_offers (min := 0x5) (n := 4) ho hl hva,
      fun hl _ _ => vectorStore_of_offers (min := 0x6) (n := 4) ho hl hva⟩
  · refine (dtiM_of_offers _ ho hl (.inr hp)).trans ?_
    simp only [hva, ne_eq, not_true_eq_false, if_false, storeThen_done (guard := id) (fun _ => rfl) hplan hparts, settle_done]
  · refine (dtiM_of_offers _ ho hl (.inr hp)).trans ?_
    simp only [hva, ne_eq, not_true_eq_false, if_false, scalarStore_of_memory hdev,
      storeThen_done (guardOp_of_unchecked hcheck) hplan hparts, settle_done]

end Sys2Proof.Proofs
end

section
/-! PROOF of the scalar instructions, the branches and the loops: each is the shared frame of its form with the function of its row,
and loop levels that end together are left one after the other. -/

namespace Sys2Proof.Machine

/-! ## Scalar instructions (R228, R229, R231) -/

section
variable {s : State} {c : Cx}

/-- An offered I-form instruction with allowed fields and a true predicate does its own effect. -/
theorem dtiI_of_offers {maj min : W8} {f : IForm} {body : State → Eff} {t : State} (ho : s.offers c)
    (hp : (s.ctx c).pred f.pn f.pg 0 = true) (hl : f.legal maj.toNat min.toNat = true)
    (ht : State.settle c (body s) = t) : dtiI maj min c f body s = .next t := by
  rw [dtiI, dti_of_offers body ho hl hp, ht]

/-- A change of the context, which may be written for the context as it is. -/
theorem settle_onCtx {g g' : Context → Context} (hg : g (s.ctx c) = g' (s.ctx c)) :
    State.settle c (onCtx c g s) = s.ran c g' := by
  have hupd : s.updCtx c g = s.updCtx c g' := by rw [State.updCtx, hg, State.updCtx]
  rw [onCtx, State.settle, hupd, State.ran]

theorem scalarOp_of_offers (min : W8) (g : W64 → W64 → W64) {f : SForm} {w : W64} (ho : s.offers c)
    (hp : (s.ctx c).pred f.pn f.pg 0 = true) (hl : f.legal 0x01 min.toNat = true)
    (hw : g ((s.ctx c).sget f.x) ((s.ctx c).sget f.y) = w) :
    scalarOp min g c f s = .next (s.ran c fun k => k.sset f.d w) :=
  dtiS_onCtx_of_offers ho hp hl (by rw [hw])

theorem scalarImm_of_offers (min : W8) (g : W64 → BitVec 34 → W64) {f : IForm} (ho : s.offers c)
    (hp : (s.ctx c).pred f.pn f.pg 0 = true) (hl : f.legal 0x02 min.toNat = true) :
    scalarImm min g c f s = .next (s.ran c fun k => k.sset f.d (g ((s.ctx c).sget f.x) f.imm34)) :=
  dtiI_of_offers ho hp hl (settle_onCtx rfl)

end

/-- A choice by the comparison of signed words is one by their values. -/
theorem ite_slt {α : Type} (x y : W64) (a b : α) : (if x.slt y then a else b) = if x.toInt < y.toInt then a else b := by
  simp only [BitVec.slt_iff_toInt_lt]

theorem ite_ult {α : Type} (x y : W64) (a b : α) : (if x.ult y then a else b) = if x.toNat < y.toNat then a else b := by
  simp only [BitVec.ult_iff_toNat_lt]

end Sys2Proof.Machine

namespace Sys2Proof.Proofs

open Sys2Proof.Machine

/-- Settles O10: each instruction is `scalarOp` of its function, or the shared frame of the S-form itself. -/
theorem scalarIntegerResults : Obligations.ScalarIntegerResults := by
  unfold Obligations.ScalarIntegerResults
  intro c f s ho hp
  exact ⟨fun hl => scalarOp_of_offers 0x00 (fun x y => x + y) ho hp hl rfl,
    fun hl => scalarOp_of_offers 0x01 (fun x y => x - y) ho hp hl rfl,
    fun hl => scalarOp_of_offers 0x02 (fun x y => x * y) ho hp hl rfl,
    fun hl => scalarOp_of_offers 0x03 (fun x y => BitVec.ofInt 64 (x.toInt * y.toInt / 2 ^ 64)) ho hp hl rfl,
    fun hl => scalarOp_of_offers 0x04 (fun x y => BitVec.ofNat 64 (x.toNat * y.toNat / 2 ^ 64)) ho hp hl rfl,
    fun hl => scalarOp_of_offers 0x05 (fun x y => if y = 0 then BitVec.allOnes 64 else x / y) ho hp hl rfl,
    fun hl => scalarOp_of_offers 0x06 (fun x y => if y = 0 then x else x % y) ho hp hl rfl,
    fun hl => scalarOp_of_offers 0x07 (fun x y => x &&& y) ho hp hl rfl,
    fun hl => scalarOp_of_offers 0x08 (fun x y => x ||| y) ho hp hl rfl,
    fun hl => scalarOp_of_offers 0x09 (fun x y => x ^^^ y) ho hp hl rfl,
    fun hl => scalarOp_of_offers 0x0A (fun x y => x <<< (y.toNat % 64)) ho hp hl rfl,
    fun hl => scalarOp_of_offers 0x0B (fun x y => x >>> (y.toNat % 64)) ho hp hl rfl,
    fun hl => scalarOp_of_offers 0x0C (fun x y => x.sshiftRight (y.toNat % 64)) ho hp hl rfl,
    fun hl => scalarOp_of_offers 0x0D (fun x y => if x.slt y then 1 else 0) ho hp hl (ite_slt ..),
    fun hl => scalarOp_of_offers 0x0E (fun x y => if x.ult y then 1 else 0) ho hp hl (ite_ult ..),
    fun hl => scalarOp_of_offers 0x0F (fun x y => if x.slt y then x else y) ho hp hl (ite_slt ..),
    fun hl => scalarOp_of_offers 0x10 (fun x y => if x.slt y then y else x) ho hp hl (ite_slt ..),
    fun hl => dtiS_onCtx_of_offers ho hp hl rfl,
    fun hl => dtiS_onCtx_of_offers ho hp hl rfl, fun hl => dtiS_onCtx_of_offers ho hp hl rfl⟩

/-- Settles O11: each instruction is `scalarImm` of its function, or the shared frame of the I-form itself. -/
theorem scalarImmediateResults : Obligations.ScalarImmediateResults := by
  unfold Obligations.ScalarImmediateResults
  intro c f s ho hp
  exact ⟨scalarImm_of_offers 0x00 (fun x i => x + i.signExtend 64) ho hp,
    scalarImm_of_offers 0x01 (fun x i => x &&& i.setWidth 64) ho hp,
    scalarImm_of_offers 0x02 (fun x i => x ||| i.setWidth 64) ho hp,
    scalarImm_of_offers 0x03 (fun x i => x ^^^ i.setWidth 64) ho hp,
    scalarImm_of_offers 0x04 (fun x i => x <<< i.toNat) ho hp, scalarImm_of_offers 0x05 (fun x i => x >>> i.toNat) ho hp,
    scalarImm_of_offers 0x06 (fun x i => x.sshiftRight i.toNat) ho hp,
    scalarImm_of_offers 0x07 (fun _ i => i.signExtend 64) ho hp,
    scalarImm_of_offers 0x08 (fun _ i => i.setWidth 64 <<< 30) ho hp,
    fun hl => dtiI_of_offers ho hp hl (settle_onCtx rfl)⟩

/-- Settles O14: four of them change their context only; `time.rd` meets no entry in the journal and appends its own. -/
theorem statusSeedTimeResults : Obligations.StatusSeedTimeResults := by
  unfold Obligations.StatusSeedTimeResults
  intro c f s ho hp
  refine ⟨fun hl => ?_, fun hl => ?_, fun hl => ?_, fun hl => ?_, fun hl hreplay hroom => ?_⟩
  iterate 4 exact dtiI_of_offers ho hp hl (settle_onCtx rfl)
  refine dtiI_of_offers ho hp hl ?_
  rw [journaled, journal_fresh hreplay hroom]
  rfl

end Sys2Proof.Proofs

namespace Sys2Proof.Machine

/-! ## Branches and loops (R261, R262, R762) -/

section
variable {s : State} {c : Cx} {f : BForm}

theorem Tbl.set_set_self {κ α : Type} [DecidableEq κ] (t : Tbl κ α) (k : κ) (x y : α) :
    Tbl.set (Tbl.set t k x) k y = Tbl.set t k y := by
  induction t with
  | nil => simp [Tbl.set]
  | cons e t ih =>
    obtain ⟨j, z⟩ := e
    by_cases h : j = k <;> simp [Tbl.set, h, ih]

theorem State.updCtx_updCtx (s : State) (c : Cx) (g g' : Context → Context) :
    (s.updCtx c g).updCtx c g' = s.updCtx c fun k => g' (g k) := by
  rw [State.updCtx, State.ctx_updCtx, State.updCtx, State.setCtx, State.setCtx, Tbl.set_set_self]
  rfl

/-- An offered B-form instruction with allowed fields and a true predicate does its own effect. -/
theorem dtiB_of_offers {maj : W8} {min : BitVec 4} {body : State → Eff} {t : State} (ho : s.offers c)
    (hp : (s.ctx c).pred f.pn f.pg 0 = true) (hl : f.legal maj.toNat min.toNat = true)
    (ht : State.settle c (body s) = t) : dtiB maj min c f body s = .next t := by
  rw [dtiB, dti_of_offers body ho hl hp, ht]

/-- A branch: the change that comes with it, the jump, and the issue of the step. -/
def State.jumped (s : State) (c : Cx) (pc : W64) (g : Context → Context) : State :=
  ((s.updCtx c g).updCtx c (·.branch pc)).issued c

theorem settle_jump (pc : W64) : State.settle c (.jump s pc) = s.jumped c pc id := by
  rw [State.settle, State.jumped, State.updCtx_updCtx]
  rfl

/-- A conditional branch whose function decides `b`. -/
theorem branchOp_of_offers (min : BitVec 4) (g : W64 → W64 → Bool) {b : Prop} (ho : s.offers c)
    (hp : (s.ctx c).pred f.pn f.pg 0 = true) (hl : f.legal 0x40 min.toNat = true)
    (hb : g ((s.ctx c).sget f.x) ((s.ctx c).sget f.y) = true ↔ b) :
    (b → branchOp min g c f s = .next (s.jumped c ((s.ctx c).pc + 8 * f.off38.signExtend 64) id)) ∧
    (¬b → branchOp min g c f s = .next (s.finished c)) := by
  refine ⟨fun h => dtiB_of_offers ho hp hl ?_, fun h => dtiB_of_offers ho hp hl ?_⟩
  · simp only [hb.2 h, if_true, settle_jump, branchTo]
  · simp only [mt hb.1 h, if_false, settle_done, Bool.false_eq_true]

end

/-- A level with a count other than 1 goes round again: the count falls by one, and is not 0 (R762). -/
theorem loopEnd_again {e : W64} {l : LoopLevel} (t : List LoopLevel) (he : l.last = e) (hc : l.count ≠ 1) :
    loopEnd e (l :: t) = ({ l with count := l.count - 1 } :: t, l.start) := by
  have hne : l.count - 1 ≠ 0 := fun h => hc (sub_eq_zero.1 h)
  rw [loopEnd, if_pos he, if_pos hne]

/-- A level in its last round is left, and the next is asked (R762). -/
theorem loopEnd_leave {e : W64} {l : LoopLevel} (t : List LoopLevel) (he : l.last = e) (hc : l.count = 1) :
    loopEnd e (l :: t) = loopEnd e t := by
  rw [loopEnd, if_pos he, if_neg (by simp [hc])]

/-- Levels in their last round that end together are left together. -/
theorem loopEnd_leave_all {e : W64} {ended : List LoopLevel} (t : List LoopLevel) (h : ∀ x ∈ ended, x.last = e ∧ x.count = 1) :
    loopEnd e (ended ++ t) = loopEnd e t := by
  induction ended with
  | nil => rfl
  | cons x xs ih =>
    obtain ⟨⟨hlast, hcount⟩, hxs⟩ := List.forall_mem_cons.1 h
    rw [List.cons_append, loopEnd_leave _ hlast hcount, ih hxs]

end Sys2Proof.Machine

namespace Sys2Proof.Proofs

open Sys2Proof.Machine

/-- Settles O28: a condition is decided by its function, and each other instruction has the effect of its case. -/
theorem branchesAndLoops : Obligations.BranchesAndLoops := by
  unfold Obligations.BranchesAndLoops
  intro c f s ho hp
  refine ⟨fun hl => branchOp_of_offers 0x0 (fun x y => x = y) ho hp hl decide_eq_true_iff,
    fun hl => branchOp_of_offers 0x1 (fun x y => x ≠ y) ho hp hl decide_eq_true_iff,
    fun hl => branchOp_of_offers 0x2 (fun x y => x.slt y) ho hp hl BitVec.slt_iff_toInt_lt,
    fun hl => branchOp_of_offers 0x3 (fun x y => !x.slt y) ho hp hl (by simp [BitVec.slt]),
    fun hl => branchOp_of_offers 0x4 (fun x y => x.ult y) ho hp hl BitVec.ult_iff_toNat_lt,
    fun hl => branchOp_of_offers 0x5 (fun x y => !x.ult y) ho hp hl (by simp [BitVec.ult]),
    fun hl => dtiB_of_offers ho hp hl rfl, fun hl => dtiB_of_offers ho hp hl (settle_jump _),
    fun hl => dtiB_of_offers ho hp hl rfl,
    fun hl => ⟨fun hx => dtiB_of_offers ho hp hl ?_, fun hx hroom => dtiB_of_offers ho hp hl ?_,
      fun hx hfull => dtiB_of_offers ho hp hl ?_⟩,
    fun hl => ⟨fun l t hloops => dtiB_of_offers ho hp hl ?_, fun hloops => dtiB_of_offers ho hp hl ?_⟩⟩
  · simp only [if_pos hx, settle_jump]
    rfl
  · simp only [if_neg hx, if_neg (Nat.not_le.2 hroom)]
    rfl
  · simp only [if_neg hx, if_pos hfull]
    rfl
  · simp only [hloops]
    rfl
  · simp only [hloops]
    rfl

/-- Settles O29: levels that end together are left by induction, and the first with rounds to go goes round. -/
theorem loopEnds : Obligations.LoopEnds := by
  unfold Obligations.LoopEnds
  refine ⟨fun _ => rfl, fun e l t hl => ?_, fun e l t => loopEnd_leave t, fun e l t => loopEnd_again t,
    fun e ended t l h hl hc => ?_⟩
  · rw [loopEnd, if_neg hl]
  · rw [loopEnd_leave_all _ h, loopEnd_again t hl hc]

end Sys2Proof.Proofs
end

section
/-! PROOF of the ordinary loads: an offered load whose bytes are at hand ends with the effect of its bytes, and a read of a register
with the register's value. -/

namespace Sys2Proof.Machine

section
variable {s u : State} {c : Cx} {f : MForm} {d : List (Nat × List W8)}

theorem loadThen_ok {va : W64} {n : Nat} {pieces : List (Nat × Nat)} {h : Hint} {g : State → List W8 → Eff}
    (hload : s.load c va pieces h = .ok u d) : loadThen c va n pieces h g s = g (u.loaded c) (assemble n d) := by
  simp only [loadThen, hload]

/-- A read of a register that is open to the context gives its value, with the read's effect (R719, R720). -/
theorem deviceRead_register {a n sh : Nat} {r : Reg} {m va : W64} (hr : regAccess a n = .reg r m sh)
    (hmay : agentMay (.dti c) r.kind = true) :
    s.deviceRead c a n true va = .ok ((s.regRead (.dti c) r m).1, (s.regRead (.dti c) r m).2 >>> sh) := by
  simp [State.deviceRead, pageShut_eq_false hr hmay, hr, hmay]

theorem scalarLoad_of_memory (min : BitVec 4) (ext : Nat → W64 → W64) (ho : s.offers c)
    (hp : (s.ctx c).pred f.pn f.pg 0 = true) (hl : f.legal 0x20 min.toNat = true)
    (hdev : s.deviceAt c ((s.ctx c).ea f) (2 ^ f.size.toNat) 0 = none)
    (hload : s.load c ((s.ctx c).ea f) [(0, 2 ^ f.size.toNat)] (hintOf f.hint) = .ok u d) :
    scalarLoad min ext c f s = .next ((u.loaded c).ran c fun k =>
      k.sset f.d (ext (2 ^ f.size.toNat) (leWord (assemble (2 ^ f.size.toNat) d)))) := by
  rw [scalarLoad, dtiM_of_offers _ ho hl (.inr hp)]
  simp only [sizeOf4, hdev, loadThen_ok hload]
  rfl

theorem scalarLoad_of_register (min : BitVec 4) (ext : Nat → W64 → W64) {a sh : Nat} {r : Reg} {m : W64} (ho : s.offers c)
    (hp : (s.ctx c).pred f.pn f.pg 0 = true) (hl : f.legal 0x20 min.toNat = true)
    (hdev : s.deviceAt c ((s.ctx c).ea f) (2 ^ f.size.toNat) 0 = some (a, true))
    (hr : regAccess a (2 ^ f.size.toNat) = .reg r m sh) (hmay : agentMay (.dti c) r.kind = true) :
    scalarLoad min ext c f s = .next ((s.regRead (.dti c) r m).1.ran c fun k =>
      k.sset f.d (ext (2 ^ f.size.toNat) ((s.regRead (.dti c) r m).2 >>> sh))) := by
  rw [scalarLoad, dtiM_of_offers _ ho hl (.inr hp)]
  simp only [sizeOf4, hdev, deviceRead_register hr hmay]
  rfl

theorem vectorLoad_of_offers (min : BitVec 4) (base n : Nat) (ho : s.offers c) (hl : f.legal 0x21 min.toNat = true)
    (hva : ((s.ctx c).ea f).toNat % 4 = 0)
    (hload : s.load c ((s.ctx c).ea f) ((s.ctx c).lanePieces f base n) (hintOf f.hint) = .ok u d) :
    vectorLoad min base n c f s = .next ((u.loaded c).ran c fun k => k.setLanes f base n (assemble (4 * n) d)) := by
  rw [vectorLoad, dtiM_of_offers _ ho hl (.inl rfl)]
  simp only [hva, ne_eq, not_true_eq_false, if_false, loadThen_ok hload]
  rfl

end

end Sys2Proof.Machine

namespace Sys2Proof.Proofs

open Sys2Proof.Machine

/-- Settles O19: a scalar load from memory or of a register is `scalarLoad` of its extension, a vector load `vectorLoad` of its range;
a descriptor that passes its checks is loaded into its register. -/
theorem loadsDeliverTheirBytes : Obligations.LoadsDeliverTheirBytes := by
  unfold Obligations.LoadsDeliverTheirBytes
  intro c f s ho
  refine ⟨fun u d hp hdev hload => ⟨fun hl => ?_, fun hl => ?_⟩, fun a r m sh hp hdev hr hmay hl => ?_,
    fun u d hva => ⟨fun hl hload => ?_, fun hl hload => ?_, fun hl hload => ?_⟩, fun u d hp hva hl hload hvalid => ?_⟩
  · exact scalarLoad_of_memory 0x0 (fun _ v => v) ho hp hl hdev hload
  · exact scalarLoad_of_memory 0x1 (fun n v => (v.setWidth (8 * n)).signExtend 64) ho hp hl hdev hload
  · exact scalarLoad_of_register 0x0 (fun _ v => v) ho hp hl hdev hr hmay
  · exact vectorLoad_of_offers 0x0 0 512 ho hl hva hload
  · exact vectorLoad_of_offers 0x2 0 (packedLanes f.size) ho hl hva hload
  · exact vectorLoad_of_offers 0x4 384 4 ho hl hva hload
  · refine (dtiM_of_offers _ ho hl (.inr hp)).trans ?_
    simp only [hva, ne_eq, not_true_eq_false, if_false, loadThen_ok hload, hvalid]
    rfl

end Sys2Proof.Proofs
end

section
/-! SUPPORT and PROOF of the transactions of the homes: what the last response, the acknowledgement and the timeout leave of a line,
and what a context does with the value that it has waited for. -/

namespace Sys2Proof.Machine

theorem Leads.intro {i : Instr} {s t : State} {P : State → Prop} (h : exec i s = .next t) (hP : P t) : Leads i s P := ⟨t, h, hP⟩

/-! ## Memory written and read -/

theorem State.peek_poke_self {s : State} (hm : s.memOk) (a : Nat) (bs : List W8) :
    (s.poke a bs).peek a bs.length = bs := by
  refine List.ext_getElem (by simp [State.peek]) fun i _ hi => ?_
  simpa [State.peek, State.poke] using Memory.read_writeBytes_in hm a i bs hi

@[simp] theorem State.poke_ctxs (s : State) (a : Nat) (bs : List W8) : (s.poke a bs).ctxs = s.ctxs := rfl
@[simp] theorem State.poke_lines (s : State) (a : Nat) (bs : List W8) : (s.poke a bs).lines = s.lines := rfl

/-- A state with the same contexts has the same of each. -/
theorem State.ctx_congr {s t : State} (h : t.ctxs = s.ctxs) (c : Cx) : t.ctx c = s.ctx c := by
  rw [State.ctx, State.ctx, h]

theorem State.line_congr {s t : State} (h : t.lines = s.lines) (a : LAddr) : t.line a = s.line a := by
  rw [State.line, State.line, h]

@[simp] theorem length_fit (n : Nat) (bs : List W8) : (fit n bs).length = n := by simp [fit]

/-! ## Error records -/

/-- A record with what its die adds to it (R593). -/
def State.stamped (s : State) (d : Die) (r : ErrRec) : ErrRec :=
  { r with
    die := BitVec.ofNat 5 d.val, seqno := (s.die d).errSeq, time := (s.die d).time
    tj := BitVec.ofNat 16 (s.fget (rg .therm d.val) 15 0), mv := BitVec.ofNat 16 (s.die d).supplyMv, vertex := s.vertex }

/-- While the holding store has room, a record joins it, and its die counts it (R593, R597). -/
theorem State.logErr_of_room {s : State} (d : Die) (r : ErrRec) (hroom : s.errHeld.length < 256) : s.logErr d r =
    { s.setDie d { s.die d with errSeq := (s.die d).errSeq + 1 } with errHeld := s.errHeld ++ [s.stamped d r] } :=
  if_pos hroom

/-! ## Poison (R368) -/

section
variable (s : State) (a : LAddr)

@[simp] theorem State.poisonLine_lines : (s.poisonLine a).lines = s.lines := by
  unfold State.poisonLine; split <;> rfl

@[simp] theorem State.poisonLine_regs : (s.poisonLine a).regs = s.regs := by
  unfold State.poisonLine; split <;> rfl

@[simp] theorem State.poisonLine_errHeld : (s.poisonLine a).errHeld = s.errHeld := by
  unfold State.poisonLine; split <;> rfl

variable {s a}

theorem State.poisoned_iff_of_memory (h : regionOf a.toNat = .t1 ∨ regionOf a.toNat = .t2 ∨ regionOf a.toNat = .t3) :
    s.poisoned a = true ↔ a.toNat ∈ s.poison := by
  obtain h | h | h := h <;> simp [State.poisoned, h]

theorem State.mem_poison_poisonLine (h : regionOf a.toNat = .t1 ∨ regionOf a.toNat = .t2 ∨ regionOf a.toNat = .t3) :
    a.toNat ∈ (s.poisonLine a).poison := by
  obtain h | h | h := h <;> simp [State.poisonLine, h]

end

/-! ## What a home does with a transaction -/

section
variable {s : State} {a : LAddr} {x : Txn}

theorem State.storeLine_of_tier (h : regionOf a.toNat = .t2 ∨ regionOf a.toNat = .t3) (hint : Hint) (d : List W8) :
    s.storeLine a hint d = s.poke a.toNat d := by
  obtain h | h := h <;> simp only [State.storeLine, h]

/-- A line of a lower tier is asked of its tier once its recalls are answered (R362). -/
theorem State.afterRecall_of_tier (h : regionOf a.toNat = .t2 ∨ regionOf a.toNat = .t3) (q : HomeReq) : s.afterRecall a q =
    s.setLine a { s.line a with txn := some ⟨q, .tier false, s.time (homeDie a.toNat)⟩ } := by
  obtain h | h := h <;> simp only [State.afterRecall, h]

/-- Whether a holder keeps a shared copy when it answers the recall of a transaction (R324). -/
def TxnKind.leavesCopy : TxnKind → Bool
  | .rdOnce | .rdShared => true
  | _ => false

theorem TxnKind.leavesCopy_iff (k : TxnKind) : k.leavesCopy = true ↔ k = .rdOnce ∨ k = .rdShared := by
  cases k <;> simp [TxnKind.leavesCopy]

/-- A line that a holder has given up, with a shared copy left to it or none. -/
def Line.givenUp (l : Line) (r : Requester) (keeps : Bool) : Line :=
  { l with
    owner := if l.owner = some r then none else l.owner
    sharers := if keeps then l.sharers.filter (· ≠ r) ++ [r] else l.sharers.filter (· ≠ r) }

theorem Line.mem_sharers_givenUp (l : Line) (r : Requester) (keeps : Bool) : r ∈ (l.givenUp r keeps).sharers ↔ keeps = true := by
  cases keeps <;> simp [Line.givenUp]

/-- A line changed, and what a holder has written stored in it. -/
def State.copyBack (s : State) (a : LAddr) (l : Line) : Option (List W8) → State
  | some d => ((s.setLine a l).flushed a).storeLine a .normal (fit 128 d)
  | none => (s.setLine a l).flushed a

theorem State.line_copyBack (hregion : regionOf a.toNat = .t2 ∨ regionOf a.toNat = .t3) (l : Line) (d : Option (List W8)) :
    (s.copyBack a l d).line a = l := by
  have hlines : (s.copyBack a l d).lines = (s.setLine a l).lines := by
    cases d with
    | none => rfl
    | some d =>
      rw [State.copyBack, State.storeLine_of_tier hregion]
      rfl
  rw [State.line_congr hlines, State.line_setLine]

theorem State.mem_copyBack (hregion : regionOf a.toNat = .t2 ∨ regionOf a.toNat = .t3) (l : Line) (d : List W8) :
    (s.copyBack a l (some d)).mem = (s.poke a.toNat (fit 128 d)).mem := by
  rw [State.copyBack, State.storeLine_of_tier hregion]
  rfl

/-- The last holder's response gives up its copy, and the transaction goes on (R324, R360). -/
theorem exec_recallResponse_last {r : Requester} {sent : List Requester} (d : Option (List W8)) (hx : (s.line a).txn = some x)
    (hphase : x.phase = .recall [r] sent) : exec (.recallResponse a r d) s =
    .next ((s.copyBack a { (s.line a).givenUp r x.req.kind.leavesCopy with
      txn := some { x with phase := .recall [] (sent.filter (· ≠ r)) } } d).afterRecall a x.req) := by
  have hrest : [r].filter (· ≠ r) = [] := by simp
  have hexec : exec (.recallResponse a r d) s = execRecallResponse a r d s := rfl
  simp only [hexec, execRecallResponse, hx, hphase, hrest, List.contains_cons, BEq.rfl, Bool.true_or, Bool.not_true,
    Bool.false_eq_true, if_false, List.isEmpty_nil, if_true]
  cases x.req.kind <;> cases d <;> rfl

/-- A line for which nothing waits is free once it is released (R363). -/
theorem State.release_of_idle (h : (s.line a).waiting = []) : s.release a = s.setLine a { s.line a with txn := none } := by
  simp only [State.release, h]

theorem exec_homeResponse {st : W8} {old : W64} {d : List W8} {po : Bool} (hx : (s.line a).txn = some x)
    (hphase : x.phase = .respond st old d po) : exec (.homeResponse a) s =
    .next ((s.setLine a { s.line a with txn := some { x with phase := .ack, at_ := s.time (homeDie a.toNat) } }).respondTo
      a x.req st old d po) := by
  show execHomeResponse a s = _
  simp only [execHomeResponse, hx, hphase]

/-- The record of a requester that owes its acknowledgement (R366, R367). -/
def State.silentRec (s : State) (a : LAddr) (r : Requester) : ErrRec :=
  { cls := 0x06, index := BitVec.ofNat 16 (homeOf a.toNat).val, action := 0x06, addr := mkPA s.vertex a
    requester := Requester.code r, syndrome := 1 }

/-- A line given up by its home, which a requester owes an acknowledgement. -/
def Line.silenced (l : Line) (r : Requester) : Line :=
  { l with
    owner := if ([r].any fun r => l.owner = some r) then none else l.owner
    sharers := l.sharers.filter (!List.contains [r] ·)
    late := some r }

/-- A line whose requester is silent is poisoned and released, after a record of the requester (R366, R367). -/
theorem exec_homeTimeout_ack (hx : (s.line a).txn = some x) (hphase : x.phase = .ack)
    (hlate : 200000 ≤ (s.time (homeDie a.toNat) - x.at_).toNat) :
    let u := (s.poisonLine a).logErr (homeDie a.toNat) (s.silentRec a x.req.r)
    exec (.homeTimeout a) s = .next ((u.setLine a ((u.line a).silenced x.req.r)).release a) := by
  have hvertex : (s.poisonLine a).vertex = s.vertex := by
    simp only [State.vertex, State.fget, State.reg, State.poisonLine_regs]
  have hexec : exec (.homeTimeout a) s = execHomeTimeout a s := rfl
  simp only [hexec, execHomeTimeout, hx, hphase, List.isEmpty_cons, Bool.false_or, decide_eq_true_eq, if_neg (Nat.not_lt.2 hlate),
    List.foldl_cons, List.foldl_nil, hvertex]
  rfl

/-- The message to an agent that is no context of this vertex (R360). -/
theorem State.respondTo_agent {q : HomeReq} (hq : ∀ c, q.r ≠ .ctx c) (st : W8) (old : W64) (d : List W8) (po : Bool) :
    s.respondTo a q st old d po = s.emit (.homeData q.vertex q.r a st old d po) := by
  unfold State.respondTo
  split
  next c hc => exact absurd hc (hq c)
  next => rfl

end

/-! ## A context's request ends with a value (R248) -/

section
variable {s : State} {c : Cx} {w : Await}

@[simp] theorem State.jAppend_ctxs (s : State) (c : Cx) (kind slot : Nat) (pc v : W64) :
    (s.jAppend c kind slot pc v).ctxs = s.ctxs := by
  simp only [State.jAppend, State.poke64, State.poke_ctxs]

@[simp] theorem State.unblock_ctxs (s : State) (c : Cx) : (s.unblock c).ctxs = s.ctxs := rfl

theorem State.ctx_awaitDone (v : W64) (hdue : (s.ctx c).replayDue = false) : (s.awaitDone c w v).ctx c =
    (if w.kind = AwaitKind.arrival then { s.ctx c with await := none }
      else { s.ctx c with await := none }.sset w.d v).advance := by
  have hctx (v : W64) : ((s.jAppend c w.kind.journal 0 (s.ctx c).pc v).unblock c).ctx c = s.ctx c :=
    State.ctx_congr (by simp) c
  simp only [State.awaitDone, State.ctx_updCtx, hctx, hdue, Bool.false_eq_true, if_false]
  exact (apply_ite Context.advance ..).symm

theorem State.blockedBy_unblock (s : State) (c : Cx) : ((s.unblock c).core c.lc).blockedBy ≠ some c.ix := by
  rw [State.unblock, State.core_updCore]
  split
  next => simp
  next h => exact h

theorem State.blockedBy_awaitDone (v : W64) : ((s.awaitDone c w v).core c.lc).blockedBy ≠ some c.ix := by
  simp only [State.awaitDone, State.core_updCtx]
  exact State.blockedBy_unblock _ c

/-- A line without an error is the value of a context's `ld.v`. -/
theorem State.respondTo_ldv {a : LAddr} {q : HomeReq} (d : List W8) (hr : q.r = .ctx c) (hv : q.vertex = s.vertex)
    (hk : q.kind = .rdOnce) (hw : (s.ctx c).await = some w) (hline : w.line = mkPA s.vertex a) (hsent : w.sent = true)
    (hldv : w.kind = .ldv) : s.respondTo a q 0 0 d false = s.awaitDone c w (leWord ((d.drop w.off).take w.size)) := by
  have hresp : s.respondTo a q 0 0 d false = s.awaitResponse c w 0 0 d false := by
    simp [State.respondTo, hr, hv, hk, hw, hline, hsent, hldv]
  have hgood : lineError w.line 0 false = none := by simp [lineError, stAddr]
  rw [hresp]
  simp only [State.awaitResponse, hgood, hldv]
  simp

/-- The value is in its register, whatever else of the context its completion changes. -/
theorem Context.sget_advance_sset (k : Context) (x : Option Await) (i r : BitVec 5) (v : W64) :
    ({ k with await := x }.sset i v).advance.sget r = (k.sset i v).sget r := by
  unfold Context.sset
  split <;> rfl

@[simp] theorem Context.await_sset (k : Context) (i : BitVec 5) (v : W64) : (k.sset i v).await = k.await := by
  unfold Context.sset
  split <;> rfl

end

end Sys2Proof.Machine

namespace Sys2Proof.Proofs

open Sys2Proof.Machine

/-- Settles O40: each command is read off the phase of the line's transaction, and its effect is that of the one case that its phase
leaves. -/
theorem homeTransactionsEnd : Obligations.HomeTransactionsEnd := by
  unfold Obligations.HomeTransactionsEnd
  refine ⟨fun a r s x left sent hx hphase hleft hsent => ?_, fun a r s x sent d hregion hx hphase => ?_,
    fun a s x st old d po hx hphase hagent => ?_,
    fun a s x d c w hx hphase hr hv hk hw hline hsent hldv hdue => ?_, fun a s x hx hphase hidle => ?_,
    fun a s x hx hphase hidle hregion hlate hroom => ?_⟩
  · show execRecall a r s = _
    simp [execRecall, hx, hphase, hleft, hsent]
  · refine .intro (exec_recallResponse_last d hx hphase) ?_
    rw [State.afterRecall_of_tier hregion, State.line_copyBack hregion, State.line_setLine, State.setLine_mem]
    refine ⟨⟨_, rfl, rfl, rfl⟩, fun howner => if_pos howner,
      (Line.mem_sharers_givenUp ..).trans (TxnKind.leavesCopy_iff _), fun hd => ?_, fun bs hd hm => ?_⟩
    · subst hd
      rfl
    · subst hd
      have hpeek := State.peek_poke_self hm a.toNat (fit 128 bs)
      rw [length_fit] at hpeek
      rw [← hpeek, State.peek, State.peek, State.setLine_mem, State.mem_copyBack hregion]
  · refine .intro (exec_homeResponse hx hphase) ?_
    rw [State.respondTo_agent hagent]
    exact ⟨rfl, _, congrArg Line.txn (State.line_setLine ..), rfl, rfl⟩
  · refine .intro (exec_homeResponse hx hphase) ?_
    rw [State.respondTo_ldv (s := s.setLine a _) d hr hv hk hw hline hsent hldv,
      State.ctx_awaitDone (s := s.setLine a _) _ hdue, hldv]
    exact ⟨Context.await_sset .., State.blockedBy_awaitDone _, fun r => Context.sget_advance_sset ..⟩
  · show execAcknowledgement a x.req.r s = _
    simp [execAcknowledgement, hx, hphase, State.release_of_idle hidle]
  · have hheld : (s.poisonLine a).errHeld.length < 256 := by rwa [State.poisonLine_errHeld]
    refine .intro (exec_homeTimeout_ack hx hphase hlate) ?_
    rw [State.logErr_of_room _ _ hheld, State.poisonLine_errHeld]
    have hline : (State.line _ a).waiting = [] :=
      (congrArg Line.waiting (State.line_congr (State.poisonLine_lines s a) a)).trans hidle
    rw [State.release_of_idle (by rw [State.line_setLine]; exact hline)]
    exact ⟨(State.poisoned_iff_of_memory hregion).2 (State.mem_poison_poisonLine hregion),
      congrArg Line.txn (State.line_setLine ..), _, rfl, rfl, rfl, rfl⟩

end Sys2Proof.Proofs
end

section
/-! SUPPORT and PROOF of the tiles over Facet: the case that each command of a header or a send meets, and what a port's read of its
tile leaves. -/

namespace Sys2Proof.Machine

/-! ## Reads of the scratchpad leave what is sent (R119, R120) -/

section
variable {s t u : State}

/-- A state with the same cores has the same of each. -/
theorem State.core_congr (h : t.cores = s.cores) (l : LC) : t.core l = s.core l := by
  rw [State.core, State.core, h]

theorem rg_ne {k k' : RegKind} (h : k ≠ k') {i j i' j' : Nat} : rg k i j ≠ rg k' i' j' := fun e => h (congrArg Reg.kind e)

/-- What reads of the scratchpad leave: the messages sent, the cores and the vertex. -/
structure SendFrame (s t : State) : Prop where
  out : t.out = s.out
  cores : t.cores = s.cores
  vertex : t.vertex = s.vertex

theorem SendFrame.refl (s : State) : SendFrame s s := ⟨rfl, rfl, rfl⟩

theorem SendFrame.trans (h : SendFrame s t) (h' : SendFrame t u) : SendFrame s u :=
  ⟨h'.out.trans h.out, h'.cores.trans h.cores, h'.vertex.trans h.vertex⟩

theorem SendFrame.updCtx (s : State) (c : Cx) (g : Context → Context) : SendFrame s (s.updCtx c g) := ⟨rfl, rfl, rfl⟩

theorem SendFrame.setReg (s : State) {r : Reg} (w : W64) (h : rg .fctShape ≠ r) : SendFrame s (s.setReg r w) :=
  ⟨rfl, rfl, by rw [State.vertex, State.fget, State.reg_setReg_ne _ _ h]; rfl⟩

theorem SendFrame.fset (s : State) {r : Reg} (h : rg .fctShape ≠ r) (hi lo v : Nat) : SendFrame s (s.fset r hi lo v) :=
  .setReg s _ h

theorem SendFrame.bump (s : State) {r : Reg} (h : rg .fctShape ≠ r) (hi lo n : Nat) : SendFrame s (s.bump r hi lo n) :=
  .fset s h ..

theorem SendFrame.logErr (s : State) (d : Die) (r : ErrRec) : SendFrame s (s.logErr d r) := by
  unfold State.logErr
  dsimp only
  split
  next => exact ⟨rfl, rfl, rfl⟩
  next =>
    split
    next => exact .trans (t := s.setDie d _) ⟨rfl, rfl, rfl⟩ (.bump (r := rg .errStatus) _ (rg_ne (by decide)) ..)
    next => exact ⟨rfl, rfl, rfl⟩

theorem SendFrame.foldl {α : Type} (f : State → α → State) (l : List α) (hf : ∀ s x, SendFrame s (f s x)) (s : State) :
    SendFrame s (l.foldl f s) :=
  foldl_keeps (P := SendFrame s) f l s (.refl s) fun t x h => h.trans (hf t x)

/-- An error of a scratchpad word is counted, and its record written. -/
theorem SendFrame.spdError (s : State) (lc hi lo n v : Nat) (d : Die) (r : ErrRec) :
    SendFrame s (((s.bump (rg .coreSpdEcc lc) hi lo n).fset (rg .coreSpdEcc lc) 51 32 v).logErr d r) :=
  ((bump s (rg_ne (by decide)) ..).trans (fset _ (rg_ne (by decide)) ..)).trans (logErr ..)

theorem SendFrame.spdTouch (s : State) (a n : Nat) : SendFrame s (s.spdTouch a n) := by
  have hsoft (ws : List Nat) (g : State → Nat → State) (hg : ∀ s w, SendFrame s (g s w)) (l : List Nat) :
      SendFrame s (l.foldl g { s with softWords := ws }) :=
    .trans (t := { s with softWords := ws }) ⟨rfl, rfl, rfl⟩ (.foldl g l hg _)
  unfold State.spdTouch
  dsimp only
  split
  next => exact hsoft _ _ (fun s w => .spdError ..) _
  next => exact (hsoft _ _ (fun s w => .spdError ..) _).trans (.spdError ..)

theorem SendFrame.vtouch (s : State) (c : Cx) (ps : List (W64 × Nat)) : SendFrame s (s.vtouch c ps) := by
  unfold State.vtouch
  split
  next => exact .refl s
  next =>
    refine .foldl _ _ (fun s p => ?_) s
    split
    next =>
      split
      next => exact .spdTouch ..
      next =>
        split
        next => exact .foldl _ _ (fun s l => .spdTouch ..) s
        next => exact .refl s
      next => exact .refl s
    next => exact .refl s

end

/-! ## Headers and sends (R278, R522 to R525) -/

section
variable {s : State}

theorem exec_tileHeaderArrival_matched {h : TileHeader} {i : Nat} {x : Recv} (hx : (s.core h.toLc).recvs[i]? = some x)
    (hfits : x.matches h = true)
    (hfirst : ∀ j y, j < i → (s.core h.toLc).recvs[j]? = some y → y.matches h = false) :
    exec (.tileHeaderArrival h) s = .next (State.clear (s.setCore h.toLc { s.core h.toLc with
      recvs := (s.core h.toLc).recvs.set i { x with hdr := some h } }) h) := by
  have hexec : exec (.tileHeaderArrival h) s = execTileHeaderArrival h s := rfl
  have hi : i < (s.core h.toLc).recvs.length := (List.getElem?_eq_some_iff.1 hx).1
  simp only [hexec, execTileHeaderArrival]
  split
  next j hfind =>
    obtain ⟨hj, -, hbefore⟩ := List.find?_range_eq_some.1 hfind
    have hle : i ≤ j := by
      by_contra hlt
      split at hj
      next y hy => simp [hfirst j y (by omega) hy] at hj
      next => cases hj
    have hge : j ≤ i := by
      by_contra hlt
      simpa [hx, hfits] using hbefore i (by omega)
    obtain rfl : j = i := by omega
    simp only [hx]
  next hfind => simpa [hx, hfits] using List.find?_eq_none.1 hfind i (List.mem_range.2 hi)

theorem exec_tileHeaderArrival_held {h : TileHeader} (hnone : ∀ y ∈ (s.core h.toLc).recvs, y.matches h = false)
    (hroom : (s.core h.toLc).arrivals.length < 256) : exec (.tileHeaderArrival h) s =
    .next (s.setCore h.toLc { s.core h.toLc with
      arrivals := (s.core h.toLc).arrivals ++ [⟨h, s.time (BDie.die (LC.walkDie h.toLc))⟩] }) := by
  have hexec : exec (.tileHeaderArrival h) s = execTileHeaderArrival h s := rfl
  simp only [hexec, execTileHeaderArrival]
  split
  next j hfind =>
    have hj := List.find?_some hfind
    split at hj
    next y hy => simp [hnone y (List.mem_of_getElem? hy)] at hj
    next => cases hj
  next => rw [if_pos hroom]

/-- A send that fails leaves the sends as they are: it is kept for its context or for its stream. -/
theorem State.sends_sendFailed (l l' : LC) (x : Send) (cause : Nat) (va : W64) :
    ((s.sendFailed l x cause va).core l').sends = (s.core l').sends := by
  unfold State.sendFailed
  dsimp only
  split
  next => rfl
  next =>
    by_cases h : l' = l
    · rw [h, State.core_updCore]
    · rw [State.core_updCore_ne _ _ h]

theorem exec_clearToSend_unreachable {lc : LC} {ix : Nat} {x : Send} (hx : (s.core lc).sends[ix]? = some x)
    (hdata : x.data = none) (hreach : s.canReach x.vertex = false) : exec (.clearToSend lc ix) s =
    .next (State.sendFailed (s.updCore lc fun q => { q with sends := q.sends.eraseIdx ix }) lc x 4 0) := by
  have hexec : exec (.clearToSend lc ix) s = execClearToSend lc ix s := rfl
  simp only [hexec, execClearToSend, hx, hdata]
  simp [hreach]

/-- The tile that the rows of three parts give. -/
def tileOf (n m : Nat) (ds : List (List W8)) : FacetTile :=
  ⟨(ds.take n).flatMap id, ((ds.drop n).take m).flatMap id, (ds.drop (n + m)).flatMap id⟩

/-- The state after a port has read for a stream through a context, which is left as it is. -/
def State.readFor (s : State) (c : Cx) (id : W32) (ps : List (W64 × Nat)) : State :=
  ((s.viewAs c id).vtouch c ps).updCtx c fun _ => s.ctx c

theorem SendFrame.readFor (s : State) (c : Cx) (id : W32) (ps : List (W64 × Nat)) : SendFrame s (s.readFor c id ps) :=
  ((updCtx s c fun k => { k with stream := some id }).trans (vtouch _ c ps)).trans (updCtx _ c _)

/-- A clear-to-send lets the port read the tile and send it; one for this vertex is kept (R522, R524). -/
theorem exec_clearToSend_read {lc : LC} {ix : Nat} {x : Send} {ds : List (List W8)} (hx : (s.core lc).sends[ix]? = some x)
    (hdata : x.data = none) (hreach : s.canReach x.vertex = true) :
    let c : Cx := (s.holds lc x.stream).getD ⟨lc, x.c⟩
    let p := x.desc.tileReads
    let ps := p.1 ++ p.2.1 ++ p.2.2
    let tile := tileOf p.1.length p.2.1.length ds
    let sent := (s.readFor c x.stream ps).emit (.tile x.vertex x.cls tile)
    (s.viewAs c x.stream).vreads c ps = .ok ds → exec (.clearToSend lc ix) s = .next (if x.vertex = sent.vertex then
      sent.updCore lc fun q => { q with sends := q.sends.set ix { x with data := some tile } }
    else sent.updCore lc fun q => { q with sends := q.sends.eraseIdx ix }) := by
  intro c p ps tile sent
  subst sent tile ps p c
  intro hread
  have hexec : exec (.clearToSend lc ix) s = execClearToSend lc ix s := rfl
  simp only [hexec, execClearToSend, hx, hdata, hreach, Option.isSome_none, Bool.false_eq_true, if_false, Bool.not_true, hread]
  rfl

theorem exec_headerHoldTimeout_far {lc : LC} {ix : Fin 256} {h : Held} (hh : (s.core lc).arrivals[ix.val]? = some h)
    (hms : s.fget (rg .fctClassCtl) 47 32 ≠ 0)
    (hold : 1000000 * s.fget (rg .fctClassCtl) 47 32 < (s.time (BDie.die (LC.walkDie lc)) - h.at_).toNat)
    (hfar : h.hdr.fromVertex ≠ s.vertex) : exec (.headerHoldTimeout lc ix) s =
    .next ((s.setCore lc { s.core lc with arrivals := (s.core lc).arrivals.eraseIdx ix.val }).emit
      (.headerFailed h.hdr.fromVertex h.hdr.fromLc h.hdr.tag)) := by
  have hexec : exec (.headerHoldTimeout lc ix) s = execHeaderHoldTimeout lc ix s := rfl
  simp only [hexec, execHeaderHoldTimeout, hh]
  rw [if_neg (by simpa only [Bool.or_eq_true, decide_eq_true_eq, not_or, not_le] using ⟨hms, hold⟩)]
  exact congrArg _ (if_pos hfar)

end

end Sys2Proof.Machine

namespace Sys2Proof.Proofs

open Sys2Proof.Machine

/-- Settles O48: each command meets one case of its meaning, and what the port's read of the tile changes is neither a message, nor a
core, nor the vertex. -/
theorem tilesOverFacet : Obligations.TilesOverFacet := by
  unfold Obligations.TilesOverFacet
  refine ⟨fun h s i x => ⟨fun hx hfits hfirst => ?_, fun hnone hroom => ?_⟩, fun lc ix s x hx hdata => ⟨fun hreach => ?_,
    fun ds hreach => ?_⟩, fun lc ix s h hh hms hold hfar => ?_⟩
  · refine .intro (exec_tileHeaderArrival_matched hx hfits hfirst) ⟨?_, rfl⟩
    exact congrArg Core.recvs (State.core_setCore ..)
  · refine .intro (exec_tileHeaderArrival_held hnone hroom) ?_
    rw [State.core_setCore]
    exact ⟨rfl, _, rfl, rfl⟩
  · refine .intro (exec_clearToSend_unreachable hx hdata hreach) ?_
    rw [State.sends_sendFailed, State.core_updCore]
  · intro c p hread tile
    have hframe := SendFrame.readFor s c x.stream (p.1 ++ p.2.1 ++ p.2.2)
    have hvertex (m : OutMsg) : ((s.readFor c x.stream (p.1 ++ p.2.1 ++ p.2.2)).emit m).vertex = s.vertex := hframe.vertex
    have hcore (m : OutMsg) : ((s.readFor c x.stream (p.1 ++ p.2.1 ++ p.2.2)).emit m).core lc = s.core lc :=
      State.core_congr hframe.cores lc
    refine .intro (exec_clearToSend_read hx hdata hreach hread) ?_
    rw [hvertex]
    split
    · exact ⟨congrArg (· ++ _) hframe.out, (congrArg Core.sends (State.core_updCore ..)).trans (by rw [hcore]; rfl)⟩
    · exact ⟨congrArg (· ++ _) hframe.out, (congrArg Core.sends (State.core_updCore ..)).trans (by rw [hcore])⟩
  · refine .intro (exec_headerHoldTimeout_far hh hms hold hfar) ⟨?_, rfl⟩
    exact congrArg Core.arrivals (State.core_setCore ..)

end Sys2Proof.Proofs
end

section
/-! SUPPORT and PROOF of the collectives: the words of a collective line of T2 read after they are written, and how far a round goes
at a member that has nothing to wait for. -/

namespace Sys2Proof.Machine

/-! ## Bytes of words -/

theorem leBytes_succ (n v : Nat) : leBytes (n + 1) v = BitVec.ofNat 8 v :: leBytes n (v / 256) := by
  simp [leBytes, List.range_succ_eq_map, Nat.div_div_eq_div_mul, Nat.pow_succ, Nat.mul_comm]

@[simp] theorem length_leBytes (n v : Nat) : (leBytes n v).length = n := by simp [leBytes]

theorem leNat_leBytes (n v : Nat) : leNat (leBytes n v) = v % 256 ^ n := by
  induction n generalizing v with
  | zero => simp [leBytes, leNat, Nat.mod_one]
  | succ n ih => rw [leBytes_succ, leNat, ih, BitVec.toNat_ofNat, show 2 ^ 8 = 256 from rfl, Nat.pow_succ', Nat.mod_mul]

theorem leWord_leBytes (w : W64) : leWord (leBytes 8 w.toNat) = w := by
  rw [leWord, leNat_leBytes, Nat.mod_eq_of_lt (by simpa using w.isLt), BitVec.ofNat_toNat, BitVec.setWidth_eq]

theorem length_peek (s : State) (a n : Nat) : (s.peek a n).length = n := by simp [State.peek]

theorem getD_peek (s : State) (a : Nat) {n i : Nat} (h : i < n) : (s.peek a n).getD i 0 = Memory.read s.mem (a + i) := by
  simp [State.peek, h]

theorem length_patch (bs xs : List W8) (o : Nat) : (patch bs o xs).length = bs.length := by simp [patch]

theorem getElem_patch (bs xs : List W8) (o : Nat) {i : Nat} (h : i < (patch bs o xs).length) :
    (patch bs o xs)[i] = if o ≤ i ∧ i < o + xs.length then xs.getD (i - o) 0 else bs.getD i 0 := by simp [patch]

/-! ## A line of T2 that takes writes (R360, R368, R413, R713) -/

theorem regionOf_eq_t2_iff (a : Nat) : regionOf a = .t2 ↔ 0x10000000000 ≤ a ∧ a < 0x40000000000 := by
  unfold regionOf
  split_ifs <;> simp <;> omega

/-- A whole line of T2 whose tier answers and that holds no poison, in a memory of canonical form. -/
structure OpenLine (s : State) (line : LAddr) : Prop where
  memOk : s.memOk
  aligned : line.toNat % 128 = 0
  region : regionOf line.toNat = .t2
  answers : s.tierStatus line.toNat = none
  clean : s.poisoned line = false

section
variable {s t : State} {line : LAddr} {i j : Nat}

theorem OpenLine.of_collLine (hm : s.memOk) (hline : collLine line = true) (hregion : regionOf line.toNat = .t2)
    (hanswers : s.tierStatus line.toNat = none) (hclean : s.poisoned line = false) : OpenLine s line :=
  ⟨hm, by simpa using (Bool.and_eq_true_iff.1 hline).1, hregion, hanswers, hclean⟩

theorem OpenLine.not_mem_poison (h : OpenLine s line) : line.toNat ∉ s.poison := fun hmem => by
  have hpoisoned := (State.poisoned_iff_of_memory (.inr (.inl h.region))).2 hmem
  rw [h.clean] at hpoisoned
  cases hpoisoned

/-- The line stays open in a state with its memory in canonical form, the same tiers behind it and no more poison. -/
theorem OpenLine.of_frame (h : OpenLine s line) (hm : t.memOk) (hhost : t.host = s.host)
    (hpoison : ∀ a ∈ t.poison, a ∈ s.poison) : OpenLine t line where
  memOk := hm
  aligned := h.aligned
  region := h.region
  answers := by rw [← h.answers, State.tierStatus, State.tierStatus, hhost]
  clean := Bool.eq_false_iff.2 fun hpoisoned =>
    h.not_mem_poison (hpoison _ ((State.poisoned_iff_of_memory (.inr (.inl h.region))).1 hpoisoned))

/-- A word of the line is that of the memory behind it. -/
theorem State.collWord_eq_peek64 (halign : line.toNat % 128 = 0) (hregion : regionOf line.toNat = .t2) (hi : i < 16) :
    s.collWord line i = s.peek64 (line.toNat + 8 * i) := by
  have hdata : s.lineData line = s.peek line.toNat 128 := by simp only [State.lineData, hregion]
  refine congrArg leWord (List.map_congr_left fun k hk => ?_)
  have hk : k < 8 := List.mem_range.1 hk
  have hline : lineOf (line.toNat + 8 * i + k) = line.toNat := by rw [lineOf]; omega
  have hoff : (line.toNat + 8 * i + k) % 128 = 8 * i + k := by omega
  rw [hline, hoff, BitVec.ofNat_toNat, BitVec.setWidth_eq, hdata, getD_peek _ _ (by omega), Nat.add_assoc]

theorem linesOf_word (halign : line.toNat % 128 = 0) (hi : i < 16) :
    linesOf (line.toNat + 8 * i) 8 = [(line.toNat, 8 * i, 8)] := by
  have hone : (line.toNat + 8 * i + 8 - 1) / 128 - (line.toNat + 8 * i) / 128 + 1 = 1 := by omega
  have hbase : lineOf (line.toNat + 8 * i) = line.toNat := by rw [lineOf]; omega
  have hlo : max (line.toNat + 8 * i) line.toNat = line.toNat + 8 * i := by omega
  have hhi : min (line.toNat + 8 * i + 8) (line.toNat + 128) = line.toNat + 8 * i + 8 := by omega
  rw [linesOf, if_neg (by decide), hone]
  simp only [List.range_one, List.map_cons, List.map_nil, hbase, Nat.mul_zero, Nat.add_zero, hlo, hhi, Nat.add_sub_cancel_left]

/-- A word of the line written is a write of the line with the word in it. -/
theorem OpenLine.collPut_eq (h : OpenLine s line) (hi : i < 16) (w : W64) : s.collPut line i w =
    { s with poison := s.poison.filter (· ≠ line.toNat),
             mem := Memory.writeBytes s.mem line.toNat (patch (s.peek line.toNat 128) (8 * i) (leBytes 8 w.toNat)) } := by
  have hbad : s.badAddr line.toNat true = false := by simp only [State.badAddr, h.region]
  have hdata : s.lineData line = s.peek line.toNat 128 := by simp only [State.lineData, h.region]
  rw [State.collPut, State.homeWrite, length_leBytes, linesOf_word h.aligned hi]
  simp only [List.foldl_cons, List.foldl_nil, hbad, h.answers, h.region, BitVec.ofNat_toNat, BitVec.setWidth_eq, h.clean,
    hdata, Option.isSome_none, Bool.or_self, Bool.false_and, Bool.false_eq_true, if_false, Nat.sub_self, List.drop_zero,
    State.storeLine_of_tier (.inl h.region)]
  rw [List.take_of_length_le (by simp)]
  rfl

theorem OpenLine.collPut_mem (h : OpenLine s line) (hi : i < 16) (w : W64) : (s.collPut line i w).mem =
    Memory.writeBytes s.mem line.toNat (patch (s.peek line.toNat 128) (8 * i) (leBytes 8 w.toNat)) := by
  rw [h.collPut_eq hi]

/-- What a write of a word leaves but for memory. -/
theorem OpenLine.collPut_frame (h : OpenLine s line) (hi : i < 16) (w : W64) :
    (s.collPut line i w).rounds = s.rounds ∧ (s.collPut line i w).ctxs = s.ctxs ∧ (s.collPut line i w).host = s.host ∧
    ∀ a ∈ (s.collPut line i w).poison, a ∈ s.poison := by
  rw [h.collPut_eq hi]
  exact ⟨rfl, rfl, rfl, fun _ ha => List.mem_of_mem_filter ha⟩

theorem OpenLine.collPut (h : OpenLine s line) (hi : i < 16) (w : W64) : OpenLine (s.collPut line i w) line := by
  obtain ⟨-, -, hhost, hpoison⟩ := h.collPut_frame hi w
  refine h.of_frame ?_ hhost hpoison
  rw [State.memOk, h.collPut_mem hi]
  exact Memory.wf_writeBytes _ _ h.memOk

theorem OpenLine.collWord_collPut (h : OpenLine s line) (hi : i < 16) (hj : j < 16) (w : W64) :
    (s.collPut line i w).collWord line j = if j = i then w else s.collWord line j := by
  have hread (k : Nat) (hk : k < 8) : Memory.read (s.collPut line i w).mem (line.toNat + 8 * j + k) =
      if j = i then (leBytes 8 w.toNat).getD k 0 else Memory.read s.mem (line.toNat + 8 * j + k) := by
    rw [h.collPut_mem hi, Nat.add_assoc, Memory.read_writeBytes_in h.memOk _ _ _ (by rw [length_patch, length_peek]; omega),
      getElem_patch, length_leBytes, getD_peek _ _ (by omega)]
    by_cases hji : j = i
    · rw [if_pos hji, if_pos (by omega), hji, Nat.add_sub_cancel_left]
    · rw [if_neg hji, if_neg (by omega)]
  rw [State.collWord_eq_peek64 h.aligned h.region hj, State.collWord_eq_peek64 h.aligned h.region hj, State.peek64, State.peek64,
    State.peek, State.peek]
  split
  next hji =>
    refine (congrArg leWord (List.ext_getElem (by simp) fun k hk hk' => ?_)).trans (leWord_leBytes w)
    rw [List.getElem_map, List.getElem_range, hread k (by simpa using hk), if_pos hji, List.getD_eq_getElem _ _ hk']
  next hji =>
    refine congrArg leWord (List.map_congr_left fun k hk => ?_)
    rw [hread k (List.mem_range.1 hk), if_neg hji]

end

end Sys2Proof.Machine
end

section
/-! PROOF of the collectives: the state that each command of a line leaves, in the case that its round is in. -/

namespace Sys2Proof.Machine

@[simp] theorem State.poke_host (s : State) (a : Nat) (bs : List W8) : (s.poke a bs).host = s.host := rfl
@[simp] theorem State.poke_poison (s : State) (a : Nat) (bs : List W8) : (s.poke a bs).poison = s.poison := rfl
@[simp] theorem State.poke_rounds (s : State) (a : Nat) (bs : List W8) : (s.poke a bs).rounds = s.rounds := rfl

/-! ## Arrivals (R529, R530) -/

section
variable {s t u : State} {line : LAddr}

/-- A state with the same memory has the same words in a line of T2. -/
theorem State.collWord_congr (halign : line.toNat % 128 = 0) (hregion : regionOf line.toNat = .t2)
    (hmem : ∀ i, i < 128 → Memory.read t.mem (line.toNat + i) = Memory.read s.mem (line.toNat + i)) {j : Nat} (hj : j < 16) :
    t.collWord line j = s.collWord line j := by
  rw [State.collWord_eq_peek64 halign hregion hj, State.collWord_eq_peek64 halign hregion hj]
  refine congrArg leWord (List.map_congr_left fun k hk => ?_)
  have hk : k < 8 := List.mem_range.1 hk
  rw [Nat.add_assoc]
  exact hmem _ (by omega)

theorem State.round_congr (h : t.rounds = s.rounds) (a : LAddr) : t.round a = s.round a := by
  rw [State.round, State.round, h]

theorem State.collTry_frame (s : State) (line : LAddr) :
    (s.collTry line).mem = s.mem ∧ (s.collTry line).ctxs = s.ctxs := by
  unfold State.collTry
  dsimp only
  split
  next => exact ⟨rfl, rfl⟩
  next => exact ⟨rfl, rfl⟩

/-- A round starts when its arrivals have reached the expected number, which counts as 1 at least (R530). -/
theorem State.running_collTry (hidle : (s.round line).running = false) : ((s.collTry line).round line).running =
    decide (max 1 (bits (s.collWord line 1) 15 0) ≤ bits (s.collWord line 1) 31 16) := by
  unfold State.collTry
  dsimp only
  rw [hidle, Bool.false_or]
  split
  next hfew => rw [hidle, decide_eq_false (Nat.not_le.2 (of_decide_eq_true hfew))]
  next henough =>
    rw [State.round_setRound, decide_eq_true (Nat.not_lt.1 fun hfew => henough (decide_eq_true hfew))]

/-- What an arrival leaves of a line: one more has arrived, and the round has started if that was the last. -/
structure Arrived (s t : State) (line : LAddr) : Prop where
  arrived : bits (t.collWord line 1) 31 16 = bits (s.collWord line 1) 31 16 + 1
  expected : bits (t.collWord line 1) 15 0 = bits (s.collWord line 1) 15 0
  gen : t.collWord line 0 = s.collWord line 0
  running : (t.round line).running =
    decide (max 1 (bits (s.collWord line 1) 15 0) ≤ bits (s.collWord line 1) 31 16 + 1)

theorem OpenLine.collArrive (h : OpenLine s line) (hidle : (s.round line).running = false)
    (hroom : bits (s.collWord line 1) 31 16 + 1 < 65536) :
    Arrived s (s.collArrive line) line ∧ (s.collArrive line).ctxs = s.ctxs := by
  let w := s.collWord line 1
  let u := s.collPut line 1 (withBits w 31 16 (bits w 31 16 + 1))
  obtain ⟨hrounds, hctxs, -, -⟩ := h.collPut_frame (i := 1) (by decide) (withBits w 31 16 (bits w 31 16 + 1))
  have huidle : (u.round line).running = false := (congrArg Round.running (State.round_congr hrounds line)).trans hidle
  have htry : s.collArrive line = u.collTry line := if_neg (by rw [huidle]; decide)
  obtain ⟨hmem, hctxs'⟩ := u.collTry_frame line
  have hword (j : Nat) (hj : j < 16) : (u.collTry line).collWord line j =
      if j = 1 then withBits w 31 16 (bits w 31 16 + 1) else s.collWord line j :=
    (State.collWord_congr h.aligned h.region (fun i _ => by rw [hmem]) hj).trans (h.collWord_collPut (by decide) hj _)
  have hcount : bits (withBits w 31 16 (bits w 31 16 + 1)) 31 16 = bits w 31 16 + 1 :=
    (bits_withBits_self _ _ (by decide) (by decide)).trans (Nat.mod_eq_of_lt hroom)
  have hexpect : bits (withBits w 31 16 (bits w 31 16 + 1)) 15 0 = bits w 15 0 :=
    bits_withBits_of_disjoint _ _ (by decide) (by decide) (by decide)
  rw [htry]
  refine ⟨⟨?_, ?_, hword 0 (by decide), ?_⟩, hctxs'.trans hctxs⟩
  · rw [hword 1 (by decide), if_pos rfl, hcount]
  · rw [hword 1 (by decide), if_pos rfl, hexpect]
  · rw [State.running_collTry huidle, h.collWord_collPut (by decide) (by decide), if_pos rfl, hcount, hexpect]

theorem Arrived.of_words (h : Arrived u t line) (hwords : ∀ j, j < 16 → u.collWord line j = s.collWord line j) :
    Arrived s t line := by
  obtain ⟨harrived, hexpected, hgen, hrunning⟩ := h
  rw [hwords 1 (by decide)] at harrived hexpected hrunning
  exact ⟨harrived, hexpected, hgen.trans (hwords 0 (by decide)), hrunning⟩

theorem exec_hartArrival (hline : collLine line = true) (hregion : regionOf line.toNat = .t2) :
    exec (.hartArrival (collDie line) line) s = .next (s.collArrive line) := by
  have hexec : exec (.hartArrival (collDie line) line) s = .next (s.hartArrive (collDie line) line) := rfl
  simp [hexec, State.hartArrive, hline, State.badAddr, hregion]

/-- An entry of the journal lies in the context's snapshot region, above every line of T2 (R199, R713). -/
theorem State.jAppend_frame (hm : s.memOk) (c : Cx) (kind slot : Nat) (pc v : W64) :
    (s.jAppend c kind slot pc v).memOk ∧ (s.jAppend c kind slot pc v).host = s.host ∧
    (s.jAppend c kind slot pc v).poison = s.poison ∧ (s.jAppend c kind slot pc v).rounds = s.rounds ∧
    ∀ a, a < 0x80000000000 → Memory.read (s.jAppend c kind slot pc v).mem a = Memory.read s.mem a := by
  have hbase : 0x80000000000 ≤ snapBase c := by rw [snapBase, windowBase]; omega
  have hpoke {u : State} (hu : u.memOk) (a : Nat) (bs : List W8) (ha : snapBase c ≤ a) : (u.poke a bs).memOk ∧
      ∀ i, i < 0x80000000000 → Memory.read (u.poke a bs).mem i = Memory.read u.mem i :=
    ⟨State.poke_wf a bs hu, fun i hi => Memory.read_writeBytes_out hu a i bs (.inl (by omega))⟩
  have haddr : snapBase c ≤ jAddr c (s.jCount c) := by rw [jAddr]; omega
  simp only [State.jAppend, State.poke64, State.poke_host, State.poke_poison, State.poke_rounds, true_and]
  generalize leBytes 8 v.toNat = value
  generalize leBytes 4 (s.jCount c + 1) = count
  generalize leBytes 8 _ = head
  obtain ⟨hm₁, hread₁⟩ := hpoke hm (jAddr c (s.jCount c)) head haddr
  obtain ⟨hm₂, hread₂⟩ := hpoke hm₁ (jAddr c (s.jCount c) + 8) value (by omega)
  obtain ⟨hm₃, hread₃⟩ := hpoke hm₂ (snapBase c + 0xF000) count (by omega)
  exact ⟨hm₃, fun i hi => ((hread₃ i hi).trans (hread₂ i hi)).trans (hread₁ i hi)⟩

theorem OpenLine.awaitDone (h : OpenLine s line) (c : Cx) (a : Await) (v : W64) :
    OpenLine (s.awaitDone c a v) line ∧ (s.awaitDone c a v).round line = s.round line ∧
    ∀ j, j < 16 → (s.awaitDone c a v).collWord line j = s.collWord line j := by
  obtain ⟨hm, hhost, hpoison, hrounds, hread⟩ := State.jAppend_frame h.memOk c a.kind.journal 0 (s.ctx c).pc
    (if a.kind = .arrival then 0 else v)
  have hlow := ((regionOf_eq_t2_iff _).1 h.region).2
  unfold State.awaitDone
  dsimp only
  generalize s.jAppend c a.kind.journal 0 (s.ctx c).pc (if a.kind = .arrival then 0 else v) = u at *
  refine ⟨h.of_frame hm hhost fun a ha => ?_, State.round_congr hrounds line,
    fun j => State.collWord_congr h.aligned h.region fun i hi => hread _ ?_⟩
  · exact hpoison ▸ ha
  · have := h.aligned
    omega

theorem exec_collectiveArrival {c : Cx} {a : Await}
    (hfind : ((List.finRange 192).flatMap ctxsOf).find? (s.arrivalReady line) = some c) (ha : (s.ctx c).await = some a) :
    exec (.collectiveArrival line) s = .next ((s.awaitDone c a 0).collArrive line) := by
  have hexec : exec (.collectiveArrival line) s = execCollectiveArrival line s := rfl
  simp only [hexec, execCollectiveArrival, hfind, ha]

/-- A context whose arrival may be sent waits for it. -/
theorem State.kind_of_arrivalReady {c : Cx} {a : Await} (h : s.arrivalReady line c = true) (ha : (s.ctx c).await = some a) :
    a.kind = .arrival := by
  simp only [State.arrivalReady, ha, Bool.and_eq_true, decide_eq_true_eq] at h
  obtain ⟨⟨⟨⟨hkind, -⟩, -⟩, -⟩, -⟩ := h
  exact hkind

end

/-! ## Rounds on the tree (R532) -/

/-- A round that has started, and in which this member has neither sent nor received. -/
structure Round.Fresh (r : Round) : Prop where
  running : r.running = true
  done : r.done = false
  ended : r.ended = false
  up : r.up = 0
  sentUp : r.sentUp = false
  partials : r.partials = []
  inbox : r.inbox = []

section
variable {s u : State} {line : LAddr} {r : Round}

@[simp] theorem State.round_updRound (s : State) (line : LAddr) (g : Round → Round) :
    (s.updRound line g).round line = g (s.round line) := State.round_setRound ..

/-- The round once its command has run, with what this member holds. -/
def Round.opened (r : Round) (value : List Blk) : Round := { r with begun := true, value := value }

theorem Round.Fresh.opened (h : r.Fresh) (value : List Blk) : (r.opened value).Fresh :=
  ⟨h.running, h.done, h.ended, h.up, h.sentUp, h.partials, h.inbox⟩

theorem State.collStart_of_fresh (h : (s.round line).Fresh) (hbegun : (s.round line).begun = false)
    (hstop : s.stoppedSeq = false) {op : Nat} (hop : (s.round line).op = op) :
    s.collStart op line = (s.collBegin line).collRun line := by
  simp [State.collStart, h.running, hop, hstop, hbegun]

/-- The fields of a line are valid and every member with which this one exchanges is in reach (R527). -/
structure State.MayBegin (s : State) (r : Round) : Prop where
  valid : s.collBad r = false
  reach : ∀ d ∈ r.dims, ∀ c ∈ s.groupPeers d, s.canReach (s.collPeer d c) = true

theorem State.MayBegin.no_member_out_of_reach (h : s.MayBegin r) :
    (r.dims.any fun d => (s.groupPeers d).any fun c => !s.canReach (s.collPeer d c)) = false := by
  simpa using h.reach

/-- A round without a payload begins. -/
theorem State.collBegin_of_empty (h : s.MayBegin (s.round line)) (hop : (s.round line).op = 1 ∨ (s.round line).op = 6) :
    s.collBegin line = s.updRound line (·.opened (s.round line).value) := by
  have hempty : ((s.round line).op = 1 || (s.round line).op = 6 : Bool) = true := by simpa using hop
  simp only [State.collBegin, h.valid, h.no_member_out_of_reach, hempty, Bool.false_eq_true, if_false, if_true]
  rfl

/-- A round with a payload begins on the tree with the block that it reads, if it reads one. -/
theorem State.collBegin_of_tree (h : s.MayBegin (s.round line)) (hop : (s.round line).op ≠ 1 ∧ (s.round line).op ≠ 6)
    (htree : (s.round line).onTree = true) {bs : List Blk} (hread : s.readBlocks line (s.round line)
      (if ((s.round line).op ≠ 5 || (s.round line).root = s.vertex) && decide (0 < (s.round line).length) then [0] else []) 0 =
        some (u, bs)) :
    s.collBegin line = u.updRound line (·.opened bs) := by
  have hfull : ((s.round line).op = 1 || (s.round line).op = 6 : Bool) = false := by simpa using hop
  simp only [State.collBegin, h.valid, h.no_member_out_of_reach, hfull, htree, hread, Bool.false_eq_true, if_false, if_true]
  rfl

theorem State.collRun_of_fresh (h : (s.round line).Fresh) (hbegun : (s.round line).begun = true)
    (htree : (s.round line).onTree = true) (hstop : s.stoppedSeq = false) : s.collRun line = s.treeUp line 4 := by
  simp [State.collRun, h.running, h.done, h.ended, h.sentUp, h.partials, h.inbox, hbegun, htree, hstop]

/-- A member whose coordinate in the first dimension is not 0 sends its partial up. -/
theorem State.treeUp_of_below (h : (s.round line).Fresh) {d : Nat} {rest : List Nat} (hdims : (s.round line).dims = d :: rest)
    (hcoord : coord s.vertex d ≠ 0) (n : Nat) :
    s.treeUp line (n + 1) = (s.sendPartial line d 0 false).updRound line fun r => { r with sentUp := true } := by
  simp [State.treeUp, hdims, h.up, h.sentUp, hcoord]

/-- A barrier of one member is done. -/
theorem State.treeUp_of_alone (h : (s.round line).Fresh) (hdims : (s.round line).dims = []) (hop : (s.round line).op = 1)
    (n : Nat) : s.treeUp line (n + 1) = s.updRound line fun r => { r with done := true } := by
  simp [State.treeUp, hdims, h.up, hop, State.treeDone, State.sendDown]

/-- The partial that a member sends to coordinate 0 of a dimension: what its round holds, with the worst status. -/
def Round.partialUp (r : Round) (v : Vertex) (d : Nat) : Partial :=
  ⟨Fin.ofNat 3 d, Fin.ofNat 16 (coord v d), false, true, BitVec.ofNat 4 (r.value.foldl (fun m b => max m b.status) r.status),
    r.value.map (·.body)⟩

/-- A round that has begun on the tree sends what it holds up. -/
theorem State.collRun_sendUp (h : (s.round line).Fresh) (hbegun : (s.round line).begun = true)
    (htree : (s.round line).onTree = true) (hstop : s.stoppedSeq = false) {d : Nat} {rest : List Nat}
    (hdims : (s.round line).dims = d :: rest) (hcoord : coord s.vertex d ≠ 0) :
    (s.collRun line).round line = { s.round line with sentUp := true } ∧
    (s.collRun line).out = s.out ++ [.collective line (s.collPeer d 0) ((s.round line).partialUp s.vertex d)] := by
  rw [State.collRun_of_fresh h hbegun htree hstop, State.treeUp_of_below h hdims hcoord]
  exact ⟨State.round_updRound .., rfl⟩

/-- A member that has yet to begin its round on the tree, and that sends its partial to coordinate 0 of a dimension. -/
structure TreeMember (s : State) (line : LAddr) (d : Nat) : Prop where
  fresh : (s.round line).Fresh
  begun : (s.round line).begun = false
  mayBegin : s.MayBegin (s.round line)
  onTree : (s.round line).onTree = true
  dims : ∃ rest, (s.round line).dims = d :: rest
  coord : coord s.vertex d ≠ 0
  runs : s.stoppedSeq = false

/-- What such a member leaves: its round has sent up the value that it holds, and the message is out. -/
def State.SentUp (s : State) (line : LAddr) (d : Nat) (u : State) (value : List Blk) (t : State) : Prop :=
  (t.round line).begun = true ∧ (t.round line).sentUp = true ∧ (t.round line).value = value ∧
  t.out = u.out ++ [.collective line (s.collPeer d 0) (((s.round line).opened value).partialUp s.vertex d)]

section
variable {d op : Nat} {i : Instr} {value : List Blk}

/-- A member that begins with a value, in the state that its reading has left, sends the value up. -/
theorem TreeMember.leads (h : TreeMember s line d) (hrounds : u.rounds = s.rounds) (hv : u.vertex = s.vertex)
    (hstop : u.stoppedSeq = false) (hop : (s.round line).op = op) (hbegin : s.collBegin line = u.updRound line (·.opened value))
    (hexec : exec i s = .next (s.collStart op line)) : Leads i s (s.SentUp line d u value) := by
  obtain ⟨rest, hdims⟩ := h.dims
  have hnew : (u.updRound line (·.opened value)).round line = (s.round line).opened value := by
    rw [State.round_updRound, State.round_congr hrounds]
  obtain ⟨hnext, hout⟩ := State.collRun_sendUp (s := u.updRound line (·.opened value)) (by rw [hnew]; exact h.fresh.opened value)
    (by rw [hnew]; rfl) (by rw [hnew]; exact h.onTree) hstop (by rw [hnew]; exact hdims) (hv.symm ▸ h.coord)
  have hpeer : (u.updRound line (·.opened value)).collPeer d 0 = s.collPeer d 0 := congrArg (withCoord · d 0) hv
  have hvertex : (u.updRound line (·.opened value)).vertex = s.vertex := hv
  rw [hnew] at hnext hout
  rw [hpeer, hvertex] at hout
  rw [State.collStart_of_fresh h.fresh h.begun h.runs hop, hbegin] at hexec
  exact .intro hexec ⟨by rw [hnext]; rfl, by rw [hnext], by rw [hnext]; rfl, hout⟩

/-- A barrier or a snapshot sends up what it holds. -/
theorem TreeMember.leads_of_empty (h : TreeMember s line d) (hop : (s.round line).op = op) (hempty : op = 1 ∨ op = 6)
    (hexec : exec i s = .next (s.collStart op line)) : Leads i s (s.SentUp line d s (s.round line).value) :=
  h.leads rfl rfl h.runs hop (State.collBegin_of_empty h.mayBegin (hop ▸ hempty)) hexec

/-- A member with a contribution sends up the block that it reads. -/
theorem TreeMember.leads_of_read (h : TreeMember s line d) (hrounds : u.rounds = s.rounds) (hv : u.vertex = s.vertex)
    (hstop : u.stoppedSeq = false) (hop : (s.round line).op = op) (hfull : op ≠ 1 ∧ op ≠ 6)
    (hreads : op ≠ 5 ∨ (s.round line).root = s.vertex) (hlength : 0 < (s.round line).length)
    (hread : s.readBlocks line (s.round line) [0] 0 = some (u, value)) (hexec : exec i s = .next (s.collStart op line)) :
    Leads i s (s.SentUp line d u value) := by
  refine h.leads hrounds hv hstop hop (State.collBegin_of_tree h.mayBegin (hop ▸ hfull) h.onTree ?_) hexec
  rw [if_pos (by simpa [hop] using ⟨hreads, hlength⟩), hread]

/-- A member of a broadcast that is not its root has nothing to send up. -/
theorem TreeMember.leads_of_broadcast (h : TreeMember s line d) (hop : (s.round line).op = 5)
    (hroot : (s.round line).root ≠ s.vertex) (hexec : exec i s = .next (s.collStart 5 line)) :
    Leads i s (s.SentUp line d s []) := by
  refine h.leads rfl rfl h.runs hop (State.collBegin_of_tree h.mayBegin (by simp [hop]) h.onTree ?_) hexec
  rw [if_neg (by simp [hop, hroot])]
  rfl

end

/-- A barrier of a group of one member is done as it begins. -/
theorem exec_barrier_alone (h : (s.round line).Fresh) (hbegun : (s.round line).begun = false)
    (hmay : s.MayBegin (s.round line)) (hstop : s.stoppedSeq = false) (hdims : (s.round line).dims = [])
    (hop : (s.round line).op = 1) : exec (.barrier line) s = .next ((s.updRound line (·.opened (s.round line).value)).updRound
      line fun r => { r with done := true }) := by
  have hnew : (s.updRound line (·.opened (s.round line).value)).round line = (s.round line).opened (s.round line).value :=
    State.round_updRound ..
  have hfresh : ((s.updRound line (·.opened (s.round line).value)).round line).Fresh := hnew ▸ h.opened _
  have htree : (s.round line).onTree = true := by simp [Round.onTree, hop]
  show Host.Outcome.next (s.collStart 1 line) = _
  rw [State.collStart_of_fresh h hbegun hstop hop, State.collBegin_of_empty hmay (.inl hop),
    State.collRun_of_fresh hfresh (by rw [hnew]; rfl) (by rw [hnew]; exact htree) hstop,
    State.treeUp_of_alone hfresh (by rw [hnew]; exact hdims) (by rw [hnew]; exact hop)]

/-! ## What arrives for a round that does not run (R532, R538) -/

theorem State.collRun_of_idle (h : (s.round line).running = false) : s.collRun line = s := by simp [State.collRun, h]

theorem exec_collectivePartialReceive_good {p : Partial} (hline : collLine line = true)
    (hidle : (s.round line).running = false) (hcrc : ∀ x ∈ p.chunks, crc32c x.data = x.crc) :
    exec (.collectivePartialReceive line p) s = .next (s.updRound line fun r => { r with
      partials := r.partials ++ [p], tries := r.tries.filter (·.1 ≠ (p.dim.val, p.coord.val, 0)) }) := by
  have hgood : (p.chunks.any fun b => crc32c b.data ≠ b.crc) = false := by simpa using hcrc
  have hexec : exec (.collectivePartialReceive line p) s = execCollectivePartialReceive line p s := rfl
  simp only [hexec, execCollectivePartialReceive, hline, hgood, Bool.not_true, Bool.false_and, Bool.false_eq_true, if_false]
  exact congrArg _ (State.collRun_of_idle (by rw [State.round_updRound]; exact hidle))

theorem exec_digestBlockReceive_good {b : DigestBlock} (hline : collLine line = true)
    (hidle : (s.round line).running = false) (hcrc : crc32c b.body.data = b.body.crc) :
    exec (.digestBlockReceive line b) s = .next (s.updRound line fun r => { r with
      inbox := r.inbox ++ [b], tries := r.tries.filter (·.1 ≠ (b.dim.val, b.coord.val, b.index)) }) := by
  have hgood : decide (crc32c b.body.data ≠ b.body.crc) = false := by simpa using hcrc
  have hexec : exec (.digestBlockReceive line b) s = execDigestBlockReceive line b s := rfl
  simp only [hexec, execDigestBlockReceive, hline, hgood, Bool.not_true, Bool.false_and, Bool.false_eq_true, if_false]
  exact congrArg _ (State.collRun_of_idle (by rw [State.round_updRound]; exact hidle))

/-- A block with a wrong CRC for which no resend has been asked yet is asked for again. -/
theorem exec_digestBlockReceive_wrong {b : DigestBlock} (hline : collLine line = true)
    (hcrc : crc32c b.body.data ≠ b.body.crc) (htries : (s.round line).tries = []) :
    exec (.digestBlockReceive line b) s = .next ((s.updRound line (·.retry (b.dim.val, b.coord.val, b.index))).emit
      (.blockResend line (s.collPeer b.dim.val b.coord.val) b.index)) := by
  have hwrong : decide (crc32c b.body.data ≠ b.body.crc) = true := by simpa using hcrc
  have htried (k : Nat × Nat × Nat) : (s.round line).tried k = 0 := by simp [Round.tried, htries]
  have hexec : exec (.digestBlockReceive line b) s = execDigestBlockReceive line b s := rfl
  simp only [hexec, execDigestBlockReceive, hline, hwrong, htried]
  rfl

/-! ## The end of a round (R531, R536) -/

theorem State.sendDown_rounds (s : State) (line : LAddr) (n : Nat) : (s.sendDown line n).rounds = s.rounds :=
  foldl_keeps (P := fun u : State => u.rounds = s.rounds) _ _ s rfl fun _ _ h =>
    foldl_keeps (P := fun u : State => u.rounds = s.rounds) _ _ _ h fun _ _ h => by
      split
      next => exact h
      next => exact h

/-- The word 7 that a round leaves: the first step that failed its check, or 0 (R540). -/
def Round.failWord (r : Round) : W64 :=
  match r.fail with
  | some (v, k, b) => BitVec.ofNat 64 (v.toNat + k % 16 * 2 ^ 12 + b % 2 ^ 32 * 2 ^ 32)
  | none => 0

/-- The word 1 that a round leaves: its status, and the arrivals that count for the next (R531). -/
def Round.endWord (r : Round) (w : W64) : W64 := withBits (withBits w 39 36 r.status) 31 16 r.early

/-- The words that the end of a round writes (R531). -/
def State.collWritten (s : State) (line : LAddr) : State :=
  let u := s.collPut line 1 ((s.round line).endWord (s.collWord line 1))
  (u.collPut line 7 (s.round line).failWord).collPut line 0 (u.collWord line 0 + 1)

/-- The state once a round's words are written and it no longer runs. -/
def State.collClosed (s : State) (line : LAddr) : State :=
  (s.collWritten line).updRound line fun r => { r with running := false, early := 0 }

theorem Round.bits_endWord_status (r : Round) (w : W64) : bits (r.endWord w) 39 36 = r.status % 16 :=
  (bits_withBits_of_disjoint _ _ (by decide) (by decide) (by decide)).trans (bits_withBits_self _ _ (by decide) (by decide))

theorem Round.bits_endWord_arrived (r : Round) (w : W64) : bits (r.endWord w) 31 16 = r.early % 65536 :=
  bits_withBits_self _ _ (by decide) (by decide)

theorem State.running_collClosed (s : State) (line : LAddr) : ((s.collClosed line).round line).running = false :=
  congrArg Round.running (State.round_updRound ..)

theorem OpenLine.collWord_collClosed (h : OpenLine s line) {j : Nat} (hj : j < 16) : (s.collClosed line).collWord line j =
    if j = 0 then s.collWord line 0 + 1 else if j = 7 then (s.round line).failWord
    else if j = 1 then (s.round line).endWord (s.collWord line 1) else s.collWord line j := by
  have h₁ := h.collPut (i := 1) (by decide) ((s.round line).endWord (s.collWord line 1))
  have h₇ := h₁.collPut (i := 7) (by decide) (s.round line).failWord
  refine (State.collWord_congr (s := s.collWritten line) h.aligned h.region (fun _ _ => rfl) hj).trans ?_
  rw [State.collWritten, h₇.collWord_collPut (by decide) hj, h₁.collWord_collPut (by decide) hj,
    h.collWord_collPut (by decide) hj, h.collWord_collPut (by decide) (by decide)]
  rfl

theorem exec_roundComplete (hrun : (s.round line).running = true) (hdone : (s.round line).done = true) :
    exec (.roundComplete line) s = .next ((s.collClosed line).collTry line) := by
  have hexec : exec (.roundComplete line) s = execRoundComplete line s := rfl
  simp only [hexec, execRoundComplete, hrun, hdone]
  rfl

/-- A member that meets the marker writes its record and completes. -/
theorem exec_snapshotMarker (hrun : (s.round line).running = true) (hop : (s.round line).op = 6)
    (hsent : (s.round line).sentUp = true) (hdone : (s.round line).done = false) (hended : (s.round line).ended = false)
    (hresult : s.collResult line (bits ((s.round line).w 5) 43 0) (s.snapRecord line) = some (u, 0)) :
    exec (.snapshotMarker line) s = .next ((u.sendDown line (s.round line).up).updRound line fun r => { r with
      done := true, status := max r.status 0 }) := by
  have hexec : exec (.snapshotMarker line) s = execSnapshotMarker line s := rfl
  have hsix : decide ((s.round line).op = 6) = true := decide_eq_true hop
  simp only [hexec, execSnapshotMarker, State.snapTake, hrun, hsix, hsent, hdone, hended, hresult]
  rfl

end

end Sys2Proof.Machine

namespace Sys2Proof.Proofs

open Sys2Proof.Machine

/-- Settles O49: arrivals and the end of a round write the words of an open line; a member begins its round in the one case that its
operation leaves, and what arrives for a round that does not run is kept or asked for again. -/
theorem collectiveRounds : Obligations.CollectiveRounds := by
  unfold Obligations.CollectiveRounds
  refine ⟨fun line s hm hline hregion hanswers hclean hidle => ?_, fun line s d rest => ?_, fun line s => ?_,
    fun line s p b hline hidle => ⟨fun hcrc => ?_, fun hcrc => ?_, fun hcrc htries => ?_⟩,
    fun line s u hrun hop hsent hdone hended hresult hrounds => ?_,
    fun line s hm hline hregion hanswers hclean hrun hdone hearly => ?_, fun v step block s hroom => ?_⟩
  · intro w arrived hroom
    have h := OpenLine.of_collLine hm hline hregion hanswers hclean
    refine ⟨?_, fun c a hfind ha hdue => ?_⟩
    · obtain ⟨⟨h₁, h₂, h₃, h₄⟩, -⟩ := h.collArrive hidle hroom
      exact .intro (exec_hartArrival hline hregion) ⟨h₁, h₂, h₃, h₄⟩
    · obtain ⟨hopen, hround, hwords⟩ := h.awaitDone c a 0
      obtain ⟨harrived, hctxs⟩ := hopen.collArrive (by rwa [hround]) (by rwa [hwords 1 (by decide)])
      obtain ⟨h₁, h₂, h₃, h₄⟩ := harrived.of_words hwords
      have hctx := (State.ctx_congr hctxs c).trans (State.ctx_awaitDone 0 hdue)
      rw [if_pos (State.kind_of_arrivalReady (List.find?_some hfind) ha)] at hctx
      refine .intro (exec_collectiveArrival hfind ha) ⟨⟨h₁, h₂, h₃, h₄⟩, ?_, ?_⟩
      · rw [hctx]; rfl
      · rw [hctx]; rfl
  · intro r up hrun hbegun hdone hended hup hsent hpartials hinbox htree hdims hcoord hstop hbad hreach
    have h : TreeMember s line d := ⟨⟨hrun, hdone, hended, hup, hsent, hpartials, hinbox⟩, hbegun, ⟨hbad, hreach⟩, htree,
      ⟨rest, hdims⟩, hcoord, hstop⟩
    refine ⟨fun hop => h.leads_of_empty hop (.inl rfl) rfl, fun hop => h.leads_of_empty hop (.inr rfl) rfl,
      fun u bs hrounds hv hustop => ⟨fun hlength hread => ?_, fun hop hroot => h.leads_of_broadcast hop hroot rfl⟩⟩
    have hone {op : Nat} {i : Instr} (hop : (s.round line).op = op) (hfull : op ≠ 1 ∧ op ≠ 6)
        (hreads : op ≠ 5 ∨ (s.round line).root = s.vertex) (hexec : exec i s = .next (s.collStart op line)) : up u bs i :=
      h.leads_of_read hrounds hv hustop hop hfull hreads hlength hread hexec
    exact ⟨fun hop => hone hop (by decide) (.inl (by decide)) rfl, fun hop => hone hop (by decide) (.inl (by decide)) rfl,
      fun hop => hone hop (by decide) (.inl (by decide)) rfl, fun hop hroot => hone hop (by decide) (.inr hroot) rfl⟩
  · intro r hrun hbegun hdone hended hup hsent hpartials hinbox hdims hop hstop hbad
    have hdims : (s.round line).dims = [] := hdims
    have hfresh : (s.round line).Fresh := ⟨hrun, hdone, hended, hup, hsent, hpartials, hinbox⟩
    have hmay : s.MayBegin (s.round line) := ⟨hbad, fun d hd => by simp [hdims] at hd⟩
    refine .intro (exec_barrier_alone hfresh hbegun hmay hstop hdims hop) ?_
    rw [State.round_updRound, State.round_updRound]
    exact ⟨rfl, rfl, rfl⟩
  · refine .intro (exec_collectivePartialReceive_good hline hidle hcrc) ?_
    rw [State.round_updRound]
  · refine .intro (exec_digestBlockReceive_good hline hidle hcrc) ?_
    rw [State.round_updRound]
  · have hround (m : OutMsg) (g : Round → Round) : ((s.updRound line g).emit m).round line = g (s.round line) :=
      State.round_updRound ..
    refine .intro (exec_digestBlockReceive_wrong hline hcrc htries) ⟨rfl, ?_, ?_⟩
    · rw [hround]
      simp [Round.retry, Round.tried, htries]
    · rw [hround]
      rfl
  · have hround : (u.sendDown line (s.round line).up).round line = s.round line :=
      State.round_congr ((State.sendDown_rounds ..).trans hrounds) line
    refine .intro (exec_snapshotMarker hrun hop hsent hdone hended hresult) ?_
    rw [State.round_updRound, hround]
    exact ⟨rfl, Nat.max_zero _⟩
  · have h := OpenLine.of_collLine hm hline hregion hanswers hclean
    have hearly : (s.round line).early = 0 := hearly
    have hword (j : Nat) (hj : j < 16) : ((s.collClosed line).collTry line).collWord line j = _ :=
      (State.collWord_congr h.aligned h.region (fun i _ => by rw [((s.collClosed line).collTry_frame line).1]) hj).trans
        (h.collWord_collClosed hj)
    have harrived : bits ((s.round line).endWord (s.collWord line 1)) 31 16 = 0 := by rw [Round.bits_endWord_arrived, hearly]
    refine .intro (exec_roundComplete hrun hdone) ⟨hword 0 (by decide), ?_, ?_, ?_, fun hfail => ?_⟩
    · rw [State.running_collTry (State.running_collClosed s line), h.collWord_collClosed (by decide)]
      exact decide_eq_false (by simp [harrived])
    · exact (congrArg (bits · 39 36) (hword 1 (by decide))).trans (Round.bits_endWord_status ..)
    · exact (congrArg (bits · 31 16) (hword 1 (by decide))).trans harrived
    · exact (hword 7 (by decide)).trans (by simp [Round.failWord, hfail])
  · exact ⟨_, rfl, _, congrArg State.errHeld (State.logErr_of_room _ _ hroom), rfl, rfl, rfl⟩

end Sys2Proof.Proofs
end

section
/-! SUPPORT and PROOF of the memory model: the home of a line as a number, a request that reaches its home, the bytes of a line under
the stores of a core, and a load from the own scratchpad. -/

namespace Sys2Proof.Machine

/-! ## The home of a line (R323) -/

section
variable {a b hi lo : Nat}

/-- The part of the home's number that the bits above an 8 KiB block give. -/
def homeUpper (a : Nat) : Nat :=
  abits a 18 13 ^^^ abits a 24 19 ^^^ abits a 30 25 ^^^ abits a 36 31 ^^^ abits a 42 37 ^^^ abits a 43 43

theorem abits_lt_of_width {n : Nat} (a : Nat) (h : hi + 1 - lo ≤ n) : abits a hi lo < 2 ^ n :=
  (Nat.mod_lt _ (Nat.two_pow_pos _)).trans_le (Nat.pow_le_pow_right (by decide) h)

theorem homeOf_val (a : Nat) : (homeOf a).val = abits a 12 7 ^^^ homeUpper a := by
  have hw (hi lo : Nat) (h : hi + 1 - lo ≤ 6) : abits a hi lo < 2 ^ 6 := abits_lt_of_width a h
  have hlt : abits a 12 7 ^^^ homeUpper a < 2 ^ 6 := by
    unfold homeUpper
    repeat' apply Nat.xor_lt_two_pow
    all_goals exact hw _ _ (by decide)
  rw [← Nat.mod_eq_of_lt hlt]
  simp only [homeOf, homeUpper, Fin.val_ofNat, Nat.xor_assoc]
  rfl

theorem abits_congr_of_block (h : a / 8192 = b / 8192) (hlo : 13 ≤ lo) : abits a hi lo = abits b hi lo := by
  have hdiv (x : Nat) : x / 2 ^ lo = x / 8192 / 2 ^ (lo - 13) := by
    rw [Nat.div_div_eq_div_mul, show 8192 = 2 ^ 13 from rfl, ← Nat.pow_add, Nat.add_sub_cancel' hlo]
  rw [abits, abits, hdiv, hdiv, h]

theorem homeUpper_congr_of_block (h : a / 8192 = b / 8192) : homeUpper a = homeUpper b := by
  simp (disch := decide) only [homeUpper, abits_congr_of_block h]

/-- A line is given by its block of 8 KiB and its place among the 64 lines of the block. -/
theorem lineOf_eq_block_add (a : Nat) : lineOf a = 8192 * (a / 8192) + 128 * abits a 12 7 := by
  simp only [lineOf, abits]
  omega

end

/-! ## A request reaches its home (R361 to R363, R366) -/

/-- Whether a transaction writes, as its home's check of the address takes it (R714). -/
def TxnKind.writes : TxnKind → Bool
  | .rdOnce | .rdShared | .rdUnique => false
  | _ => true

section
variable {s : State} {a : LAddr} {q : HomeReq}

/-- The line of a request, busy with it in a phase. -/
def State.startedIn (s : State) (a : LAddr) (q : HomeReq) (p : TxnPhase) : State :=
  s.setLine a { s.line a with txn := some ⟨q, p, s.time (homeDie a.toNat)⟩ }

theorem State.arrive_of_busy (hbusy : (s.line a).txn ≠ none) :
    s.arrive a q = s.setLine a { s.line a with waiting := (s.line a).waiting ++ [q] } :=
  if_pos (Option.isSome_iff_ne_none.2 hbusy)

theorem State.arrive_of_free (hfree : (s.line a).txn = none) : s.arrive a q = s.startTxn a q :=
  if_neg (by simp [hfree])

theorem State.startTxn_of_bad (hbad : s.badAddr a.toNat q.kind.writes = true) :
    s.startTxn a q = s.startedIn a q (.respond 0x10 0 [] false) := by
  obtain ⟨r, v, h, k, t⟩ := q
  cases k <;> exact if_pos hbad

theorem State.startTxn_of_recalls (hok : s.badAddr a.toNat q.kind.writes = false) (hrecalls : (s.line a).recalls q ≠ []) :
    s.startTxn a q = s.startedIn a q (.recall ((s.line a).recalls q) []) := by
  obtain ⟨r, v, h, k, t⟩ := q
  have hsome : (!((s.line a).recalls ⟨r, v, h, k, t⟩).isEmpty) = true := by simpa using hrecalls
  cases k <;> exact (if_neg (by rw [Bool.not_eq_true]; exact hok)).trans (if_pos hsome)

/-- With nothing to recall a transaction goes on as one whose recalls have been answered. -/
theorem State.startTxn_of_no_recalls (hok : s.badAddr a.toNat q.kind.writes = false) (hrecalls : (s.line a).recalls q = []) :
    s.startTxn a q = s.afterRecall a q := by
  obtain ⟨r, v, h, k, t⟩ := q
  have hnone : ¬(!((s.line a).recalls ⟨r, v, h, k, t⟩).isEmpty) = true := by simp [hrecalls]
  cases k <;> exact (if_neg (by rw [Bool.not_eq_true]; exact hok)).trans (if_neg hnone)

theorem State.startTxn_of_tier (hok : s.badAddr a.toNat q.kind.writes = false) (hrecalls : (s.line a).recalls q = [])
    (hregion : regionOf a.toNat = .t2 ∨ regionOf a.toNat = .t3) : s.startTxn a q = s.startedIn a q (.tier false) :=
  (State.startTxn_of_no_recalls hok hrecalls).trans (State.afterRecall_of_tier hregion q)

theorem Line.recalls_of_no_holder {l : Line} (howner : l.owner = none) (hsharers : l.sharers = []) (q : HomeReq) :
    l.recalls q = [] := by
  rw [Line.recalls, howner, hsharers]
  dsimp only
  split <;> rfl

theorem Line.recalls_of_owner {l : Line} {o : Requester} (ho : o ≠ q.r) (howner : l.owner = some o) (hsharers : l.sharers = [])
    (hkind : ∀ d, q.kind ≠ .evict d) : l.recalls q = [o] := by
  rw [Line.recalls, howner, hsharers]
  dsimp only
  rw [if_neg ho]
  split
  case h_3 d hd => exact absurd hd (hkind d)
  all_goals rfl

end

section
variable {s : State} {r : Requester} {v : Vertex} {a : LAddr} {h : Hint} {k : TxnKind} {q : HomeReq} {i : Instr}

/-- What a request does at its line that is busy, that has no memory, or that is free on a lower tier without holders. -/
def State.Arrives (s : State) (a : LAddr) (i : Instr) (q : HomeReq) (write : Bool) : Prop :=
  let la := lineAddr a
  let l := s.line la
  (l.txn ≠ none → exec i s = .next (s.setLine la { l with waiting := l.waiting ++ [q] })) ∧
  (l.txn = none → s.badAddr la.toNat write = true → exec i s = .next (s.startedIn la q (.respond 0x10 0 [] false))) ∧
  (l.txn = none → s.badAddr la.toNat write = false → l.owner = none → l.sharers = [] →
    (regionOf la.toNat = .t2 ∨ regionOf la.toNat = .t3) → exec i s = .next (s.startedIn la q (.tier false)))

/-- What a request does at its line that another agent owns. -/
def State.Recalls (s : State) (a : LAddr) (i : Instr) (q : HomeReq) (write : Bool) : Prop :=
  let la := lineAddr a
  let l := s.line la
  ∀ o, o ≠ q.r → l.txn = none → s.badAddr la.toNat write = false → l.owner = some o → l.sharers = [] →
    exec i s = .next (s.startedIn la q (.recall [o] []))

theorem State.arrives_of_exec (hi : exec i s = .next (s.arrive (lineAddr a) q)) : s.Arrives a i q q.kind.writes := by
  refine ⟨fun hbusy => ?_, fun hfree hbad => ?_, fun hfree hok howner hsharers hregion => ?_⟩
  · rw [hi, State.arrive_of_busy hbusy]
  · rw [hi, State.arrive_of_free hfree, State.startTxn_of_bad hbad]
  · rw [hi, State.arrive_of_free hfree, State.startTxn_of_tier hok (Line.recalls_of_no_holder howner hsharers q) hregion]

theorem State.recalls_of_exec (hkind : ∀ d, q.kind ≠ .evict d) (hi : exec i s = .next (s.arrive (lineAddr a) q)) :
    s.Recalls a i q q.kind.writes := by
  intro o ho hfree hok howner hsharers
  have hrecalls := Line.recalls_of_owner ho howner hsharers hkind
  rw [hi, State.arrive_of_free hfree, State.startTxn_of_recalls hok (by rw [hrecalls]; exact List.cons_ne_nil _ _), hrecalls]

/-- A transaction other than `EVICT` may wait, end, go to its tier or recall. -/
theorem State.request_reaches_home (hkind : ∀ d, k ≠ .evict d) (hi : exec i s = .next (s.request r v a h k)) :
    s.Arrives a i ⟨r, v, h, k, s.time (homeDie a.toNat)⟩ k.writes ∧
      s.Recalls a i ⟨r, v, h, k, s.time (homeDie a.toNat)⟩ k.writes :=
  ⟨arrives_of_exec hi, recalls_of_exec hkind hi⟩

end

/-! ## Bytes put in a line, and bytes under a mask -/

section
variable {i : Nat}

theorem getLsbD_maskOf128 (o n : Nat) (hi : i < 128) : (maskOf128 o n).getLsbD i = decide (o ≤ i ∧ i < o + n) := by
  have hpow : 2 ^ (o + n) - 2 ^ o = 2 ^ o * (2 ^ n - 1) := by rw [Nat.pow_add, Nat.mul_sub, Nat.mul_one]
  rw [maskOf128, BitVec.getLsbD_ofNat, hpow, Nat.testBit_two_pow_mul, Nat.testBit_two_pow_sub_one]
  have hsub (ho : o ≤ i) : i - o < n ↔ i < o + n := by omega
  by_cases ho : o ≤ i
  · simp [hi, ho, hsub ho]
  · simp [ho]

@[simp] theorem length_merge128 (m : BitVec 128) (xs ys : List W8) : (merge128 m xs ys).length = 128 := by simp [merge128]

theorem getElem?_merge128 (m : BitVec 128) (xs ys : List W8) (hi : i < 128) :
    (merge128 m xs ys)[i]? = some (if m.getLsbD i then ys.getD i 0 else xs.getD i 0) := by simp [merge128, hi]

theorem getD_merge128 (m : BitVec 128) (xs ys : List W8) (hi : i < 128) :
    (merge128 m xs ys).getD i 0 = if m.getLsbD i then ys.getD i 0 else xs.getD i 0 := by
  rw [List.getD_eq_getElem?_getD, getElem?_merge128 m xs ys hi, Option.getD_some]

theorem getD_patch_add {xs bs : List W8} {o : Nat} (hi : i < bs.length) (hfit : o + bs.length ≤ xs.length) :
    (patch xs o bs).getD (o + i) 0 = bs.getD i 0 := by
  rw [List.getD_eq_getElem _ _ (by rw [length_patch]; omega), getElem_patch, if_pos (by omega), Nat.add_sub_cancel_left]

/-- A patch over a whole list is the list that is put. -/
theorem patch_whole {xs bs : List W8} (h : bs.length = xs.length) : patch xs 0 bs = bs := by
  refine List.ext_getElem (by rw [length_patch, h]) fun i _ hi => ?_
  rw [getElem_patch, if_pos (by omega), Nat.sub_zero, List.getD_eq_getElem _ _ hi]

/-- Writing under one mask and then under another is one write under both, where the later bytes lie over the earlier. -/
theorem merge128_merge128 (m m' : BitVec 128) (xs ys ys' : List W8) :
    merge128 m' (merge128 m xs ys) ys' = merge128 (m ||| m') xs (merge128 m' ys ys') := by
  refine List.ext_getElem? fun i => ?_
  by_cases hi : i < 128
  · rw [getElem?_merge128 _ _ _ hi, getElem?_merge128 _ _ _ hi, getD_merge128 _ _ _ hi, getD_merge128 _ _ _ hi, BitVec.getLsbD_or]
    cases m.getLsbD i <;> cases m'.getLsbD i <;> rfl
  · rw [List.getElem?_eq_none (by simpa using hi), List.getElem?_eq_none (by simpa using hi)]

end

/-! ## The line as the core's loads see it (R329, R331) -/

section
variable {c : CtxIx} {line : PAddr} {l l' : List SbEntry} {e : SbEntry} {d : List W8} {i : Nat}

/-- The bytes of a line under the entries of a buffer. -/
def bufferView (line : PAddr) (l : List SbEntry) (d : List W8) : List W8 :=
  l.foldl (fun d e => if e.line = line then merge128 e.mask d e.data else d) d

theorem State.forward_eq (s : State) (lc : LC) (line : PAddr) (d : List W8) :
    s.forward lc line d = bufferView line (s.core lc).sb d := rfl

theorem bufferView_append (l l' : List SbEntry) : bufferView line (l ++ l') d = bufferView line l' (bufferView line l d) :=
  List.foldl_append

theorem bufferView_cons_line (h : e.line = line) : bufferView line (e :: l) d = bufferView line l (merge128 e.mask d e.data) := by
  rw [bufferView, List.foldl_cons, if_pos h, bufferView]

theorem bufferView_of_other_lines (h : ∀ x ∈ l, x.line ≠ line) : bufferView line l d = d := by
  induction l with
  | nil => rfl
  | cons x l ih =>
    rw [bufferView, List.foldl_cons, if_neg (h x List.mem_cons_self)]
    exact ih fun y hy => h y (List.mem_cons_of_mem x hy)

theorem length_bufferView (hd : d.length = 128) : (bufferView line l d).length = 128 :=
  foldl_keeps (P := fun d : List W8 => d.length = 128) _ l d hd fun d e hd => by
    split
    next => exact length_merge128 ..
    next => exact hd

/-- The entry that `lastFor` names is of the context and the line, and no later one is. -/
theorem lastFor_eq_some (h : lastFor c line l = some i) : ∃ hi : i < l.length, l[i].c = c ∧ l[i].line = line ∧
    ∀ x ∈ l.drop (i + 1), x.c = c → x.line ≠ line := by
  unfold lastFor at h
  obtain ⟨js, hjs⟩ := List.getLast?_eq_some_iff.1 h
  have hmem (j : Nat) (hj : j < l.length) : j ∈ js ++ [i] ↔ l[j].c = c ∧ l[j].line = line := by
    rw [← hjs]
    simp [hj]
  have hi : i < l.length := List.mem_range.1 (List.mem_filter.1 (hjs ▸ List.mem_append_right js (List.mem_singleton_self i))).1
  have hsorted : (js ++ [i]).Pairwise (· < ·) := hjs ▸ List.Pairwise.filter _ List.pairwise_lt_range
  obtain ⟨hc, hl⟩ := (hmem i hi).1 (by simp)
  refine ⟨hi, hc, hl, fun x hx hxc hxl => ?_⟩
  obtain ⟨k, hk, rfl⟩ := List.getElem_of_mem hx
  rw [List.length_drop] at hk
  rw [List.getElem_drop] at hxc hxl
  have hlast : i + 1 + k ∈ js ++ [i] := (hmem _ (by omega)).2 ⟨hxc, hxl⟩
  obtain hj | hj := List.mem_append.1 hlast
  · have := (List.pairwise_append.1 hsorted).2.2 _ hj i (List.mem_singleton_self i)
    omega
  · have := List.mem_singleton.1 hj
    omega

/-- Bytes enter the buffer in an entry of their own, last, or join the last entry of their context and line. -/
theorem sbAdd_cases (h : sbAdd e l = some l') : l' = l ++ [e] ∨ ∃ before x after, l = before ++ x :: after ∧ x.line = e.line ∧
    (∀ y ∈ after, y.c = e.c → y.line ≠ e.line) ∧ l' = before ++
      { x with mask := x.mask ||| e.mask, data := merge128 e.mask x.data e.data, hint := e.hint } :: after := by
  have hfresh (h : (if l.length < 64 then some (l ++ [e]) else none) = some l') : l' = l ++ [e] := by
    split at h
    · exact (Option.some.inj h).symm
    · cases h
  unfold sbAdd at h
  dsimp only at h
  split at h
  next => exact .inl (hfresh h)
  next i hlast =>
    obtain ⟨hi, -, hline, hafter⟩ := lastFor_eq_some hlast
    rw [List.getElem?_eq_getElem hi] at h
    dsimp only at h
    split at h
    next => exact .inl (hfresh h)
    next =>
      refine .inr ⟨l.take i, l[i], l.drop (i + 1), ?_, hline, hafter, ?_⟩
      · rw [List.getElem_cons_drop, List.take_append_drop]
      · rw [← Option.some.inj h, List.set_eq_take_append_cons_drop, if_pos hi]

/-- Bytes that enter the buffer lie over all that it held of their line, where no other context has an entry for the line. -/
theorem bufferView_sbAdd (h : sbAdd e l = some l') (hown : ∀ x ∈ l, x.line = e.line → x.c = e.c) (d : List W8) :
    bufferView e.line l' d = merge128 e.mask (bufferView e.line l d) e.data := by
  obtain rfl | ⟨before, x, after, rfl, hx, hafter, rfl⟩ := sbAdd_cases h
  · rw [bufferView_append, bufferView_cons_line rfl, bufferView_of_other_lines (by simp)]
  · have hrest : ∀ y ∈ after, y.line ≠ e.line := fun y hy hline =>
      hafter y hy (hown y (List.mem_append_right _ (List.mem_cons_of_mem x hy)) hline) hline
    rw [bufferView_append, bufferView_append, bufferView_cons_line hx, bufferView_cons_line,
      bufferView_of_other_lines hrest, bufferView_of_other_lines hrest, merge128_merge128]
    exact hx

end

section
variable {s t : State} {c : Cx} {va : W64} {p : Part} {bs : List W8} {h : Hint} {tag : WriteTag}

/-- A store of one part leaves the buffer with its entry. -/
theorem State.sbParts_single (hdst : p.dst = 0) (hlen : bs.length = p.len) (ht : s.sbParts c va [p] bs h tag = some t) :
    sbAdd (sbEntry c.ix (va + BitVec.ofNat 64 p.dst) p.line p.off bs h tag) (s.core c.lc).sb = some (t.core c.lc).sb := by
  have hbs : (bs.drop p.dst).take p.len = bs := by rw [hdst, List.drop_zero, ← hlen, List.take_length]
  rw [State.sbParts, List.foldl_cons, List.foldl_nil] at ht
  dsimp only at ht
  rw [hbs] at ht
  split at ht
  next => cases ht
  next l hadd =>
    rw [hadd, ← Option.some.inj ht, State.ocStore, State.core_updCore, State.core_updCore]

/-- The line as the core's loads see it after a store of one part: the entry's bytes over what they saw before. -/
theorem State.forward_sbParts_single (hdst : p.dst = 0) (hlen : bs.length = p.len)
    (hown : ∀ e ∈ (s.core c.lc).sb, e.line = p.line → e.c = c.ix) (ht : s.sbParts c va [p] bs h tag = some t) (d : List W8) :
    t.forward c.lc p.line d =
      merge128 (maskOf128 p.off p.len) (s.forward c.lc p.line d) (patch (List.replicate 128 0) p.off bs) := by
  rw [State.forward_eq, State.forward_eq, ← hlen]
  simpa only [sbEntry] using bufferView_sbAdd (State.sbParts_single hdst hlen ht) hown d

end

/-! ## A load from the own scratchpad (R338) -/

section
variable {s : State} {c : Cx} {va : W64} {h : Hint} {p : Part} {io : Bool} {a n : Nat}

@[simp] theorem State.logErr_ctxs (s : State) (d : Die) (r : ErrRec) : (s.logErr d r).ctxs = s.ctxs := by
  unfold State.logErr
  dsimp only
  split
  next => rfl
  next => split <;> rfl

@[simp] theorem State.bump_ctxs (s : State) (r : Reg) (hi lo n : Nat) : (s.bump r hi lo n).ctxs = s.ctxs := rfl
@[simp] theorem State.fset_ctxs (s : State) (r : Reg) (hi lo v : Nat) : (s.fset r hi lo v).ctxs = s.ctxs := rfl

/-- A read of the scratchpad changes the list of its correctable words and reports errors of its words, and nothing else (R119). -/
theorem State.spdTouch_keeps {P : State → Prop} (s : State) (a n : Nat) (hsoft : ∀ t ws, P t → P { t with softWords := ws })
    (herr : ∀ t lc hi lo n v d r, P t →
      P (((State.bump t (rg .coreSpdEcc lc) hi lo n).fset (rg .coreSpdEcc lc) 51 32 v).logErr d r)) (hs : P s) :
    P (s.spdTouch a n) := by
  unfold State.spdTouch
  dsimp only
  split
  next => exact foldl_keeps _ _ _ (hsoft _ _ hs) fun t w ht => herr _ _ _ _ _ _ _ _ ht
  next => exact herr _ _ _ _ _ _ _ _ (foldl_keeps _ _ _ (hsoft _ _ hs) fun t w ht => herr _ _ _ _ _ _ _ _ ht)

@[simp] theorem State.spdTouch_mem (s : State) (a n : Nat) : (s.spdTouch a n).mem = s.mem :=
  s.spdTouch_keeps (P := fun t => t.mem = s.mem) a n (fun _ _ ht => ht) (fun t _ _ _ _ _ _ _ ht => by simpa using ht) rfl

@[simp] theorem State.spdTouch_ctxs (s : State) (a n : Nat) : (s.spdTouch a n).ctxs = s.ctxs :=
  s.spdTouch_keeps (P := fun t => t.ctxs = s.ctxs) a n (fun _ _ ht => ht) (fun t _ _ _ _ _ _ _ ht => by simpa using ht) rfl

/-- A load of one part in the own scratchpad, without an uncorrectable word, ends with its bytes in memory. -/
theorem State.load_own (hplan : s.plan c va 0 [(0, n)] = .ok ([p], io)) (hplace : s.place c p.pa false = .own a)
    (hgood : s.spdBad a p.len = none) :
    s.load c va [(0, n)] h = .ok (s.spdTouch a p.len) [(p.dst, (s.spdTouch a p.len).peek a p.len)] := by
  have hnone : [p].find? (fun p => s.place c p.pa false = .bad) = none := by simp [hplace]
  rw [State.load, hplan]
  dsimp only
  rw [hnone]
  simp only [loadParts, hplace, hgood, List.nil_append]

end

end Sys2Proof.Machine

namespace Sys2Proof.Proofs

open Sys2Proof.Machine

/-- Settles O20: the one part is read from memory, and the reports of a scratchpad read leave memory, contexts and cores. -/
theorem ownScratchpadLoads : Obligations.OwnScratchpadLoads := by
  unfold Obligations.OwnScratchpadLoads
  rintro s c va n h p io a hplan hdst rfl hplace hgood
  refine ⟨_, _, State.load_own hplan hplace hgood, ?_, s.spdTouch_mem a p.len, s.spdTouch_ctxs a p.len,
    (SendFrame.spdTouch s a p.len).cores⟩
  have hpeek : (s.spdTouch a p.len).peek a p.len = s.peek a p.len := by rw [State.peek, State.spdTouch_mem, State.peek]
  rw [assemble, List.foldl_cons, List.foldl_nil, hdst, hpeek, patch_whole (by rw [length_peek, List.length_replicate])]

/-- Settles O37: in one block of 8 KiB the home's number is the line's place in the block, under an exclusive or with bits that the
block fixes. -/
theorem homeLinesSpread : Obligations.HomeLinesSpread := by
  unfold Obligations.HomeLinesSpread
  intro a b _ _ hblock hhome
  have hval := congrArg Fin.val hhome
  rw [homeOf_val, homeOf_val, homeUpper_congr_of_block hblock] at hval
  rw [lineOf_eq_block_add, lineOf_eq_block_add, hblock, Nat.xor_left_injective hval]

/-- Settles O38: each command asks the home of its line, and what the request meets there does not depend on its kind, but that an
`EVICT` recalls nobody. -/
theorem homeRequestsArrive : Obligations.HomeRequestsArrive := by
  unfold Obligations.HomeRequestsArrive
  intro r v a h s la l now arrives recalls q
  refine ⟨s.request_reaches_home (by simp) rfl, fun hcaches => ?_, fun m d => s.request_reaches_home (by simp) rfl,
    fun d => s.request_reaches_home (by simp) rfl, fun op dbl x halign => s.request_reaches_home (by simp) (congrArg Host.Outcome.next (if_pos halign))⟩
  have hshared := s.request_reaches_home (i := .rdShared r a h) (k := .rdShared) (by simp) (congrArg Host.Outcome.next (if_pos hcaches))
  have hunique := s.request_reaches_home (i := .rdUnique r a h) (k := .rdUnique) (by simp) (congrArg Host.Outcome.next (if_pos hcaches))
  exact ⟨hshared.1, hshared.2, hunique.1, hunique.2, fun d => State.arrives_of_exec (congrArg Host.Outcome.next (if_pos hcaches))⟩

/-- Settles O21: the entry that a store leaves lies over all that the buffer held of the line, whether it joined an earlier entry or
not. -/
theorem ownStoresAreForwarded : Obligations.OwnStoresAreForwarded := by
  unfold Obligations.OwnStoresAreForwarded
  intro s t c va p bs line h tag hdst hlen hfit hline hown ht
  rw [State.forward_sbParts_single hdst hlen hown ht]
  refine ⟨fun i hi => ?_, fun i hi hout => ?_⟩
  · rw [getElem?_merge128 _ _ _ (by omega), getLsbD_maskOf128 _ _ (by omega), if_pos (by simpa using hi),
      getD_patch_add (by omega) (by simpa [hlen] using hfit), List.getD_eq_getElem _ _ (by omega), List.getElem?_eq_getElem]
  · have hlen' : (s.forward c.lc p.line line).length = 128 := length_bufferView hline
    rw [getElem?_merge128 _ _ _ hi, getLsbD_maskOf128 _ _ hi, if_neg (by simp; omega), List.getD_eq_getElem _ _ (by omega),
      List.getElem?_eq_getElem (by omega)]

end Sys2Proof.Proofs
end

section
/-! SUPPORT and PROOF of the access counters, the quotas and the commands of the memory-side cache: a field of a register after a
write, what a write of bytes at their homes leaves, and what each command does. -/

namespace Sys2Proof.Machine

/-! ## A field of a register after a write (R13, R14) -/

section
variable (s : State) {t : State} {r r' : Reg} {hi lo hi' lo' : Nat} (v : Nat)

theorem State.fget_congr (h : t.regs = s.regs) : t.fget r hi lo = s.fget r hi lo := by
  rw [State.fget, State.fget, State.reg, State.reg, h]

theorem State.fget_fset_self (hlo : lo ≤ hi) (hhi : hi < 64) : (s.fset r hi lo v).fget r hi lo = v % 2 ^ (hi + 1 - lo) := by
  rw [State.fget, State.fset, State.reg_setReg, bits_withBits_self _ _ hlo hhi]

theorem State.fget_fset_of_disjoint (hlo : lo ≤ hi) (hhi : hi < 64) (h : hi' < lo ∨ hi < lo') :
    (s.fset r hi lo v).fget r hi' lo' = s.fget r hi' lo' := by
  rw [State.fget, State.fset, State.reg_setReg, bits_withBits_of_disjoint _ _ hlo hhi h, State.fget]

theorem State.fget_fset_ne (h : r' ≠ r) : (s.fset r hi lo v).fget r' hi' lo' = s.fget r' hi' lo' := by
  rw [State.fget, State.fset, State.reg_setReg_ne _ _ h, State.fget]

theorem State.fget_bump_ne (h : r' ≠ r) : (s.bump r hi lo v).fget r' hi' lo' = s.fget r' hi' lo' :=
  s.fget_fset_ne _ h

end

/-! ## What the reports of a unit leave (R557, R593, R598) -/

section
variable (s : State)

@[simp] theorem State.fset_msc (r : Reg) (hi lo v : Nat) : (s.fset r hi lo v).msc = s.msc := rfl
@[simp] theorem State.bump_msc (r : Reg) (hi lo v : Nat) : (s.bump r hi lo v).msc = s.msc := rfl

/-- An error record changes the holding stores, the count of its die, and the count of lost records. -/
theorem State.logErr_eq (d : Die) (e : ErrRec) : s.logErr d e = { s with
    dies := (s.logErr d e).dies, errHeld := (s.logErr d e).errHeld, errKept := (s.logErr d e).errKept
    regs := (s.logErr d e).regs } := by
  unfold State.logErr
  dsimp only
  split
  next => rfl
  next => split <;> rfl

@[simp] theorem State.logErr_msc (d : Die) (e : ErrRec) : (s.logErr d e).msc = s.msc :=
  (congrArg State.msc (s.logErr_eq d e) :)

@[simp] theorem State.ledger_regs (e : LedgerEntry) : (s.ledger e).regs = s.regs := by
  unfold State.ledger; split <;> rfl

@[simp] theorem State.ledger_msc (e : LedgerEntry) : (s.ledger e).msc = s.msc := by
  unfold State.ledger; split <;> rfl

@[simp] theorem State.mgtAlert_regs : s.mgtAlert.regs = s.regs := by
  unfold State.mgtAlert; split <;> rfl

@[simp] theorem State.mgtAlert_msc : s.mgtAlert.msc = s.msc := by
  unfold State.mgtAlert; split <;> rfl

/-- A cause of degraded operation changes its bit of `ERR_STATUS`, and alerts the management target at most. -/
theorem State.setDegraded_cases (n : Nat) (on : Bool) : s.setDegraded n on = s.fset (rg .errStatus) n n (if on then 1 else 0) ∨
    s.setDegraded n on = (s.fset (rg .errStatus) n n (if on then 1 else 0)).mgtAlert :=
  ite_eq_or_eq ..

theorem State.setDegraded_regs (n : Nat) (on : Bool) :
    (s.setDegraded n on).regs = (s.fset (rg .errStatus) n n (if on then 1 else 0)).regs := by
  obtain h | h := s.setDegraded_cases n on <;> simp only [h, State.mgtAlert_regs]

@[simp] theorem State.setDegraded_msc (n : Nat) (on : Bool) : (s.setDegraded n on).msc = s.msc := by
  obtain h | h := s.setDegraded_cases n on <;> simp only [h, State.mgtAlert_msc] <;> rfl

theorem State.fget_setDegraded {n : Nat} (h : n < 64) : (s.setDegraded n true).fget (rg .errStatus) n n = 1 := by
  rw [State.fget_congr _ (s.setDegraded_regs n true), if_pos rfl, State.fget_fset_self _ _ (Nat.le_refl n) h,
    Nat.add_sub_cancel_left]
  rfl

theorem State.fget_setDegraded_ne {r : Reg} (n : Nat) (on : Bool) (hi lo : Nat) (h : r ≠ rg .errStatus) :
    (s.setDegraded n on).fget r hi lo = s.fget r hi lo := by
  rw [State.fget_congr _ (s.setDegraded_regs n on), State.fget_fset_ne _ _ h]

end

/-! ## What a write at its home changes (R324, R427 to R429, R442 to R447) -/

/-- A state that differs at most in memory and the stripe buffers. -/
def State.StackFrame (s t : State) : Prop := t = { s with mem := t.mem, jahel := t.jahel }

/-- A state that differs at most in memory, the registers, the memory-side cache, the stripe buffers, poison and messages. -/
def State.HomeFrame (s t : State) : Prop :=
  t = { s with mem := t.mem, regs := t.regs, msc := t.msc, jahel := t.jahel, poison := t.poison, badWords := t.badWords,
               softWords := t.softWords, out := t.out }

section
variable {s t u : State}

theorem State.StackFrame.trans (h : s.StackFrame t) (h' : t.StackFrame u) : s.StackFrame u := Eq.trans h' (by rw [h])

theorem State.StackFrame.foldl {α : Type} {f : State → α → State} (l : List α) (hf : ∀ s x, State.StackFrame s (f s x))
    (s : State) : s.StackFrame (l.foldl f s) :=
  foldl_keeps (P := s.StackFrame) f l s rfl fun t x h => h.trans (hf t x)

theorem State.StackFrame.home (h : s.StackFrame t) : s.HomeFrame t := Eq.trans h (by rw [h])

theorem State.HomeFrame.trans (h : s.HomeFrame t) (h' : t.HomeFrame u) : s.HomeFrame u := Eq.trans h' (by rw [h])

theorem State.HomeFrame.foldl {α : Type} {f : State → α → State} (l : List α) (hf : ∀ s x, State.HomeFrame s (f s x))
    (s : State) : s.HomeFrame (l.foldl f s) :=
  foldl_keeps (P := s.HomeFrame) f l s rfl fun t x h => h.trans (hf t x)

theorem State.stackFrame_retire (s : State) (j : Stack) (e : StripeEntry) : s.StackFrame (s.retire j e) :=
  .trans (.foldl (f := fun s (l : LAddr × List W8) => s.poke l.1.toNat l.2) e.lines (fun _ _ => rfl) s) rfl

theorem State.stackFrame_stripeWrite (s : State) (a : LAddr) (d : List W8) : s.StackFrame (s.stripeWrite a d) := by
  unfold State.stripeWrite
  dsimp only
  split
  next => exact rfl
  next =>
    split
    next => exact rfl
    next =>
      split
      next => exact rfl
      next => exact .trans (s.stackFrame_retire ..) rfl

theorem State.homeFrame_stripeWrite (s : State) (a : LAddr) (d : List W8) : s.HomeFrame (s.stripeWrite a d) :=
  (s.stackFrame_stripeWrite a d).home

theorem State.homeFrame_mscAlloc (s : State) (a : LAddr) (age : Nat) (keep dirty last : Bool) (d : List W8) :
    s.HomeFrame (s.mscAlloc a age keep dirty last d) := by
  unfold State.mscAlloc
  dsimp only
  split
  next =>
    split
    next => exact s.homeFrame_stripeWrite ..
    next => exact rfl
  next =>
    split
    next =>
      split
      next => exact .trans (t := s.setMsc _ _) rfl (State.homeFrame_stripeWrite ..)
      next => exact rfl
    next => exact rfl

theorem State.homeFrame_t1Store (s : State) (a : LAddr) (h : Hint) (d : List W8) : s.HomeFrame (s.t1Store a h d) := by
  unfold State.t1Store
  dsimp only
  split
  next => exact rfl
  next =>
    split
    next => exact s.homeFrame_mscAlloc ..
    next => exact s.homeFrame_mscAlloc ..
    next => exact s.homeFrame_mscAlloc ..
    next => exact s.homeFrame_stripeWrite ..

theorem State.homeFrame_storeLine (s : State) (a : LAddr) (h : Hint) (d : List W8) : s.HomeFrame (s.storeLine a h d) := by
  unfold State.storeLine
  split
  next => exact s.homeFrame_t1Store ..
  next => exact rfl
  next => exact rfl

theorem State.homeFrame_homeWrite (s : State) (a : Nat) (bs : List W8) : s.HomeFrame (s.homeWrite a bs) := by
  refine .foldl _ (fun s l => ?_) s
  dsimp only
  split
  next => exact rfl
  next =>
    split
    next => exact rfl
    next =>
      split
      next => exact rfl
      next => exact .trans (t := { s with poison := _ }) rfl (State.homeFrame_storeLine ..)

theorem State.homeFrame_physWrite (s : State) (pa : PAddr) (bs : List W8) : s.HomeFrame (s.physWrite pa bs) := by
  unfold State.physWrite
  split
  next => exact s.homeFrame_homeWrite ..
  next => exact .foldl _ (fun s l => by exact rfl) s

end

/-! ## The memory-side cache (R443, R452, R455) -/

section
variable (s : State) {h h' : Slice} {p : MscLine → Bool}

@[simp] theorem State.mscOf_setMsc (h : Slice) (k : List MscLine) : (s.setMsc h k).mscOf h = k := Tbl.get_set_self ..

theorem State.mscOf_setMsc_ne (k : List MscLine) (hne : h' ≠ h) : (s.setMsc h k).mscOf h' = s.mscOf h' := Tbl.get_set_ne _ _ _ hne

/-- A state with the same memory-side cache has the same of each slice. -/
theorem State.mscOf_congr {s t : State} (hmsc : t.msc = s.msc) (h : Slice) : t.mscOf h = s.mscOf h := by
  rw [State.mscOf, State.mscOf, hmsc]

/-- The lines written back leave the memory-side cache and the registers as they were. -/
theorem State.stackFrame_mscClean (h : Slice) (p : MscLine → Bool) : (s.setMsc h ((s.mscOf h).map fun l =>
    if p l then { l with dirty := false } else l)).StackFrame (s.mscClean h p) :=
  .foldl _ (fun s _ => s.stackFrame_stripeWrite ..) _

theorem State.mscClean_regs (h : Slice) (p : MscLine → Bool) : (s.mscClean h p).regs = s.regs :=
  (congrArg State.regs (s.stackFrame_mscClean h p) :)

theorem State.mscOf_mscClean (h : Slice) (p : MscLine → Bool) : (s.mscClean h p).mscOf h =
    (s.mscOf h).map fun l => if p l then { l with dirty := false } else l :=
  (State.mscOf_congr (congrArg State.msc (s.stackFrame_mscClean h p) :) h).trans (s.mscOf_setMsc h _)

theorem State.mscOf_mscClean_ne (p : MscLine → Bool) (hne : h' ≠ h) : (s.mscClean h p).mscOf h' = s.mscOf h' :=
  (State.mscOf_congr (congrArg State.msc (s.stackFrame_mscClean h p) :) h').trans (s.mscOf_setMsc_ne _ hne)

theorem State.mscEmpty_regs (h : Slice) (p : MscLine → Bool) : (s.mscEmpty h p).regs = s.regs := s.mscClean_regs h p

theorem State.mscOf_mscEmpty (h : Slice) (p : MscLine → Bool) : (s.mscEmpty h p).mscOf h =
    ((s.mscClean h p).mscOf h).filter (!p ·) :=
  State.mscOf_setMsc ..

theorem State.mscOf_mscEmpty_ne (p : MscLine → Bool) (hne : h' ≠ h) : (s.mscEmpty h p).mscOf h' = s.mscOf h' :=
  (State.mscOf_setMsc_ne _ _ hne).trans (s.mscOf_mscClean_ne p hne)

theorem mem_slicesOf (h : Slice) (b : BDie) : h ∈ slicesOf b ↔ Slice.bdie h = b := by
  simp only [slicesOf, List.mem_map, List.mem_range, Slice.bdie, Fin.ext_iff, Fin.val_ofNat]
  exact ⟨fun ⟨i, hi, heq⟩ => by omega, fun heq => ⟨h.val % 16, by omega, by omega⟩⟩

/-- A command on slices, each of which it treats alone and the second time as the first, treats those of its list and leaves the
others. -/
theorem State.mscOf_foldl {f : State → Slice → State} {g : List MscLine → List MscLine} (hidem : ∀ l, g (g l) = g l)
    (hself : ∀ s h, (f s h).mscOf h = g (s.mscOf h)) (hne : ∀ s h h', h' ≠ h → (f s h).mscOf h' = s.mscOf h')
    (hs : List Slice) (s : State) (h : Slice) : (hs.foldl f s).mscOf h = if h ∈ hs then g (s.mscOf h) else s.mscOf h := by
  induction hs generalizing s with
  | nil => simp
  | cons k hs ih =>
    rw [List.foldl_cons, ih]
    by_cases hk : h = k
    · subst hk
      simp [hself, hidem]
    · simp [hk, hne s k h hk]

theorem exec_mscFlush (b : BDie) : ∃ t, exec (.mscFlush b) s = .next t ∧ ∀ h, t.mscOf h =
    if h ∈ slicesOf b then (s.mscOf h).map fun l => { l with dirty := false } else s.mscOf h :=
  ⟨_, rfl, State.mscOf_foldl (f := fun s h => s.mscClean h fun _ => true) (g := List.map fun l => { l with dirty := false })
    (fun _ => by simp) (fun s h => by simp [State.mscOf_mscClean]) (fun s h h' hne => s.mscOf_mscClean_ne _ hne) _ s⟩

theorem exec_mscInvalidate (b : BDie) : ∃ t, exec (.mscInvalidate b) s = .next t ∧ ∀ h, t.mscOf h =
    if h ∈ slicesOf b then [] else s.mscOf h :=
  ⟨_, rfl, State.mscOf_foldl (f := fun s h => s.mscEmpty h fun _ => true) (g := fun _ => []) (fun _ => rfl)
    (fun s h => by simp [State.mscOf_mscEmpty]) (fun s h h' hne => s.mscOf_mscEmpty_ne _ hne) _ s⟩

/-- The spare way that replaces a way of a slice, if one is left: 24, then 25. -/
def State.spareWay (s : State) (h : Slice) : Option Nat :=
  let r := rg .mscWays h.val
  if s.fget r 25 25 = 1 || decide (((List.range 26).filter fun w => s.fget r w w = 1).length < 24) then none
  else if s.fget r 24 24 = 1 then some 25 else some 24

/-- The ways of a slice after one has been taken out of use and its spare, if there is one, has come into use; with the record and
the entry of the ledger. -/
def State.wayReplaced (s : State) (h : Slice) (way : Nat) (spare : Option Nat) : State :=
  let r := rg .mscWays h.val
  let b := Slice.bdie h
  let t := (s.logErr (BDie.die b) { cls := 0x08, index := BitVec.ofNat 16 h.val, action := (if spare.isSome then 0x05 else 0x04)
                                    syndrome := BitVec.ofNat 64 way }).fset r way way 0
  let t := match spare with
    | some w => (t.fset r w w 1).bump (rg .mscStatus b.val) 21 16 1
    | none => t.setDegraded 6 true
  t.ledger ⟨0x05, BitVec.ofNat 5 (12 + b.val), BitVec.ofNat 16 h.val, BitVec.ofNat 16 way,
    if spare.isSome then 2 else 1, 3, BitVec.ofNat 8 (spare.getD 0), t.flash.coldStarts, t.time (BDie.die b),
    (s.die (BDie.die b)).errSeq⟩

theorem exec_mscWayReplace (way : Fin 26) (huse : s.fget (rg .mscWays h.val) way.val way.val = 1) :
    exec (.mscWayReplace h way) s =
      .next ((s.mscEmpty h (·.way = way.val)).wayReplaced h way.val (s.spareWay h)) := by
  have hspare : (s.mscEmpty h (·.way = way.val)).spareWay h = s.spareWay h := by
    simp only [State.spareWay, State.fget_congr s (s.mscEmpty_regs h (·.way = way.val))]
  rw [← hspare]
  exact congrArg Host.Outcome.next (if_neg (by rw [huse]; decide))

theorem State.wayReplaced_msc (way : Nat) (spare : Option Nat) : (s.wayReplaced h way spare).msc = s.msc := by
  cases spare <;> simp [State.wayReplaced]

theorem State.fget_wayReplaced_spare {way w : Nat} (hway : way < 64) (hw : w < 64) (hne : w ≠ way) :
    (s.wayReplaced h way (some w)).fget (rg .mscWays h.val) way way = 0 ∧
    (s.wayReplaced h way (some w)).fget (rg .mscWays h.val) w w = 1 := by
  have hwaysStatus : rg .mscWays h.val ≠ rg .mscStatus (Slice.bdie h).val := rg_ne (by decide)
  simp only [State.wayReplaced, State.fget_congr _ (State.ledger_regs ..), State.fget_bump_ne _ _ hwaysStatus]
  constructor
  · rw [State.fget_fset_of_disjoint _ _ (Nat.le_refl w) hw (by omega), State.fget_fset_self _ _ (Nat.le_refl way) hway,
      Nat.zero_mod]
  · rw [State.fget_fset_self _ _ (Nat.le_refl w) hw, Nat.add_sub_cancel_left]
    rfl

theorem State.fget_wayReplaced_none {way : Nat} (hway : way < 64) :
    (s.wayReplaced h way none).fget (rg .mscWays h.val) way way = 0 ∧
    (s.wayReplaced h way none).fget (rg .errStatus) 6 6 = 1 := by
  have hwaysErr : rg .mscWays h.val ≠ rg .errStatus := rg_ne (by decide)
  simp only [State.wayReplaced, State.fget_congr _ (State.ledger_regs ..), State.fget_setDegraded_ne _ _ _ _ _ hwaysErr]
  exact ⟨by rw [State.fget_fset_self _ _ (Nat.le_refl way) hway, Nat.zero_mod], State.fget_setDegraded _ (by decide)⟩

end

/-! ## Access counters (R405 to R407) -/

section
variable (s : State)

theorem State.homeWrite_cntCache (a : Nat) (bs : List W8) : (s.homeWrite a bs).cntCache = s.cntCache :=
  (congrArg State.cntCache (s.homeFrame_homeWrite a bs) :)

/-- One word of the table changed where it is held (R407). -/
def State.sweepWord (g : Nat → Nat) (s : State) (n : Nat) : State :=
  s.homeWrite (s.cntAddr n) (leBytes 2 (g (leNat (s.homeBytes (s.cntAddr n) 2))))

theorem State.cntCache_foldl_sweepWord (g : Nat → Nat) (l : List Nat) :
    (l.foldl (State.sweepWord g) s).cntCache = s.cntCache :=
  foldl_keeps (P := fun t : State => t.cntCache = s.cntCache) (State.sweepWord g) l s rfl
    fun t _ h => (t.homeWrite_cntCache ..).trans h

/-- A sweep changes the words of the table, and those that the home slices hold. -/
theorem State.sweep_eq (g : Nat → Nat) : s.sweep g = { s.countedRegions.dedup.foldl (State.sweepWord g) s with
    cntCache := (s.countedRegions.dedup.foldl (State.sweepWord g) s).cntCache.map fun x => (x.1, g x.2) } := rfl

theorem State.sweep_cntCache (g : Nat → Nat) : (s.sweep g).cntCache = s.cntCache.map fun x => (x.1, g x.2) := by
  rw [s.sweep_eq, s.cntCache_foldl_sweepWord]

theorem State.sweep_of_single {n : Nat} (h : s.countedRegions.dedup = [n]) (g : Nat → Nat) : s.sweep g =
    { s.homeWrite (s.cntAddr n) (leBytes 2 (g (leNat (s.homeBytes (s.cntAddr n) 2)))) with
      cntCache := s.cntCache.map fun x => (x.1, g x.2) } := by
  rw [s.sweep_eq, s.cntCache_foldl_sweepWord, h, List.foldl_cons, List.foldl_nil, State.sweepWord]

/-- Two bytes at an even address lie in one line. -/
theorem linesOf_two {a : Nat} (heven : a % 2 = 0) : linesOf a 2 = [(lineOf a, a - lineOf a, 2)] := by
  have hone : (a + 2 - 1) / 128 - a / 128 + 1 = 1 := by omega
  have hlo : max a (lineOf a) = a := by rw [lineOf]; omega
  have hhi : min (a + 2) (lineOf a + 128) = a + 2 := by rw [lineOf]; omega
  rw [linesOf, if_neg (by decide), hone]
  simp only [List.range_one, List.map_cons, List.map_nil, Nat.mul_zero, Nat.add_zero, hlo, hhi, Nat.add_sub_cancel_left]

theorem State.cntAddr_even (n : Nat) : s.cntAddr n % 2 = 0 := by
  rw [State.cntAddr]; omega

/-- A cached word written to the table (R407). -/
def State.flushWord (s : State) (x : Nat × Nat) : State :=
  if (regionOf (s.cntAddr x.1)).coherent then s.homeWrite (s.cntAddr x.1) (leBytes 2 x.2) else s

theorem State.exec_counterFlush : exec .counterFlush s = .next { s.cntCache.foldl State.flushWord s with cntCache := [] } := rfl

theorem State.exec_counterFlush_of_single {n v : Nat} (h : s.cntCache = [(n, v)]) (hregion : regionOf (s.cntAddr n) = .t2) :
    exec .counterFlush s = .next { s.homeWrite (s.cntAddr n) (leBytes 2 v) with cntCache := [] } := by
  rw [s.exec_counterFlush, h, List.foldl_cons, List.foldl_nil, State.flushWord, hregion,
    if_pos (show Region.coherent .t2 = true from rfl)]

theorem State.exec_counterHalve_of_single {n : Nat} (h : s.countedRegions.dedup = [n]) : exec .counterHalve s = .next
    { s.homeWrite (s.cntAddr n) (leBytes 2 (leNat (s.homeBytes (s.cntAddr n) 2) / 2)) with
      cntCache := s.cntCache.map fun x => (x.1, x.2 / 2) } :=
  congrArg Host.Outcome.next (s.sweep_of_single h fun x => x / 2)

theorem State.exec_counterClear_of_single {n : Nat} (h : s.countedRegions.dedup = [n]) : exec .counterClear s = .next
    { s.homeWrite (s.cntAddr n) [0, 0] with cntCache := s.cntCache.map fun x => (x.1, 0) } := by
  have hsweep := s.sweep_of_single h fun _ => 0
  rw [show leBytes 2 0 = [0, 0] from rfl] at hsweep
  exact congrArg Host.Outcome.next hsweep

@[simp] theorem State.peek_setCntCache (c : Tbl Nat Nat) (a n : Nat) : { s with cntCache := c }.peek a n = s.peek a n := rfl

section
variable {a : Nat} {bs : List W8}

/-- Two bytes written at an even address of T2, where the tier answers, are written into their line in memory. -/
theorem State.homeWrite_two_mem (hlen : bs.length = 2) (heven : a % 2 = 0) (hregion : regionOf a = .t2)
    (hanswers : s.tierStatus (lineOf a) = none) (hclean : lineOf a ∉ s.poison) : (s.homeWrite a bs).mem =
      Memory.writeBytes s.mem (lineOf a) (patch (s.peek (lineOf a) 128) (a - lineOf a) bs) := by
  have hbounds := (regionOf_eq_t2_iff a).1 hregion
  have hnum : (BitVec.ofNat 44 (lineOf a)).toNat = lineOf a := by
    rw [BitVec.toNat_ofNat, lineOf]; omega
  have hline : regionOf (lineOf a) = .t2 := (regionOf_eq_t2_iff _).2 (by rw [lineOf]; omega)
  have hbad : s.badAddr (lineOf a) true = false := by simp only [State.badAddr, hline]
  have hpoisoned : s.poisoned (BitVec.ofNat 44 (lineOf a)) = false := by
    simpa only [State.poisoned, hnum, hline, decide_eq_false_iff_not] using hclean
  have hdata : s.lineData (BitVec.ofNat 44 (lineOf a)) = s.peek (lineOf a) 128 := by
    simp only [State.lineData, hnum, hline]
  have hbytes : (bs.drop (lineOf a + (a - lineOf a) - a)).take 2 = bs := by
    rw [show lineOf a + (a - lineOf a) - a = 0 by rw [lineOf]; omega, List.drop_zero, List.take_of_length_le (by omega)]
  rw [State.homeWrite, hlen, linesOf_two heven]
  simp only [List.foldl_cons, List.foldl_nil, hbad, hanswers, hline, hpoisoned, hdata, hbytes, Option.isSome_none, Bool.or_self,
    Bool.false_and, Bool.false_eq_true, if_false, State.storeLine_of_tier (.inl (hnum.symm ▸ hline)), hnum, State.poke]

theorem State.peek_homeWrite_two (hlen : bs.length = 2) (heven : a % 2 = 0) (hregion : regionOf a = .t2)
    (hanswers : s.tierStatus (lineOf a) = none) (hclean : lineOf a ∉ s.poison) (hm : s.memOk) :
    (s.homeWrite a bs).peek a 2 = bs := by
  have hline : lineOf a ≤ a ∧ a - lineOf a + 2 ≤ 128 := by rw [lineOf]; omega
  have hpatch : (patch (s.peek (lineOf a) 128) (a - lineOf a) bs).length = 128 := by rw [length_patch, length_peek]
  refine List.ext_getElem (by rw [length_peek, hlen]) fun i hi hi' => ?_
  have hread := Memory.read_writeBytes_in hm (lineOf a) (a - lineOf a + i) (patch (s.peek (lineOf a) 128) (a - lineOf a) bs)
    (by omega)
  rw [← Nat.add_assoc, Nat.add_sub_cancel' hline.1, getElem_patch, if_pos (by omega), Nat.add_sub_cancel_left,
    List.getD_eq_getElem _ _ hi'] at hread
  simp only [State.peek, List.getElem_map, List.getElem_range]
  rw [s.homeWrite_two_mem hlen heven hregion hanswers hclean, hread]

end

end

/-! ## Quotas (R409, R410) -/

theorem bits_self_eq_one (w : W64) (n : Nat) : bits w n n = 1 ↔ w.getLsbD n = true := by
  have hbit : decide (bits w n n % 2 = 1) = w.getLsbD n := by
    simpa [Nat.testBit_zero] using testBit_bits w (hi := n) (lo := n) 0
  have hlt : bits w n n < 2 := by
    rw [bits, Nat.add_sub_cancel_left]
    exact Nat.mod_lt _ (by decide)
  rw [← hbit, Nat.mod_eq_of_lt hlt, decide_eq_true_eq]

/-- Words that agree under a mask agree in a field that the mask covers. -/
theorem bits_eq_of_and_eq {w v m : W64} {hi lo : Nat} (h : w &&& m = v &&& m)
    (hm : ∀ n, lo ≤ n → n ≤ hi → m.getLsbD n = true) : bits w hi lo = bits v hi lo := by
  refine Nat.eq_of_testBit_eq fun n => ?_
  rw [testBit_bits, testBit_bits]
  by_cases hn : n < hi + 1 - lo
  · have hbit := congrArg (BitVec.getLsbD · (n + lo)) h
    simp only [BitVec.getLsbD_and, hm (n + lo) (by omega) (by omega), Bool.and_true] at hbit
    rw [hbit]
  · simp [hn]

section
variable (s : State) (g : Group) (tier : BitVec 2) (n : BitVec 21) (release : Bool)

theorem bits_chargeWord : bits (chargeWord tier n release) 20 0 = n.toNat ∧ bits (chargeWord tier n release) 22 21 = tier.toNat ∧
    bits (chargeWord tier n release) 23 23 = release.toNat ∧ bits (chargeWord tier n release) 24 24 = 1 := by
  have hn := n.isLt
  have ht := tier.isLt
  cases release <;> simp only [bits, chargeWord, BitVec.toNat_ofNat] <;> simp <;> omega

/-- The register of a group's charges after a charge or release is written to it. -/
def State.charging : State := s.regStore (rg .tierCharge g.val) (BitVec.allOnes 64) (chargeWord tier n release)

theorem State.chargeWrite_eq : s.chargeWrite g (BitVec.allOnes 64) (chargeWord tier n release) =
    (s.charging g tier n release).applyCharge g := by
  obtain ⟨-, -, -, hbit⟩ := bits_chargeWord tier n release
  have hgo := (bits_self_eq_one _ 24).1 hbit
  exact if_pos (by rw [BitVec.allOnes_and, hgo])

theorem State.fget_charging : (s.charging g tier n release).fget (rg .tierCharge g.val) 20 0 = n.toNat ∧
    (s.charging g tier n release).fget (rg .tierCharge g.val) 22 21 = tier.toNat ∧
    (s.charging g tier n release).fget (rg .tierCharge g.val) 23 23 = release.toNat := by
  obtain ⟨hn, htier, hrelease, -⟩ := bits_chargeWord tier n release
  have hmask : (rg .tierCharge g.val).kind.maskOf [.rw] = 0xFFFFFF :=
    show RegKind.tierCharge.maskOf [.rw] = 0xFFFFFF by decide
  have hrw := s.regStore_rw (rg .tierCharge g.val) (chargeWord tier n release)
  rw [hmask] at hrw
  have hfield {hi lo : Nat} (hhi : hi < 24) := bits_eq_of_and_eq (hi := hi) (lo := lo) hrw fun k _ hk => by
    have : k < 24 := by omega
    interval_cases k <;> rfl
  exact ⟨(hfield (by omega)).trans hn, (hfield (by omega)).trans htier, (hfield (by omega)).trans hrelease⟩

theorem State.fget_charging_ne {k : RegKind} (hk : k ≠ .tierCharge) (i hi lo : Nat) :
    (s.charging g tier n release).fget (rg k i) hi lo = s.fget (rg k i) hi lo :=
  congrArg (bits · hi lo) (s.reg_regStore_ne _ _ (rg_ne hk))

/-- The usage of a tier by a group (R409). -/
def State.usage (s : State) (g : Group) (tier : BitVec 2) : Nat :=
  s.fget (rg .tierUsed g.val) (21 * tier.toNat - 1) (21 * (tier.toNat - 1))

/-- The quota of a group in a tier (R409). -/
def State.quota (s : State) (g : Group) (tier : BitVec 2) : Nat :=
  s.fget (rg .tierQuota g.val) (21 * tier.toNat - 1) (21 * (tier.toNat - 1))

theorem State.fget_tierUsed (s : State) (g : Group) (tier : BitVec 2) :
    s.fget (rg .tierUsed g.val) (21 * tier.toNat - 1) (21 * (tier.toNat - 1)) = s.usage g tier := rfl

theorem State.fget_tierQuota (s : State) (g : Group) (tier : BitVec 2) :
    s.fget (rg .tierQuota g.val) (21 * tier.toNat - 1) (21 * (tier.toNat - 1)) = s.quota g tier := rfl

theorem State.drawn_fset (s : State) (r : Reg) (hi lo v : Nat) : s.drawn.fset r hi lo v = (s.fset r hi lo v).drawn := rfl

/-- A charge or release that ends with a result and the usage as it was. -/
def State.refused (s : State) (g : Group) (result : Nat) : State := s.fset (rg .tierCharge g.val) 26 25 result

/-- A charge or release that ends with a usage, and result 1. -/
def State.granted (s : State) (g : Group) (tier : BitVec 2) (u : Nat) : State :=
  (s.fset (rg .tierUsed g.val) (21 * tier.toNat - 1) (21 * (tier.toNat - 1)) u).fset (rg .tierCharge g.val) 26 25 1

section
variable {s g tier n} (htier : tier ≠ 0)
include htier

/-- What a charge or a release of a tier does, by the usage and the quota (R410). -/
theorem State.chargeWrite_of_tier : s.chargeWrite g (BitVec.allOnes 64) (chargeWord tier n release) =
    let u := s.charging g tier n release
    if release then if s.usage g tier < n.toNat then u.refused g 3 else u.granted g tier (s.usage g tier - n.toNat)
    else if s.quota g tier ≠ 0x1FFFFF ∧ s.quota g tier < s.usage g tier + n.toNat then u.refused g 2
    else if s.usage g tier + n.toNat < 2 ^ 21 then u.granted g tier (s.usage g tier + n.toNat)
    else (u.granted g tier u.freeVal.toNat).drawn := by
  obtain ⟨hn, ht, hrelease⟩ := s.fget_charging g tier n release
  have hne : tier.toNat ≠ 0 := by simpa [BitVec.toNat_eq] using htier
  rw [State.chargeWrite_eq, State.applyCharge]
  dsimp only
  rw [hn, ht, hrelease, if_neg hne, s.fget_charging_ne g tier n release (k := .tierUsed) (by decide),
    s.fget_charging_ne g tier n release (k := .tierQuota) (by decide), State.fget_tierUsed, State.fget_tierQuota,
    State.drawn_fset]
  cases release
  · rw [if_neg (show ¬ false.toNat = 1 by decide), if_neg Bool.false_ne_true]
    rfl
  · rw [if_pos (show true.toNat = 1 by decide), if_pos rfl]
    rfl

theorem exec_tierCharge_granted (hquota : ¬ (s.quota g tier ≠ 0x1FFFFF ∧ s.quota g tier < s.usage g tier + n.toNat))
    (hfits : s.usage g tier + n.toNat < 2 ^ 21) : exec (.tierCharge g tier n) s =
      .next ((s.charging g tier n false).granted g tier (s.usage g tier + n.toNat)) := by
  refine congrArg Host.Outcome.next ((State.chargeWrite_of_tier false htier).trans ?_)
  dsimp only
  rw [if_neg Bool.false_ne_true, if_neg hquota, if_pos hfits]

theorem exec_tierCharge_refused (hquota : s.quota g tier ≠ 0x1FFFFF ∧ s.quota g tier < s.usage g tier + n.toNat) :
    exec (.tierCharge g tier n) s = .next ((s.charging g tier n false).refused g 2) := by
  refine congrArg Host.Outcome.next ((State.chargeWrite_of_tier false htier).trans ?_)
  dsimp only
  rw [if_neg Bool.false_ne_true, if_pos hquota]

theorem exec_tierRelease_granted (h : n.toNat ≤ s.usage g tier) : exec (.tierRelease g tier n) s =
    .next ((s.charging g tier n true).granted g tier (s.usage g tier - n.toNat)) := by
  refine congrArg Host.Outcome.next ((State.chargeWrite_of_tier true htier).trans ?_)
  dsimp only
  rw [if_pos rfl, if_neg (Nat.not_lt.2 h)]

theorem exec_tierRelease_refused (h : s.usage g tier < n.toNat) :
    exec (.tierRelease g tier n) s = .next ((s.charging g tier n true).refused g 3) := by
  refine congrArg Host.Outcome.next ((State.chargeWrite_of_tier true htier).trans ?_)
  dsimp only
  rw [if_pos rfl, if_pos h]

theorem State.usage_granted {u : Nat} (h : u < 2 ^ 21) :
    (s.granted g tier u).usage g tier = u ∧ (s.granted g tier u).fget (rg .tierCharge g.val) 26 25 = 1 := by
  have hne : tier.toNat ≠ 0 := by simpa [BitVec.toNat_eq] using htier
  have hlt := tier.isLt
  refine ⟨?_, State.fget_fset_self _ _ (by decide) (by decide)⟩
  rw [State.usage, State.granted, State.fget_fset_ne _ _ (rg_ne (by decide)), State.fget_fset_self _ _ (by omega) (by omega),
    show 21 * tier.toNat - 1 + 1 - 21 * (tier.toNat - 1) = 21 by omega, Nat.mod_eq_of_lt h]

end

theorem State.usage_charging : (s.charging g tier n release).usage g tier = s.usage g tier :=
  s.fget_charging_ne g tier n release (by decide) ..

theorem State.usage_refused {result : Nat} (h : result < 4) :
    ((s.charging g tier n release).refused g result).usage g tier = s.usage g tier ∧
    ((s.charging g tier n release).refused g result).fget (rg .tierCharge g.val) 26 25 = result :=
  ⟨(State.fget_fset_ne _ _ (rg_ne (by decide))).trans (s.usage_charging g tier n release),
    (State.fget_fset_self _ _ (by decide) (by decide)).trans (Nat.mod_eq_of_lt h)⟩

/-- The usage of a tier lies in its field (R409). -/
theorem State.usage_lt (htier : tier ≠ 0) : s.usage g tier < 2 ^ 21 := by
  have hne : tier.toNat ≠ 0 := by simpa [BitVec.toNat_eq] using htier
  rw [State.usage, State.fget, bits, show 21 * tier.toNat - 1 + 1 - 21 * (tier.toNat - 1) = 21 by omega]
  exact Nat.mod_lt _ (by decide)

end

end Sys2Proof.Machine

namespace Sys2Proof.Proofs

open Sys2Proof.Machine

/-- Settles O42: each command of the cache treats the slices of its die alone, a sweep or a flush writes words at their homes, and
a charge writes the fields of its group. -/
theorem countersAndQuotas : Obligations.CountersAndQuotas := by
  unfold Obligations.CountersAndQuotas
  refine ⟨fun b h s => ?cache, fun h way s => ?way, fun s => ⟨_, rfl, rfl⟩,
    fun s n v hcached hregion hanswers hclean hm => ?flush,
    fun s => ⟨⟨_, rfl, s.sweep_cntCache _⟩, ⟨_, rfl, s.sweep_cntCache _⟩⟩, fun s n hone => ?single,
    fun g tier n s htier => ?charge⟩
  case cache =>
    obtain ⟨t, hflush, hclean⟩ := exec_mscFlush s b
    obtain ⟨u, hinvalidate, hempty⟩ := exec_mscInvalidate s b
    refine ⟨fun hb => ?_, fun hb => ?_⟩
    · have hmem := (mem_slicesOf h b).2 hb
      exact ⟨⟨t, hflush, (hclean h).trans (if_pos hmem)⟩, ⟨u, hinvalidate, (hempty h).trans (if_pos hmem)⟩⟩
    · have hmem := mt (mem_slicesOf h b).1 hb
      exact ⟨⟨t, hflush, (hclean h).trans (if_neg hmem)⟩, ⟨u, hinvalidate, (hempty h).trans (if_neg hmem)⟩⟩
  case way =>
    dsimp only
    intro huse
    have hexec := exec_mscWayReplace s way huse
    have hway : way.val < 64 := by omega
    refine ⟨⟨_, hexec, fun l hl => ?_⟩, fun hfull h24 h25 => ?_, fun hfull h24 h25 => ?_, fun h25 => ?_⟩
    · rw [State.mscOf_congr (State.wayReplaced_msc ..), State.mscOf_mscEmpty] at hl
      simpa using (List.mem_filter.1 hl).2
    · have hne : 24 ≠ way.val := fun h => by rw [← h, h24] at huse; cases huse
      have hspare : s.spareWay h = some 24 := by simp [State.spareWay, h24, h25, hfull]
      rw [hspare] at hexec
      exact ⟨_, hexec, State.fget_wayReplaced_spare _ hway (by decide) hne⟩
    · have hne : 25 ≠ way.val := fun h => by rw [← h, h25] at huse; cases huse
      have hspare : s.spareWay h = some 25 := by simp [State.spareWay, h24, h25, hfull]
      rw [hspare] at hexec
      exact ⟨_, hexec, State.fget_wayReplaced_spare _ hway (by decide) hne⟩
    · have hspare : s.spareWay h = none := by simp [State.spareWay, h25]
      rw [hspare] at hexec
      exact ⟨_, hexec, State.fget_wayReplaced_none _ hway⟩
  case flush =>
    exact .intro (s.exec_counterFlush_of_single hcached hregion) ((State.peek_setCntCache ..).trans
      (s.peek_homeWrite_two (length_leBytes 2 v) (s.cntAddr_even n) hregion hanswers hclean hm))
  case single =>
    exact ⟨s.exec_counterHalve_of_single hone, s.exec_counterClear_of_single hone⟩
  case charge =>
    simp only [State.fget_tierUsed, State.fget_tierQuota]
    refine ⟨fun hfits hquota => ?_, fun hquota hover => ?_, fun hle => ?_, fun hbelow => ?_⟩
    · have hwithin : ¬ (s.quota g tier ≠ 0x1FFFFF ∧ s.quota g tier < s.usage g tier + n.toNat) := by
        rintro ⟨hne, hover⟩
        exact hquota.elim hne (Nat.not_le.2 hover)
      exact .intro (exec_tierCharge_granted htier hwithin hfits) (State.usage_granted htier hfits)
    · exact .intro (exec_tierCharge_refused htier ⟨hquota, hover⟩) (s.usage_refused g tier n false (by decide))
    · exact .intro (exec_tierRelease_granted htier hle)
        (State.usage_granted htier (Nat.lt_of_le_of_lt (Nat.sub_le ..) (s.usage_lt g tier htier)))
    · exact .intro (exec_tierRelease_refused htier hbelow) (s.usage_refused g tier n true (by decide))

end Sys2Proof.Proofs
end

section
/-! SUPPORT and PROOF of the page walks, the fault records and the invalidations: what the end of a walk leaves of the TLBs and of
its context, what a record's writing and its resolution leave, and what an invalidation removes. -/

namespace Sys2Proof.Machine

/-! ## Walks that end in a leaf (R379, R383, R390) -/

theorem mem_tlbAdd (cap draw : Nat) (t : Trans) (l : List Trans) : t ∈ tlbAdd cap draw t l := by
  unfold tlbAdd
  split <;> simp

section
variable (s : State)

@[simp] theorem State.die_updDie (d : Die) (g : DieSt → DieSt) : (s.updDie d g).die d = g (s.die d) := s.die_setDie d _

@[simp] theorem State.installTrans_walks (r : Requester) (t : Trans) : (s.installTrans r t).walks = s.walks := by
  cases r <;> exact rfl

theorem State.mem_tlb_installTrans (r : Requester) (t : Trans) : t ∈ ((s.installTrans r t).die (tlbDie r)).tlb := by
  unfold State.installTrans
  dsimp only
  rw [State.die_updDie]
  exact mem_tlbAdd ..

@[simp] theorem State.unpark_walks (w : Walk) : (s.unpark w).walks = s.walks := by
  unfold State.unpark
  split
  next => split <;> rfl
  next => rfl

@[simp] theorem State.unpark_dies (w : Walk) : (s.unpark w).dies = s.dies := by
  unfold State.unpark
  split
  next => split <;> rfl
  next => rfl

theorem State.parked_unpark {w : Walk} {c : Cx} (hr : w.r = .ctx c) (hb : w.background = false) :
    ((s.unpark w).ctx c).parked = false := by
  simp only [State.unpark, hr, hb, Bool.false_eq_true, if_false, State.ctx_updCtx]
  split
  next => rfl
  next h => exact Bool.eq_false_iff.2 h

variable {s} {r : Requester} {w : Walk} {es : List WalkEntry}

theorem requester_of_find {l : List Walk} (hw : l.find? (fun w => w.r = r && w.record.isNone) = some w) : w.r = r := by
  have hfound := List.find?_some hw
  rw [Bool.and_eq_true, decide_eq_true_eq] at hfound
  exact hfound.1

/-- The state after a walk has read its entries. -/
def State.walked (s : State) (es : List WalkEntry) : State :=
  { s with walkCache := addEntries s.draws es s.walkCache, draws := s.draws + 5 }

/-- The state after a walk has found its leaf. -/
def State.walkFound (s : State) (r : Requester) (w : Walk) (tr : Trans) : State :=
  ({ s with walks := s.walks.filter (· ≠ w) }.installTrans r tr).unpark w

theorem exec_pageWalk_leaf {tr : Trans} {pte : PAddr} {old v : W64}
    (hw : s.walks.find? (fun w => w.r = r && w.record.isNone) = some w)
    (hend : s.walkAll (walkDie r w.root) w.root w.va w.acc = (.leaf tr pte old v, es)) :
    exec (.pageWalk r) s = .next (((s.walked es).setAD pte old v).walkFound r w tr) := by
  refine congrArg Host.Outcome.next ?_
  simp only [hw, hend]
  rfl

/-! ## Walks that fault (R390 to R394) -/

theorem exec_pageWalk_fault {cause : BitVec 3} {level : BitVec 2} {entry : W64}
    (hw : s.walks.find? (fun w => w.r = r && w.record.isNone) = some w)
    (hend : s.walkAll (walkDie r w.root) w.root w.va w.acc = (.fault cause level entry, es))
    (hpriv : cause = 5 → s.privReq r = false) : exec (.pageWalk r) s =
      .next ((s.walked es).walkFault w cause level entry) := by
  have hstall : ¬ (decide (cause = 5) && (s.walked es).privReq r) = true := by
    rw [Bool.and_eq_true, decide_eq_true_eq]
    rintro ⟨hcause, hstalls⟩
    exact Bool.false_ne_true ((hpriv hcause).symm.trans hstalls)
  refine congrArg Host.Outcome.next ?_
  simp only [hw, hend]
  exact if_neg hstall

@[simp] theorem State.park_faults (s : State) (w : Walk) : (s.park w).faults = s.faults := by
  unfold State.park
  split
  next => split <;> rfl
  next => rfl

@[simp] theorem State.park_nextFault (s : State) (w : Walk) : (s.park w).nextFault = s.nextFault := by
  unfold State.park
  split
  next => split <;> rfl
  next => rfl

theorem State.ctx_park {c : Cx} (hr : w.r = .ctx c) (hb : w.background = false) : (s.park w).ctx c =
    { s.ctx c with parked := true, st := .waiting, wait := some .ocmiss } := by
  simp only [State.park, hr, hb, Bool.false_eq_true, if_false]
  exact s.ctx_updCtx c fun k => { k with parked := true, st := .waiting, wait := some .ocmiss }

/-- A fault with no record of its key and room in its table opens a record (R391, R392). -/
theorem State.walkFault_opens {cause : BitVec 3} {level : BitVec 2} {entry : W64}
    (hnew : ∀ f ∈ s.faults, faultDie f.opener.va = faultDie w.va → f.sameKey w level = false)
    (hroom : (s.faults.filter fun f => faultDie f.opener.va = faultDie w.va).length < 64) : s.walkFault w cause level entry =
      State.park { s.setWalk w { w with record := some s.nextFault } with
        faults := s.faults ++ [⟨s.nextFault, w, cause, level, entry, [w.r], 0, s.time (BDie.die (faultDie w.va)), false⟩]
        nextFault := s.nextFault + 1 } w := by
  have hnone : s.faults.find? (fun f => decide (faultDie f.opener.va = faultDie w.va) && f.sameKey w level) = none := by
    refine List.find?_eq_none.2 fun f hf h => ?_
    rw [Bool.and_eq_true, decide_eq_true_eq] at h
    rw [hnew f hf h.1] at h
    exact Bool.false_ne_true h.2
  simp only [State.walkFault, hnone, if_neg (Nat.not_le.2 hroom)]

/-! ## Records written (R392, R393) -/

@[simp] theorem State.msi_regs (s : State) (a : W64) (d : W32) : (s.msi a d).regs = s.regs := by
  unfold State.msi; split <;> rfl

@[simp] theorem State.msi_faults (s : State) (a : W64) (d : W32) : (s.msi a d).faults = s.faults := by
  unfold State.msi; split <;> rfl

@[simp] theorem State.physWrite_faults (s : State) (pa : PAddr) (bs : List W8) : (s.physWrite pa bs).faults = s.faults :=
  (congrArg State.faults (s.homeFrame_physWrite pa bs) :)

/-- A record written into a queue raises the queue's count. -/
theorem State.fget_queueRecord (s : State) (base head tail msi : Reg) (bs : List W8) :
    (s.queueRecord base head tail msi bs).fget head 31 0 = (s.fget head 31 0 + 1) % 2 ^ 32 :=
  (State.fget_congr _ (State.msi_regs ..)).trans (State.fget_fset_self _ _ (by decide) (by decide))

@[simp] theorem State.queueRecord_faults (s : State) (base head tail msi : Reg) (bs : List W8) :
    (s.queueRecord base head tail msi bs).faults = s.faults :=
  (State.msi_faults ..).trans (State.physWrite_faults ..)

theorem exec_faultRecordPost {b : BDie} {f : FaultRec}
    (hf : s.faults.find? (fun f => faultDie f.opener.va = b && !f.posted) = some f)
    (hdue : 1000 ≤ (s.time (BDie.die b) - f.at_).toNat) (hroom : s.eqRoom = true) : exec (.faultRecordPost b) s =
      .next (State.eqRecord { s with
        faults := s.faults.map fun x => if x.id = f.id then { x with posted := true } else x } f.bytes) := by
  refine congrArg Host.Outcome.next ?_
  simp only [hf]
  exact if_neg (by rw [hroom, decide_eq_false (Nat.not_lt.2 hdue)]; decide)

/-! ## Records resolved (R395, R397) -/

theorem State.resolveErr_sets (s : State) : s.resolveErr.fget (rg .xltStatus) 56 56 = 1 :=
  State.fget_fset_self _ _ (by decide) (by decide)

theorem exec_resolve_unknown {id : W32} (h : s.faults.any (·.id = id) = false) :
    exec (.resolveRetry id) s = .next s.resolveErr ∧ exec (.resolveFail id) s = .next s.resolveErr :=
  ⟨congrArg Host.Outcome.next (if_pos (by rw [h]; rfl)), congrArg Host.Outcome.next (if_pos (by rw [h]; rfl))⟩

theorem exec_resolveRetry_known {id : W32} (h : s.faults.any (·.id = id) = true) : exec (.resolveRetry id) s = .next { s with
    faults := s.faults.filter (·.id ≠ id)
    walks := s.walks.map fun w => if w.record = some id then { w with record := none } else w } :=
  congrArg Host.Outcome.next (if_neg (by rw [h]; decide))

/-- The failure of a record that one access of a context waits in raises its exception there. -/
theorem exec_resolveFail_own {id : W32} {c : Cx} (h : s.faults.any (·.id = id) = true)
    (hone : s.walks.filter (·.record = some id) = [w]) (hr : w.r = .ctx c) (hb : w.background = false) :
    exec (.resolveFail id) s = .next (({ s with
      faults := s.faults.filter (·.id ≠ id)
      walks := s.walks.filter (·.record ≠ some id) }.updCtx c fun k => { k with parked := false }).raise c .access
        (s.ctx c).pc w.va (id.setWidth 64)) := by
  refine congrArg Host.Outcome.next ((if_neg (by rw [h]; decide)).trans ?_)
  simp only [hone, hb, hr, List.filter_cons, List.filter_nil, Bool.not_false, Bool.and_self, Bool.not_true, Bool.false_eq_true,
    if_false, if_true, List.append_nil, List.foldl_cons, List.foldl_nil]
  rfl

/-! ## Invalidations (R386 to R389) -/

/-- A table read after every value of it is changed. -/
theorem Tbl.get_map_snd {κ α : Type} [DecidableEq κ] {d : α} {f : α → α} (hd : f d = d) (t : Tbl κ α) (k : κ) :
    Tbl.get d (t.map fun x => (x.1, f x.2)) k = f (Tbl.get d t k) := by
  induction t with
  | nil => exact hd.symm
  | cons e t ih =>
    by_cases he : e.1 = k
    · simp [Tbl.get, he]
    · simp [Tbl.get, he, ih]

/-- Whether an invalidation by the registers of a state leaves a translation (R389). -/
def State.keeps (s : State) (t : Trans) : Bool :=
  !invMatches (s.reg (rg .xltInvCmd)) (s.reg (rg .xltInvVa)) t.asid t.global t.va.toNat t.size

theorem State.core_startInval (s : State) (lc : LC) : s.startInval.core lc = { s.core lc with
    tlb := (s.core lc).tlb.filter s.keeps
    oc := if bits (s.reg (rg .xltInvCmd)) 18 18 = 1 then [] else (s.core lc).oc } :=
  Tbl.get_map_snd (f := fun k : Core => { k with
    tlb := k.tlb.filter s.keeps, oc := if bits (s.reg (rg .xltInvCmd)) 18 18 = 1 then [] else k.oc })
    (by simp only [List.filter_nil, ite_self]) s.cores lc

theorem State.die_startInval (s : State) (d : Die) : s.startInval.die d = { s.die d with tlb := (s.die d).tlb.filter s.keeps } :=
  Tbl.get_map_snd (f := fun k : DieSt => { k with tlb := k.tlb.filter s.keeps }) rfl s.dies d

theorem State.fget_startInval (s : State) : s.startInval.fget (rg .xltInvCmd) 32 32 = 1 :=
  State.fget_fset_self _ _ (by decide) (by decide)

/-- A write of `XLT_INV_CMD` with go starts an invalidation, or is held behind one (R386, R388). -/
theorem exec_invalidation (cmd : W64) : exec (.invalidation cmd) s = .next (if s.inval.isSome
    then { s with invalHeld := s.invalHeld ++ [(.xltInvCmd, BitVec.allOnes 64, cmd ||| 0x80000000)] }
    else (s.regStore (rg .xltInvCmd) (BitVec.allOnes 64) (cmd ||| 0x80000000)).startInval) := by
  have hgo : (BitVec.allOnes 64 &&& (cmd ||| 0x80000000)).getLsbD 31 = true := by
    rw [BitVec.allOnes_and, BitVec.getLsbD_or, show (0x80000000 : W64).getLsbD 31 = true by decide, Bool.or_true]
  refine congrArg Host.Outcome.next ?_
  unfold State.invWrite
  simp only [hgo]
  rfl

/-- An invalidation with nothing left to wait for, and no write held behind it, ends (R386). -/
theorem exec_invalidationComplete {x : Inval} (hx : s.inval = some x) (hheld : s.invalHeld = [])
    (hwrites : x.writes.any s.underWay.writes.contains = false) (hloads : x.loads.any s.underWay.loads.contains = false) :
    exec .invalidationComplete s =
      .next { s.fset (rg .xltInvCmd) 32 32 0 with inval := none, invalHeld := [] } := by
  refine congrArg Host.Outcome.next ?_
  simp only [hx, hwrites, hloads, hheld, List.foldl_nil]
  rfl

end

end Sys2Proof.Machine

namespace Sys2Proof.Proofs

open Sys2Proof.Machine

/-- Settles O41: a walk's end is read off its leaf or fault, a record's number and its requesters off the list of records, and an
invalidation removes what it matches from every table of translations. -/
theorem walksFaultsAndInvalidations : Obligations.WalksFaultsAndInvalidations := by
  unfold Obligations.WalksFaultsAndInvalidations
  refine ⟨fun r s w tr pte old v es hw hend => ?leaf, fun r s w cause level entry es hw hend hpriv hnew hroom => ?fault,
    fun b s f hf hdue hroom => ?post, fun id s h => ?unknown,
    fun id s h => ⟨exec_resolveRetry_known h, fun w c hone hr hb => ?own⟩,
    fun cmd s h => ?starts, fun cmd s h => ?held, fun s x hx hheld hwrites hloads => ?ends⟩
  case leaf =>
    have hr := requester_of_find hw
    refine .intro (exec_pageWalk_leaf hw hend) ⟨?_, ?_, fun c hc hb => State.parked_unpark _ (hr.trans hc) hb⟩
    · rw [State.walkFound, State.unpark_walks, State.installTrans_walks]
      exact fun hmem => of_decide_eq_true (List.mem_filter.1 hmem).2 rfl
    · rw [State.walkFound, State.die, State.unpark_dies]
      exact State.mem_tlb_installTrans ..
  case fault =>
    have hr := requester_of_find hw
    refine .intro ((exec_pageWalk_fault hw hend hpriv).trans (congrArg _ (State.walkFault_opens hnew hroom)))
      ⟨?_, ?_, fun c hc hb => ?_⟩
    · rw [State.park_faults, hr]
      rfl
    · exact State.park_nextFault ..
    · rw [State.ctx_park (hr.trans hc) hb]
      exact ⟨rfl, rfl⟩
  case post =>
    exact .intro (exec_faultRecordPost hf hdue hroom) ⟨State.fget_queueRecord .., State.queueRecord_faults ..⟩
  case unknown =>
    obtain ⟨hretry, hfail⟩ := exec_resolve_unknown h
    exact ⟨.intro hretry ⟨s.resolveErr_sets, rfl⟩, .intro hfail ⟨s.resolveErr_sets, rfl⟩⟩
  case own => exact exec_resolveFail_own h hone hr hb
  case starts =>
    dsimp only
    refine .intro ((exec_invalidation cmd).trans (congrArg _ (if_neg (by rw [h]; decide))))
      ⟨rfl, State.fget_startInval _, fun lc => ?_, fun d => ?_, fun lc => ?_⟩
    · rw [State.core_startInval]
      rfl
    · rw [State.die_startInval]
      rfl
    · rw [State.core_startInval]
      simp only [bits_self_eq_one]
      rfl
  case held => exact (exec_invalidation cmd).trans (congrArg _ (if_pos h))
  case ends =>
    exact .intro (exec_invalidationComplete hx hheld hwrites hloads) ⟨rfl, State.fget_fset_self _ _ (by decide) (by decide)⟩

end Sys2Proof.Proofs
end

section
/-! SUPPORT of the endpoint link: what the engines that run on their own, and the ends of their descriptors, leave of the
endpoint. -/

namespace Sys2Proof.Machine

/-! ## The endpoint (R496, R498, R667, R739) -/

/-- The endpoint port and the engines that its loss stops: whether its link is up, whether it is ready for training, whether perst
is asserted, and whether each copy engine is stopped. -/
structure EndpointView where
  up : Bool
  ready : Bool
  perst : Bool
  stopped : CopyEng → Bool

/-- The endpoint as a state has it. -/
def State.endpoint (s : State) : EndpointView := ⟨s.host.epUp, s.host.epReady, s.pins.perst, fun e => (s.ce e).stopped⟩

theorem endpoint_of_eq {α : Type} {x : State × α} {t : State} {b : α} {v : EndpointView} (h : x.1.endpoint = v)
    (hx : x = (t, b)) : t.endpoint = v := by
  rw [hx] at h
  exact h

theorem endpoint_ite {p : Prop} [Decidable p] {s t : State} {v : EndpointView} (hs : s.endpoint = v) (ht : t.endpoint = v) :
    (if p then s else t).endpoint = v := by
  split
  next => exact hs
  next => exact ht

section
variable (s : State) {t : State}

theorem State.HomeFrame.endpoint {s : State} (h : s.HomeFrame t) : t.endpoint = s.endpoint := (congrArg State.endpoint h :)

@[simp] theorem State.fset_endpoint (r : Reg) (hi lo v : Nat) : (s.fset r hi lo v).endpoint = s.endpoint := rfl
@[simp] theorem State.bump_endpoint (r : Reg) (hi lo n : Nat) : (s.bump r hi lo n).endpoint = s.endpoint := rfl
@[simp] theorem State.emit_endpoint (m : OutMsg) : (s.emit m).endpoint = s.endpoint := rfl
@[simp] theorem State.drawn_endpoint : s.drawn.endpoint = s.endpoint := rfl
@[simp] theorem State.updCtx_endpoint (c : Cx) (g : Context → Context) : (s.updCtx c g).endpoint = s.endpoint := rfl
@[simp] theorem State.poke_endpoint (a : Nat) (bs : List W8) : (s.poke a bs).endpoint = s.endpoint := rfl

@[simp] theorem State.jAppend_endpoint (c : Cx) (kind slot : Nat) (pc v : W64) :
    (s.jAppend c kind slot pc v).endpoint = s.endpoint := by
  simp only [State.jAppend, State.poke64, State.poke_endpoint]

@[simp] theorem State.msi_endpoint (a : W64) (d : W32) : (s.msi a d).endpoint = s.endpoint := by
  unfold State.msi; split <;> rfl

@[simp] theorem State.logErr_endpoint (d : Die) (e : ErrRec) : (s.logErr d e).endpoint = s.endpoint :=
  (congrArg State.endpoint (s.logErr_eq d e) :)

@[simp] theorem State.storeLine_endpoint (a : LAddr) (h : Hint) (d : List W8) : (s.storeLine a h d).endpoint = s.endpoint :=
  (s.homeFrame_storeLine a h d).endpoint

@[simp] theorem State.mscAlloc_endpoint (a : LAddr) (age : Nat) (keep dirty last : Bool) (d : List W8) :
    (s.mscAlloc a age keep dirty last d).endpoint = s.endpoint := (s.homeFrame_mscAlloc a age keep dirty last d).endpoint

@[simp] theorem State.physWrite_endpoint (pa : PAddr) (bs : List W8) : (s.physWrite pa bs).endpoint = s.endpoint :=
  (s.homeFrame_physWrite pa bs).endpoint

@[simp] theorem State.spdTouch_endpoint (a n : Nat) : (s.spdTouch a n).endpoint = s.endpoint :=
  s.spdTouch_keeps (P := fun t => t.endpoint = s.endpoint) a n (fun _ _ h => h) (fun t _ _ _ _ _ _ _ h => by simpa using h) rfl

/-! ## Engines' accesses (R322, R360, R370) -/

theorem State.countAccess_endpoint (a : LAddr) : (s.countAccess a).endpoint = s.endpoint := by
  unfold State.countAccess
  dsimp only
  split
  next => rfl
  next =>
    split
    next => rfl
    next =>
      split
      next => rfl
      next => exact (State.msi_endpoint ..).trans (State.physWrite_endpoint ..)

theorem State.loadLine_endpoint (a : LAddr) (h : Hint) (held fromStack : Bool) :
    (s.loadLine a h held fromStack).1.endpoint = s.endpoint := by
  have hhit (x : State × List W8) (hx : s.t1Hit a h held = some x) : x.1.endpoint = s.endpoint := by
    unfold State.t1Hit at hx
    dsimp only at hx
    generalize s.mscHint a _ = h' at hx
    split at hx
    next =>
      split at hx
      next => cases hx; rfl
      next => cases h' <;> (cases hx; rfl)
    next =>
      split at hx
      next => cases hx; rfl
      next => cases hx
  have hfill (d : List W8) : (s.t1Fill a h d).endpoint = s.endpoint := by
    unfold State.t1Fill
    split
    next => exact s.mscAlloc_endpoint ..
    next => exact s.mscAlloc_endpoint ..
    next => rfl
  unfold State.loadLine
  split
  next =>
    split
    next x hx => exact hhit x hx
    next => dsimp only; split <;> [exact hfill _; rfl]
  next => exact s.spdTouch_endpoint ..
  next => rfl


/-- A line counted, as the transaction of its request counts it (R405, R406). -/
def State.counted (s : State) (a : LAddr) (q : HomeReq) : State :=
  let s := match q.kind with | .evict _ => s | _ => s.countAccess a
  if s.needsStack a q then s.bump (rg .mscCount (homeOf a.toNat).val) 63 32 1 else s

theorem State.counted_endpoint (a : LAddr) (q : HomeReq) : (s.counted a q).endpoint = s.endpoint := by
  have hbump (u : State) : (if u.needsStack a q then u.bump (rg .mscCount (homeOf a.toNat).val) 63 32 1 else u).endpoint =
      u.endpoint := by
    split <;> rfl
  refine (hbump _).trans ?_
  split
  next => rfl
  next => exact s.countAccess_endpoint a

theorem State.perform_endpoint (a : LAddr) (q : HomeReq) (held : Bool) : (s.perform a q held).1.endpoint = s.endpoint := by
  have hcounted := s.counted_endpoint a q
  unfold State.counted at hcounted
  unfold State.perform
  dsimp only at hcounted ⊢
  generalize (if State.needsStack _ a q then _ else _ : State) = u at hcounted ⊢
  rw [← hcounted]
  have hread (l : Line) (b : Bool) : (if b then (u.loadLine a q.h held true).1
      else (u.loadLine a q.h held true).1.setLine a l).endpoint = u.endpoint := by
    cases b <;> exact u.loadLine_endpoint ..
  split
  next => exact hread ..
  next => exact hread ..
  next => exact hread ..
  next => exact State.storeLine_endpoint ..
  next =>
    split
    next =>
      refine foldl_keeps (P := fun t : State => t.endpoint = u.endpoint) _ _ u rfl fun t w h => ?_
      split
      next => exact h
      next => exact h
    next =>
      split
      next => rfl
      next => exact u.storeLine_endpoint ..
  next =>
    split
    next => rfl
    next => exact u.storeLine_endpoint ..
  next d _ =>
    cases d with
    | none => rfl
    | some d =>
      dsimp only
      split
      next => exact State.storeLine_endpoint ..
      next => rfl

theorem State.engRead_endpoint (r : Requester) (a : LAddr) (h : Hint) : (s.engRead r a h).1.endpoint = s.endpoint := by
  unfold State.engRead
  dsimp only
  split
  next => rfl
  next =>
    split
    next => rfl
    next =>
      split
      next => rfl
      next =>
        split
        next hx => exact endpoint_of_eq (s.perform_endpoint ..) hx
        next hx => exact endpoint_of_eq (s.perform_endpoint ..) hx

theorem State.engWrite_endpoint (r : Requester) (a : LAddr) (h : Hint) (m : BitVec 128) (d : List W8) :
    (s.engWrite r a h m d).1.endpoint = s.endpoint := by
  unfold State.engWrite
  dsimp only
  generalize (if m = BitVec.allOnes 128 then TxnKind.wrLine d else .wrPart m d) = k
  split
  next => rfl
  next =>
    split
    next => rfl
    next =>
      split
      next => rfl
      next =>
        split
        next hx => exact endpoint_of_eq (s.perform_endpoint ..) hx
        next hx => exact endpoint_of_eq (s.perform_endpoint ..) hx

theorem State.readLine_endpoint (r : Requester) (line : PAddr) (h : Hint) : (s.readLine r line h).1.endpoint = s.endpoint := by
  unfold State.readLine
  split
  next => exact s.engRead_endpoint ..
  next => split <;> rfl

theorem State.writeLine_endpoint (r : Requester) (line : PAddr) (h : Hint) (m : BitVec 128) (d : List W8) :
    (s.writeLine r line h m d).1.endpoint = s.endpoint := by
  unfold State.writeLine
  split
  next => exact s.engWrite_endpoint ..
  next => split <;> rfl

theorem State.gather_endpoint (r : Requester) (h : Hint) (ps : List Piece) (s : State) :
    (s.gather r h ps).1.endpoint = s.endpoint := by
  induction ps generalizing s with
  | nil => rfl
  | cons p ps ih =>
    unfold State.gather
    split
    next t d hx =>
      have ht : t.endpoint = s.endpoint := endpoint_of_eq (s.readLine_endpoint ..) hx
      split
      next hy => exact (endpoint_of_eq (ih t) hy).trans ht
      next => exact (ih t).trans ht
    next hx => exact endpoint_of_eq (s.readLine_endpoint ..) hx

theorem State.scatter_endpoint (r : Requester) (h : Hint) (ps : List Piece) (bs : List W8) (s : State) :
    (s.scatter r h ps bs).1.endpoint = s.endpoint := by
  induction ps generalizing s bs with
  | nil => rfl
  | cons p ps ih =>
    unfold State.scatter
    split
    next t d hx => exact (ih _ t).trans (endpoint_of_eq (s.writeLine_endpoint ..) hx)
    next hx => exact endpoint_of_eq (s.writeLine_endpoint ..) hx

/-! ## The security engine (R644 to R659) -/

@[simp] theorem State.secDone_endpoint (code len : Nat) : (s.secDone code len).endpoint = s.endpoint := rfl
@[simp] theorem State.setSec_endpoint (x : SecSt) : { s with sec := x }.endpoint = s.endpoint := rfl

@[simp] theorem State.extend_endpoint (i : Nat) (d : List W8) : (s.extend i d).endpoint = s.endpoint := rfl
@[simp] theorem State.signReport_endpoint (nonce : List W8) : (s.signReport nonce).1.endpoint = s.endpoint := by
  unfold State.signReport
  exact s.setSec_endpoint _

theorem State.logProgram_endpoint (d : BitVec 512) (label : W32) : (s.logProgram d label).endpoint = s.endpoint := by
  unfold State.logProgram; split <;> rfl

theorem State.logWeight_endpoint (w : BitVec 512) (obj : W64) (slot : BitVec 6) :
    (s.logWeight w obj slot).endpoint = s.endpoint := by
  unfold State.logWeight
  dsimp only
  split
  next => rfl
  next => split <;> rfl

theorem State.loadSlot_endpoint (i : Nat) (blob : List W8) : (s.loadSlot i blob).1.endpoint = s.endpoint := by
  unfold State.loadSlot
  dsimp only
  split
  next => rfl
  next =>
    split
    next => rfl
    next =>
      split
      next => rfl
      next =>
        split
        next => rfl
        next => split <;> rfl

theorem State.secFail_endpoint (x : EngRes) (ht : t.endpoint = s.endpoint) : (s.secFail t x).endpoint = s.endpoint := by
  unfold State.secFail
  split
  next => rfl
  next => exact ht

theorem State.secRead_endpoint (n : Nat) : (s.secRead n).1.endpoint = s.endpoint := State.gather_endpoint ..

theorem State.secPerform_endpoint (w : W64) : (s.secPerform w).endpoint = s.endpoint := by
  unfold State.secPerform
  dsimp only
  split
  next =>
    split
    next => rfl
    next =>
      split
      next t d hx => rw [State.secDone_endpoint, State.extend_endpoint, endpoint_of_eq (s.secRead_endpoint _) hx]
      next t x hx => exact s.secFail_endpoint _ (endpoint_of_eq (s.secRead_endpoint _) hx)
  next =>
    split
    next => rfl
    next =>
      split
      next t d hx => rw [State.secDone_endpoint, State.logProgram_endpoint, endpoint_of_eq (s.secRead_endpoint _) hx]
      next t x hx => exact s.secFail_endpoint _ (endpoint_of_eq (s.secRead_endpoint _) hx)
  next =>
    split
    next => rfl
    next =>
      split
      next t hx => rw [State.secDone_endpoint, endpoint_of_eq (State.scatter_endpoint ..) hx, State.signReport_endpoint]
      next t x hx =>
        exact s.secFail_endpoint _ ((endpoint_of_eq (State.scatter_endpoint ..) hx).trans (s.signReport_endpoint _))
  next =>
    split
    next t d hx => rw [State.secDone_endpoint, State.loadSlot_endpoint, endpoint_of_eq (s.secRead_endpoint _) hx]
    next t x hx => exact s.secFail_endpoint _ (endpoint_of_eq (s.secRead_endpoint _) hx)
  next => split <;> rfl
  next => rfl

theorem State.secCommand_endpoint (w : W64) : (s.secCommand w).endpoint = s.endpoint := by
  unfold State.secCommand
  split
  next => rfl
  next => exact s.secPerform_endpoint w

theorem State.clearEnds_endpoint : s.clearEnds.endpoint = s.endpoint := by
  unfold State.clearEnds
  split
  next => rfl
  next =>
    split
    next => rfl
    next =>
      exact foldl_keeps (P := fun t : State => t.endpoint = s.endpoint) _ _ _ rfl
        fun t w h => (t.secCommand_endpoint w).trans h

/-! ## The ends of descriptors (R485, R488, R491) -/

theorem State.raise_endpoint (c : Cx) (e : Exc) (pc data det : W64) : (s.raise c e pc data det).endpoint = s.endpoint := by
  have hevent : (s.event c e.code pc data det).endpoint = s.endpoint := by
    unfold State.event
    split <;> rfl
  unfold State.raise
  dsimp only
  split <;> exact hevent

theorem State.extFillEnd_endpoint (l : LC) (id : W32) (slot : BitVec 4) (st : W8) :
    (s.extFillEnd l id slot st).endpoint = s.endpoint := by
  unfold State.extFillEnd
  split
  next =>
    dsimp only
    split
    next => exact s.raise_endpoint ..
    next => rw [State.updCtx_endpoint, State.jAppend_endpoint]
  next =>
    split
    next => rfl
    next =>
      split
      next => rfl
      next => exact s.physWrite_endpoint ..

/-- A copy engine changed: whether it is stopped is what shows of it. -/
theorem State.setCe_endpoint (e : CopyEng) (k : CopySt) : (s.setCe e k).endpoint =
    { s.endpoint with stopped := fun e' => if e' = e then k.stopped else s.endpoint.stopped e' } := by
  have hce (e' : CopyEng) : ((s.setCe e k).ce e').stopped = if e' = e then k.stopped else (s.ce e').stopped :=
    (congrArg CopySt.stopped (Tbl.get_set_ite ..)).trans (apply_ite ..)
  exact congrArg (EndpointView.mk _ _ _) (funext hce)

theorem State.setFlight_endpoint (e : CopyEng) (l : List CopyDesc) : (s.setFlight e l).endpoint = s.endpoint := by
  refine (s.setCe_endpoint e _).trans (congrArg (EndpointView.mk _ _ _) (funext fun e' => ?_))
  split
  next h => rw [h]
  next => rfl

theorem State.complete_endpoint (e : CopyEng) (d : CopyDesc) : (s.complete e d).endpoint = s.endpoint := by
  unfold State.complete
  extract_lets +lift st drawn r cq a msi data bus recorded counted told filled logged
  have hdrawn : drawn.endpoint = s.endpoint := endpoint_ite s.drawn_endpoint rfl
  have hrecorded : recorded.endpoint = s.endpoint := 
    endpoint_ite ((drawn.emit_endpoint _).trans hdrawn) ((drawn.physWrite_endpoint ..).trans hdrawn)
  have hcounted : counted.endpoint = s.endpoint :=
    (State.fset_endpoint ..).trans ((recorded.setFlight_endpoint ..).trans hrecorded)
  have htold : told.endpoint = s.endpoint :=
    endpoint_ite hcounted (endpoint_ite ((counted.emit_endpoint _).trans hcounted) ((counted.msi_endpoint ..).trans hcounted))
  have hfilled : filled.endpoint = s.endpoint := by
    cases hfill : d.fill with
    | none => simpa only [filled, hfill] using htold
    | some x => simpa only [filled, hfill, State.extFillEnd_endpoint] using htold
  have hlogged : logged.endpoint = s.endpoint := endpoint_ite ((filled.logWeight_endpoint ..).trans hfilled) hfilled
  exact logged.clearEnds_endpoint.trans hlogged

theorem State.endAll_endpoint (e : CopyEng) (st : W8) : (s.endAll e st).endpoint = s.endpoint :=
  foldl_keeps (P := fun t : State => t.endpoint = s.endpoint) _ _ s rfl fun t _ h => (t.complete_endpoint e _).trans h

end

end Sys2Proof.Machine
end

section
/-! PROOF of the host die's own events: the case that each command meets, and what it leaves of the host die, of poison and of the
endpoint. -/

namespace Sys2Proof.Machine

section
variable {s : State}

/-! ## The DDR patrol (R465) -/

@[simp] theorem State.logErr_host (s : State) (d : Die) (e : ErrRec) : (s.logErr d e).host = s.host :=
  (congrArg State.host (s.logErr_eq d e) :)

@[simp] theorem State.logErr_poison (s : State) (d : Die) (e : ErrRec) : (s.logErr d e).poison = s.poison :=
  (congrArg State.poison (s.logErr_eq d e) :)

@[simp] theorem State.poisonLine_host (s : State) (a : LAddr) : (s.poisonLine a).host = s.host := by
  unfold State.poisonLine
  split <;> rfl

/-- An uncorrectable line of T2, where a DIMM backs it, is poisoned, and the rest of the host die is as it was. -/
theorem State.ddrBad_uncorrectable {a : LAddr} (hregion : regionOf a.toNat = .t2) (haligned : a.toNat % 128 = 0)
    (hanswers : s.tierStatus a.toNat = none) : a.toNat ∈ (s.ddrBad a true).poison ∧ (s.ddrBad a true).host = s.host := by
  have hline : BitVec.ofNat 44 (lineOf a.toNat) = a := by
    rw [lineOf, Nat.div_mul_cancel (Nat.dvd_of_mod_eq_zero haligned), BitVec.ofNat_toNat, BitVec.setWidth_eq]
  have hbad : ¬ (decide (regionOf a.toNat ≠ .t2) || (s.tierStatus a.toNat).isSome) = true := by
    rw [hregion, hanswers]
    decide
  unfold State.ddrBad
  dsimp only
  rw [if_neg hbad, if_pos rfl, hline]
  exact ⟨(State.logErr_poison ..).symm ▸ State.mem_poison_poisonLine (.inr (.inl hregion)),
    (State.logErr_host ..).trans (s.poisonLine_host a)⟩

/-! ## Harts (R458, R461) -/

@[simp] theorem State.mgtAlert_host (s : State) : s.mgtAlert.host = s.host := by
  unfold State.mgtAlert; split <;> rfl

@[simp] theorem State.setDegraded_host (s : State) (n : Nat) (on : Bool) : (s.setDegraded n on).host = s.host := by
  obtain h | h := s.setDegraded_cases n on <;> simp only [h, State.mgtAlert_host] <;> rfl

/-- The state after a hart with an uncorrectable error is stopped, its caches are to be flushed, and its record is written. -/
def State.hartStopped (s : State) (h : HartIx) (inCache : Bool) : State :=
  let t := (s.startFlush (· = h)).logErr hd
    { cls := 0x0C, index := BitVec.ofNat 16 (Tbl.get 0 s.host.phys h.val), action := if s.host.spares.isEmpty then 0x04 else 0x03
      requester := Requester.code (.hart h), syndrome := if inCache then 2 else 1 }
  { t with host := { t.host with harts := Tbl.set t.host.harts h.val .stopped } }

theorem State.hartStopped_host (h : HartIx) (x : Bool) : (s.hartStopped h x).hart h = .stopped ∧
    (s.hartStopped h x).host.phys = s.host.phys ∧ (s.hartStopped h x).host.spares = s.host.spares := by
  refine ⟨Tbl.get_set_self .., ?_, ?_⟩ <;> simp only [State.hartStopped, State.logErr_host] <;> rfl

theorem exec_hartUncorrectableError_spare {h : HartIx} (x : Bool) {p : Nat} {rest : List Nat} (hrun : s.hart h = .running)
    (hspare : s.host.spares = p :: rest) : exec (.hartUncorrectableError h x) s = .next
      (State.fset { s.hartStopped h x with host := { (s.hartStopped h x).host with
        phys := Tbl.set (s.hartStopped h x).host.phys h.val p, spares := rest } } (rg .errSpares) 27 24 (min rest.length 8)) := by
  obtain ⟨-, -, hspares⟩ := s.hartStopped_host h x
  refine congrArg Host.Outcome.next ((if_neg (not_not_intro hrun)).trans ?_)
  dsimp only
  split
  next hnone => cases (hspares.trans hspare).symm.trans hnone
  next hsome =>
    cases (hspares.trans hspare).symm.trans hsome
    unfold State.hartStopped
    rfl

theorem exec_hartUncorrectableError_alone {h : HartIx} (x : Bool) (hrun : s.hart h = .running) (hspare : s.host.spares = []) :
    exec (.hartUncorrectableError h x) s = .next ((s.hartStopped h x).setDegraded 5 true) := by
  obtain ⟨-, -, hspares⟩ := s.hartStopped_host h x
  refine congrArg Host.Outcome.next ((if_neg (not_not_intro hrun)).trans ?_)
  dsimp only
  split
  next =>
    unfold State.hartStopped
    rfl
  next hsome => cases (hspares.trans hspare).symm.trans hsome

/-! ## Flushes after a host reset (R496) -/

/-- A line that has not been given back, poisoned at its home (R496). -/
def State.flushLost (s : State) (a : LAddr) : State := (s.poisonLine a).setLine a { s.line a with owner := none }

theorem exec_hostFlushTimeout (hflushing : s.host.flushing ≠ []) (hdue : 1000000 ≤ (s.time hd - s.host.flushAt).toNat) :
    exec .hostFlushTimeout s = .next { s.host.flushing.foldl State.flushLost s with
      host := { (s.host.flushing.foldl State.flushLost s).host with flushing := [] } } := by
  refine congrArg Host.Outcome.next (if_neg ?_)
  rw [List.isEmpty_eq_false_iff.2 hflushing, decide_eq_false (Nat.not_lt.2 hdue)]
  decide

theorem State.owner_foldl_flushLost (l : List LAddr) (a : LAddr) (s : State) (h : a ∈ l ∨ (s.line a).owner = none) :
    ((l.foldl State.flushLost s).line a).owner = none := by
  induction l generalizing s with
  | nil => simpa using h
  | cons b l ih =>
    refine ih _ ?_
    by_cases hab : a = b
    · exact .inr (by rw [hab, State.flushLost, State.line_setLine])
    · rw [List.mem_cons, or_assoc] at h
      have hline : (s.flushLost b).line a = s.line a :=
        (State.line_setLine_ne _ _ hab).trans (State.line_congr (s.poisonLine_lines b) a)
      exact hline ▸ h.resolve_left hab

theorem State.poison_subset_poisonLine (b : LAddr) : s.poison ⊆ (s.poisonLine b).poison := by
  unfold State.poisonLine
  split
  next => exact fun _ h => h
  next => exact fun x h => List.mem_dedup.2 (List.mem_cons_of_mem _ h)
  next => exact fun x h => List.mem_dedup.2 (List.mem_cons_of_mem _ h)

theorem State.mem_poison_foldl_flushLost {a : LAddr}
    (hmemory : regionOf a.toNat = .t1 ∨ regionOf a.toNat = .t2 ∨ regionOf a.toNat = .t3) (l : List LAddr) (s : State)
    (h : a ∈ l ∨ a.toNat ∈ s.poison) : a.toNat ∈ (l.foldl State.flushLost s).poison := by
  induction l generalizing s with
  | nil => simpa using h
  | cons b l ih =>
    refine ih _ ?_
    by_cases hab : a = b
    · exact .inr (hab ▸ State.mem_poison_poisonLine hmemory)
    · rw [List.mem_cons, or_assoc] at h
      exact (h.resolve_left hab).imp_right fun hmem => s.poison_subset_poisonLine b hmem

/-! ## Inbound requests (R474) -/

theorem exec_inboundRequest_unsupported {p : Port} {q : InboundReq} {a : PAddr} (ha : q.pa = some a)
    (h : regionOf (PAddr.loc a).toNat = .hole ∨ regionOf (PAddr.loc a).toNat = .mmio) :
    exec (.inboundRequest p q) s = .next (s.emit (.pcieUnsupported p)) := by
  refine congrArg Host.Outcome.next ?_
  obtain h | h := h <;> simp only [ha, h]

/-- An inbound access of coherent memory (R474). -/
def State.inboundAccess (s : State) (p : Port) (a : PAddr) (q : InboundReq) : State :=
  match q.write with
  | some d => s.inboundWrite p a d
  | none => s.inboundRead p a q.length

theorem exec_inboundRequest_coherent {p : Port} {q : InboundReq} {a : PAddr} (ha : q.pa = some a)
    (h : (regionOf (PAddr.loc a).toNat).coherent = true) : exec (.inboundRequest p q) s = .next (s.inboundAccess p a q) := by
  refine congrArg Host.Outcome.next ?_
  simp only [ha]
  unfold State.inboundAccess
  split
  next hregs => rw [hregs] at h; cases h
  next hhole => rw [hhole] at h; cases h
  next hmmio => rw [hmmio] at h; cases h
  next => cases q.write <;> rfl

/-! ## The endpoint link (R496, R498, R667, R739) -/

/-- An engine of the endpoint's port stopped, with its descriptors in flight ended. -/
def State.stopEngine (s : State) (e : CopyEng) : State :=
  let t := (s.endAll e 0x03).dropWalks (.copyEngine e)
  t.setCe e { t.ce e with stopped := true }

theorem State.stopEngine_endpoint (s : State) (e : CopyEng) : (s.stopEngine e).endpoint =
    { s.endpoint with stopped := fun e' => if e' = e then true else s.endpoint.stopped e' } := by
  have hended : ((s.endAll e 0x03).dropWalks (.copyEngine e)).endpoint = s.endpoint := s.endAll_endpoint e 0x03
  rw [State.stopEngine, State.setCe_endpoint, hended]

theorem State.foldl_stopEngine_endpoint (l : List CopyEng) (s : State) : (l.foldl State.stopEngine s).endpoint =
    { s.endpoint with stopped := fun e => decide (e ∈ l) || s.endpoint.stopped e } := by
  induction l generalizing s with
  | nil => simp
  | cons k l ih =>
    rw [List.foldl_cons, ih, State.stopEngine_endpoint]
    refine congrArg (EndpointView.mk _ _ _) (funext fun e => ?_)
    by_cases hk : e = k <;> simp [hk]

/-- The engines that the loss of a port's endpoint link stops. -/
def State.endpointEngines (s : State) (p : Port) : List CopyEng :=
  (List.finRange 48).filter fun e => decide (32 ≤ e.val) && decide (s.cePort e = p)

theorem State.epLost_endpoint {p : Port} (h : s.epPort = some p) : s.epLost.endpoint =
    { s.endpoint with up := false, stopped := fun e => decide (e ∈ s.endpointEngines p) || s.endpoint.stopped e } := by
  have hlost : s.epLost = (s.endpointEngines p).foldl State.stopEngine { s with host := { s.host with epUp := false } } := by
    unfold State.epLost
    rw [h]
    rfl
  rw [hlost, State.foldl_stopEngine_endpoint]
  rfl

end

end Sys2Proof.Machine

namespace Sys2Proof.Proofs

open Sys2Proof.Machine

/-- Settles O44: each command is the case that it meets, and a list of lines or engines is gone through one by one. -/
theorem hostDieEvents : Obligations.HostDieEvents := by
  unfold Obligations.HostDieEvents
  refine ⟨fun s => rfl, fun s a hregion haligned hanswers => ?scrub, fun h x s hrun => ?hart, fun p s => ?expander,
    fun p q s hq => ?untranslated, fun p q a s hq => ?inbound, fun s hflushing hdue => ?flush, fun s p hp => ?endpoint⟩
  case scrub =>
    obtain ⟨hpoison, hhost⟩ := State.ddrBad_uncorrectable hregion haligned hanswers
    exact ⟨_, rfl, (State.poisoned_iff_of_memory (.inr (.inl hregion))).2 hpoison,
      congrArg (fun k : HostSt => k.ddrScrubs + 1) hhost⟩
  case hart =>
    obtain ⟨hstopped, hphys, -⟩ := s.hartStopped_host h x
    refine ⟨fun p rest hspares => ?_, fun hspares => ?_⟩
    · exact .intro (exec_hartUncorrectableError_spare x hrun hspares) ⟨hstopped, Tbl.get_set_self .., rfl⟩
    · refine .intro (exec_hartUncorrectableError_alone x hrun hspares) ⟨?_, ?_, State.fget_setDegraded _ (by decide)⟩
      · rw [State.hart, State.setDegraded_host]
        exact hstopped
      · rw [State.setDegraded_host]
        exact hphys
  case expander =>
    exact ⟨_, rfl, List.mem_dedup.2 (List.mem_append_right _ (List.mem_singleton_self p)),
      fun q hq => List.mem_dedup.2 (List.mem_append_left _ hq)⟩
  case untranslated => exact congrArg Host.Outcome.next (by simp only [hq])
  case inbound =>
    refine ⟨exec_inboundRequest_unsupported hq, fun hwrite hregion u ds hread => ?_, fun d hwrite hregion u hdone => ?_⟩ <;>
      rw [exec_inboundRequest_coherent hq hregion]
    · simp only [State.inboundAccess, hwrite, State.inboundRead, hread]
    · simp only [State.inboundAccess, hwrite, State.inboundWrite, hdone]
  case flush =>
    refine .intro (exec_hostFlushTimeout hflushing hdue) ⟨rfl, fun a ha =>
      ⟨State.owner_foldl_flushLost _ a s (.inl ha), fun hmemory => ?_⟩⟩
    exact (State.poisoned_iff_of_memory hmemory).2 (State.mem_poison_foldl_flushLost hmemory _ s (.inl ha))
  case endpoint =>
    have hsome : ¬ s.epPort.isNone = true := by rw [hp]; exact Bool.false_ne_true
    refine ⟨fun hready => ?_, ⟨_, rfl, ?_⟩, ⟨_, congrArg Host.Outcome.next (if_neg hsome), ?_⟩,
      ⟨_, congrArg Host.Outcome.next (if_neg hsome), rfl, rfl⟩⟩
    · exact congrArg Host.Outcome.next (if_neg (by rw [hp, hready]; exact Bool.false_ne_true))
    · have hview := State.epLost_endpoint hp
      refine ⟨congrArg EndpointView.up hview, fun e he hport => ?_⟩
      refine (congrArg (EndpointView.stopped · e) hview).trans ?_
      simp [State.endpointEngines, he, hport]
    · have hview := State.epLost_endpoint (s := { s with
        pins := { s.pins with perst := true }, host := { s.host with epReady := false } }) hp
      exact ⟨congrArg EndpointView.perst hview, congrArg EndpointView.ready hview, congrArg EndpointView.up hview⟩

end Sys2Proof.Proofs
end

section
/-! SUPPORT and PROOF of the Jahel stacks: what the records and counts of a channel leave, a read that its stack serves, and the
outcome of each event of a stack. -/

namespace Sys2Proof.Machine

/-! ## Stripes retire (R429) -/

section
variable {s : State} {j : Stack}

theorem exec_stripeRetire {ix : Fin 256} {e : StripeEntry} (he : (s.stack j).stripes[ix.val]? = some e)
    (hup : s.tripped j = false) (hcursor : s.atCursor j e.group e.pos = false)
    (hdue : 2000 ≤ (s.time (stackDie j) - e.at_).toNat) : exec (.stripeRetire j ix) s = .next (s.retire j e) := by
  refine congrArg Host.Outcome.next ?_
  simp only [he]
  exact if_neg (by rw [hup, hcursor, decide_eq_false (Nat.not_lt.2 hdue)]; decide)

theorem State.retire_mem_of_single {e : StripeEntry} {a : LAddr} {d : List W8} (h : e.lines = [(a, d)]) :
    (s.retire j e).mem = (s.poke a.toNat d).mem := by
  rw [State.retire, h]
  rfl

theorem State.not_mem_stripes_retire (e : StripeEntry) : e ∉ ((s.retire j e).stack j).stripes := by
  simp [State.retire]

/-! ## Temperature (R425, R426) -/

theorem nextBand_lt_four (cur temp : Nat) : nextBand cur temp < 4 := by
  have htop (ok : Nat → Bool) : (List.range 4).foldl (fun m b => if ok b then b else m) 0 < 4 := by
    simp only [List.range_succ, List.range_zero, List.nil_append, List.cons_append, List.foldl_cons, List.foldl_nil]
    split_ifs <;> decide
  exact max_lt (htop _) (htop _)

/-- The state after a temperature and its band are in their fields. -/
def State.heated (s : State) (j : Stack) (temp : W8) : State :=
  (s.fset (rg .jsStatus j.val) 7 0 temp.toNat).fset (rg .jsStatus j.val) 9 8
    (nextBand (s.fget (rg .jsStatus j.val) 9 8) temp.toNat)

theorem State.fget_heated (temp : W8) : (s.heated j temp).fget (rg .jsStatus j.val) 7 0 = temp.toNat ∧
    (s.heated j temp).fget (rg .jsStatus j.val) 9 8 = nextBand (s.fget (rg .jsStatus j.val) 9 8) temp.toNat ∧
    (s.heated j temp).fget (rg .jsStatus j.val) 10 10 = s.fget (rg .jsStatus j.val) 10 10 := by
  refine ⟨?_, ?_, ?_⟩
  · rw [State.heated, State.fget_fset_of_disjoint _ _ (by decide) (by decide) (by decide),
      State.fget_fset_self _ _ (by decide) (by decide)]
    exact Nat.mod_eq_of_lt temp.isLt
  · rw [State.heated, State.fget_fset_self _ _ (by decide) (by decide)]
    exact Nat.mod_eq_of_lt (nextBand_lt_four ..)
  · rw [State.heated, State.fget_fset_of_disjoint _ _ (by decide) (by decide) (by decide),
      State.fget_fset_of_disjoint _ _ (by decide) (by decide) (by decide)]

/-- The state after a temperature report: from 105 °C the stack is tripped, and below 100 °C it is not. -/
def State.reported (s : State) (j : Stack) (temp : W8) : State :=
  if 105 ≤ temp.toNat then (s.heated j temp).fset (rg .jsStatus j.val) 10 10 1
  else if temp.toNat < 100 then (s.heated j temp).fset (rg .jsStatus j.val) 10 10 0 else s.heated j temp

theorem exec_stackTemperatureReport (temp : W8) : exec (.stackTemperatureReport j temp) s = .next (s.reported j temp) := rfl

theorem State.fget_reported (temp : W8) : (s.reported j temp).fget (rg .jsStatus j.val) 7 0 = temp.toNat ∧
    (s.reported j temp).fget (rg .jsStatus j.val) 9 8 = nextBand (s.fget (rg .jsStatus j.val) 9 8) temp.toNat ∧
    (s.reported j temp).fget (rg .jsStatus j.val) 10 10 =
      if 105 ≤ temp.toNat then 1 else if temp.toNat < 100 then 0 else s.fget (rg .jsStatus j.val) 10 10 := by
  obtain ⟨htemp, hband, htrip⟩ := State.fget_heated (s := s) (j := j) temp
  have hset (v : Nat) : ((s.heated j temp).fset (rg .jsStatus j.val) 10 10 v).fget (rg .jsStatus j.val) 7 0 = temp.toNat ∧
      ((s.heated j temp).fset (rg .jsStatus j.val) 10 10 v).fget (rg .jsStatus j.val) 9 8 =
        nextBand (s.fget (rg .jsStatus j.val) 9 8) temp.toNat ∧
      ((s.heated j temp).fset (rg .jsStatus j.val) 10 10 v).fget (rg .jsStatus j.val) 10 10 = v % 2 :=
    ⟨(State.fget_fset_of_disjoint _ v (by decide) (by decide) (by decide)).trans htemp,
      (State.fget_fset_of_disjoint _ v (by decide) (by decide) (by decide)).trans hband,
      State.fget_fset_self _ v (by decide) (by decide)⟩
  unfold State.reported
  split
  next => exact hset 1
  next =>
    split
    next => exact hset 0
    next => exact ⟨htemp, hband, htrip⟩

/-! ## What the records and counts of a channel leave (R434, R435, R456) -/

theorem State.reg_logErr_ne (d : Die) (e : ErrRec) {r : Reg} (h : r ≠ rg .errStatus) : (s.logErr d e).reg r = s.reg r := by
  unfold State.logErr
  dsimp only
  split
  next => rfl
  next =>
    split
    next => exact State.reg_setReg_ne _ _ h
    next => rfl

theorem State.fget_logErr_ne (d : Die) (e : ErrRec) {r : Reg} (hi lo : Nat) (h : r ≠ rg .errStatus) :
    (s.logErr d e).fget r hi lo = s.fget r hi lo := congrArg (bits · hi lo) (State.reg_logErr_ne d e h)

@[simp] theorem State.fset_jahel (s : State) (r : Reg) (hi lo v : Nat) : (s.fset r hi lo v).jahel = s.jahel := rfl
@[simp] theorem State.bump_jahel (s : State) (r : Reg) (hi lo v : Nat) : (s.bump r hi lo v).jahel = s.jahel := rfl

@[simp] theorem State.logErr_jahel (s : State) (d : Die) (e : ErrRec) : (s.logErr d e).jahel = s.jahel :=
  (congrArg State.jahel (s.logErr_eq d e) :)

@[simp] theorem State.mgtAlert_jahel : s.mgtAlert.jahel = s.jahel := by
  unfold State.mgtAlert; split <;> rfl

@[simp] theorem State.setDegraded_jahel (n : Nat) (on : Bool) : (s.setDegraded n on).jahel = s.jahel := by
  obtain h | h := s.setDegraded_cases n on <;> simp only [h, State.mgtAlert_jahel] <;> rfl

@[simp] theorem State.mgtAlert_poison : s.mgtAlert.poison = s.poison := by
  unfold State.mgtAlert; split <;> rfl

@[simp] theorem State.setDegraded_poison (n : Nat) (on : Bool) : (s.setDegraded n on).poison = s.poison := by
  obtain h | h := s.setDegraded_cases n on <;> simp only [h, State.mgtAlert_poison] <;> rfl

/-- A state with the same stacks has the same of each. -/
theorem State.stack_congr {s t : State} (h : t.jahel = s.jahel) (j : Stack) : t.stack j = s.stack j := by
  rw [State.stack, State.stack, h]

/-- What the records and counts of a channel leave: the memory-side cache, poison, the stripe buffers, every register but a
stack's and the error status, and the count of reconstructed grains. -/
structure State.ChannelFrame (s t : State) : Prop where
  msc : t.msc = s.msc
  poison : t.poison = s.poison
  stripes : ∀ j, (t.stack j).stripes = (s.stack j).stripes
  reg : ∀ r, r.kind ∉ [RegKind.jsStatus, .jsRebuild, .jsErr, .errStatus] → t.reg r = s.reg r
  reconstructed : ∀ n, t.fget (rg .jsErr n) 31 16 = s.fget (rg .jsErr n) 31 16

theorem State.ChannelFrame.refl (s : State) : s.ChannelFrame s := ⟨rfl, rfl, fun _ => rfl, fun _ _ => rfl, fun _ => rfl⟩

variable {t u : State}

theorem State.ChannelFrame.trans (h : s.ChannelFrame t) (h' : t.ChannelFrame u) : s.ChannelFrame u :=
  ⟨h'.msc.trans h.msc, h'.poison.trans h.poison, fun j => (h'.stripes j).trans (h.stripes j),
    fun r hr => (h'.reg r hr).trans (h.reg r hr), fun n => (h'.reconstructed n).trans (h.reconstructed n)⟩

/-- A state with the same memory-side cache, poison and stacks, and the same registers but one of the frame's. -/
theorem State.ChannelFrame.of_reg {k : RegKind} {n : Nat} (hk : k ∈ [RegKind.jsStatus, .jsRebuild, .errStatus])
    (hmsc : t.msc = s.msc) (hpoison : t.poison = s.poison) (hjahel : t.jahel = s.jahel)
    (hreg : ∀ r, r ≠ rg k n → t.reg r = s.reg r) : s.ChannelFrame t := by
  refine ⟨hmsc, hpoison, fun j => congrArg StackSt.stripes (State.stack_congr hjahel j), fun r hr => hreg r ?_,
    fun m => congrArg (bits · 31 16) (hreg _ (rg_ne ?_))⟩
  · rintro rfl
    exact hr (List.Sublist.subset (by decide) hk)
  · rintro rfl
    exact absurd hk (by decide)

theorem State.ChannelFrame.fset {k : RegKind} (hk : k ∈ [RegKind.jsStatus, .jsRebuild, .errStatus]) (n hi lo v : Nat) :
    s.ChannelFrame (s.fset (rg k n) hi lo v) := .of_reg hk rfl rfl rfl fun _ h => s.reg_setReg_ne _ h

theorem State.ChannelFrame.logErr (d : Die) (e : ErrRec) : s.ChannelFrame (s.logErr d e) :=
  .of_reg (k := .errStatus) (n := 0) (by decide) (s.logErr_msc d e) (State.logErr_poison ..) (State.logErr_jahel ..)
    fun _ h => State.reg_logErr_ne d e h

theorem State.ChannelFrame.setDegraded (n : Nat) (on : Bool) : s.ChannelFrame (s.setDegraded n on) :=
  .of_reg (k := .errStatus) (n := 0) (by decide) (s.setDegraded_msc n on) (State.setDegraded_poison ..)
    (State.setDegraded_jahel ..) fun r h =>
      (congrArg (Tbl.get r.kind.resetValue · r) (s.setDegraded_regs n on)).trans (s.reg_setReg_ne _ h)

/-- A count of a stack's errors raised, other than that of reconstructed grains. -/
theorem State.ChannelFrame.bump_jsErr {n hi lo : Nat} (hlo : lo ≤ hi) (hhi : hi < 64) (hfield : hi < 16 ∨ 31 < lo) (v : Nat) :
    s.ChannelFrame (s.bump (rg .jsErr n) hi lo v) := by
  refine ⟨rfl, rfl, fun _ => rfl, fun r hr => s.reg_setReg_ne _ ?_, fun m => ?_⟩
  · rintro rfl
    exact hr (List.mem_cons_of_mem _ (List.mem_cons_of_mem _ (List.mem_cons_self ..)))
  · by_cases hm : rg .jsErr m = rg .jsErr n
    · rw [hm]
      exact s.fget_fset_of_disjoint _ hlo hhi (by omega)
    · exact s.fget_bump_ne _ hm

theorem State.ChannelFrame.setStack {k : StackSt} (hk : k.stripes = (s.stack j).stripes) : s.ChannelFrame (s.setStack j k) := by
  refine ⟨rfl, rfl, fun i => ?_, fun _ _ => rfl, fun _ => rfl⟩
  by_cases hi : i = j
  · rw [hi, State.stack_setStack, hk]
  · rw [State.stack, State.setStack, Tbl.get_set_ne _ _ _ hi, State.stack]

/-! ## A channel is declared failed (R434, R435, R438) -/

/-- The lowest-numbered unused spare of a stack. -/
def State.freeSpare (s : State) (j : Stack) : Option Nat :=
  (List.range 8).find? fun i => s.fget (rg .jsSpareMap j.val) (8 * i + 7) (8 * i) = 0xFF &&
    !(s.stack j).failed.any (·.spare = some i)

/-- The record of a failed channel. -/
def failRec (j : Stack) (c : W8) (spare : Option Nat) : ErrRec :=
  { cls := 0x07, index := BitVec.ofNat 16 j.val, action := (if spare.isSome then 0x05 else 0x04), syndrome := c.setWidth 64 }

/-- The state after a failed channel has its record, its entry with a spare or none, and its count. -/
def State.failNoted (s : State) (j : Stack) (c : W8) (spare : Option Nat) : State :=
  ((s.logErr (stackDie j) (failRec j c spare)).setStack j
    { s.stack j with failed := (s.stack j).failed ++ [⟨c, spare, (s.die (stackDie j)).errSeq⟩] }).bump
    (rg .jsErr j.val) 55 48 1

/-- The state after a spare taken is counted, or none to take is reported. -/
def State.spareNoted (s : State) (j : Stack) (spare : Option Nat) : State :=
  if spare.isSome then s.fset (rg .jsStatus j.val) 19 16 (s.fget (rg .jsStatus j.val) 19 16 + 1)
  else (s.fset (rg .jsStatus j.val) 11 11 1).setDegraded 2 true

/-- The state after a rebuild of a failed channel has started. -/
def State.rebuildStarted (s : State) (j : Stack) (f : FailedChan) : State :=
  (((s.fset (rg .jsRebuild j.val) 20 0 0).fset (rg .jsRebuild j.val) 31 24 f.chan.toNat).fset (rg .jsRebuild j.val) 35 32
    (f.spare.getD 0xF)).fset (rg .jsStatus j.val) 12 12 1

theorem State.nextRebuild_starts {f : FailedChan} (hidle : s.fget (rg .jsRebuild j.val) 35 32 = 0xF)
    (hf : (s.stack j).failed.find? (·.spare.isSome) = some f) : s.nextRebuild j = s.rebuildStarted j f := by
  refine (if_neg (not_not_intro hidle)).trans ?_
  rw [hf]
  rfl

theorem State.nextRebuild_of_none (hnone : (s.stack j).failed.find? (·.spare.isSome) = none) : s.nextRebuild j = s := by
  unfold State.nextRebuild
  simp only [hnone, ite_self]

theorem State.nextRebuild_cases : s.nextRebuild j = s ∨ ∃ f, s.nextRebuild j = s.rebuildStarted j f := by
  by_cases hidle : s.fget (rg .jsRebuild j.val) 35 32 = 0xF
  · cases hf : (s.stack j).failed.find? (·.spare.isSome) with
    | none => exact .inl (State.nextRebuild_of_none hf)
    | some f => exact .inr ⟨f, State.nextRebuild_starts hidle hf⟩
  · exact .inl (if_pos hidle)

theorem State.declareFailed_known {c : W8} (h : 0x88 ≤ c.toNat ∨ (s.stack j).failed.any (·.chan = c) = true) :
    s.declareFailed j c = s := if_pos (by simpa using h)

theorem State.declareFailed_new {c : W8} (hc : c.toNat < 0x88) (hnew : (s.stack j).failed.any (·.chan = c) = false) :
    s.declareFailed j c = ((s.failNoted j c (s.freeSpare j)).spareNoted j (s.freeSpare j)).nextRebuild j := by
  refine (if_neg (c := (decide (0x88 ≤ c.toNat) || (s.stack j).failed.any (·.chan = c)) = true) ?_).trans rfl
  rw [hnew, decide_eq_false (Nat.not_le.2 hc)]
  decide

theorem State.ChannelFrame.failNoted (c : W8) (spare : Option Nat) : s.ChannelFrame (s.failNoted j c spare) := by
  unfold State.failNoted
  refine .trans (.trans (.logErr ..) (.setStack ?_)) (.bump_jsErr (hi := 55) (lo := 48) (by decide) (by decide) (by decide) 1)
  rw [State.stack_congr (s.logErr_jahel ..)]

theorem State.ChannelFrame.spareNoted (spare : Option Nat) : s.ChannelFrame (s.spareNoted j spare) := by
  unfold State.spareNoted
  split
  next => exact .fset (k := .jsStatus) (by decide) ..
  next => exact .trans (.fset (k := .jsStatus) (by decide) ..) (.setDegraded ..)

theorem State.ChannelFrame.rebuildStarted (f : FailedChan) : s.ChannelFrame (s.rebuildStarted j f) := by
  unfold State.rebuildStarted
  exact .trans (.trans (.trans (.fset (k := .jsRebuild) (by decide) ..) (.fset (k := .jsRebuild) (by decide) ..))
    (.fset (k := .jsRebuild) (by decide) ..)) (.fset (k := .jsStatus) (by decide) ..)

theorem State.ChannelFrame.nextRebuild : s.ChannelFrame (s.nextRebuild j) := by
  obtain h | ⟨f, h⟩ := State.nextRebuild_cases (s := s) (j := j) <;> rw [h]
  · exact .refl s
  · exact .rebuildStarted f

theorem State.ChannelFrame.declareFailed (c : W8) : s.ChannelFrame (s.declareFailed j c) := by
  by_cases hknown : 0x88 ≤ c.toNat ∨ (s.stack j).failed.any (·.chan = c) = true
  · rw [State.declareFailed_known hknown]
    exact .refl s
  · obtain ⟨hc, hnew⟩ := not_or.1 hknown
    rw [State.declareFailed_new (Nat.not_le.1 hc) (Bool.eq_false_of_not_eq_true hnew)]
    exact .trans (.trans (.failNoted ..) (.spareNoted ..)) .nextRebuild

theorem State.ChannelFrame.chanLimits (c : W8) : s.ChannelFrame (s.chanLimits j c) := by
  unfold State.chanLimits
  dsimp only
  split
  next => exact .declareFailed c
  next => exact .refl s

end

/-! ## A burst of a line's channel (R432) -/

section
variable (s : State) (a : LAddr)

/-- The state after a burst has failed all its reads: two reads again are counted, and the failure is remembered. -/
def State.crcNoted : State :=
  let j := (t1Place a.toNat).2.1
  (s.bump (rg .jsErr j.val) 15 0 2).setStack j
    { s.stack j with crc := remember (s.time (stackDie j)) (dataChan a) (s.stack j).crc }

/-- The state after a reconstruction is remembered. -/
def State.reconNoted : State :=
  let j := (t1Place a.toNat).2.1
  s.setStack j { s.stack j with recon := remember (s.time (stackDie j)) (dataChan a) (s.stack j).recon }

/-- The state after the record of a burst that failed all its reads. -/
def State.burstNoted (act : W8) : State :=
  let j := (t1Place a.toNat).2.1
  s.logErr (stackDie j) { cls := 0x07, index := BitVec.ofNat 16 j.val, action := act, addr := mkPA s.vertex a
                          syndrome := (dataChan a).setWidth 64, count := 2 }

variable {s a}

@[simp] theorem State.bump_time (s : State) (r : Reg) (hi lo v : Nat) (d : Die) : (s.bump r hi lo v).time d = s.time d := rfl
@[simp] theorem State.setStack_time (s : State) (j : Stack) (k : StackSt) (d : Die) : (s.setStack j k).time d = s.time d := rfl

theorem State.ChannelFrame.crcNoted : s.ChannelFrame (s.crcNoted a) := by
  unfold State.crcNoted
  exact .trans (.bump_jsErr (hi := 15) (lo := 0) (by decide) (by decide) (by decide) 2) (.setStack rfl)

theorem State.ChannelFrame.reconNoted : s.ChannelFrame (s.reconNoted a) := .setStack rfl

theorem State.ChannelFrame.burstNoted (act : W8) : s.ChannelFrame (s.burstNoted a act) := .logErr ..

variable {o : BurstOutcome}

theorem State.burst_clean (hdown : s.chanDown (t1Place a.toNat).2.1 (dataChan a) (t1Place a.toNat).1 = false)
    (hwrong : o.wrong = 0) (hinverted : o.inverted = false) :
    s.burst a o = s.bump (rg .jsErr (t1Place a.toNat).2.1.val) 15 0 0 := by
  simp [State.burst, hdown, hwrong, hinverted]

theorem State.burst_second (hdown : s.chanDown (t1Place a.toNat).2.1 (dataChan a) (t1Place a.toNat).1 = false)
    (hwrong : o.wrong = 3) (hsecond : o.second = true) : s.burst a o =
      ((((s.crcNoted a).bump (rg .jsErr (t1Place a.toNat).2.1.val) 47 32 1).poisonLine a).burstNoted a 0x06).chanLimits
        (t1Place a.toNat).2.1 (dataChan a) := by
  simp [State.burst, hdown, hwrong, hsecond, State.crcNoted, State.burstNoted]

theorem State.burst_alone (hdown : s.chanDown (t1Place a.toNat).2.1 (dataChan a) (t1Place a.toNat).1 = false)
    (hwrong : o.wrong = 3) (hsecond : o.second = false)
    (hothers : s.downIn (t1Place a.toNat).2.1 (t1Place a.toNat).2.2.1 (t1Place a.toNat).1 = []) : s.burst a o =
      ((((s.crcNoted a).bump (rg .jsErr (t1Place a.toNat).2.1.val) 31 16 1).reconNoted a).burstNoted a 0x01).chanLimits
        (t1Place a.toNat).2.1 (dataChan a) := by
  simp [State.burst, hdown, hwrong, hsecond, hothers, State.crcNoted, State.reconNoted, State.burstNoted]

/-! ## A line that only its stack holds (R428, R442) -/

/-- A line of T1 is neither in the memory-side cache nor in the stripe buffer, and accesses are not counted. -/
structure State.OnlyInStack (s : State) (a : LAddr) : Prop where
  cache : s.mscFind a = none
  stripe : s.stripeLine a = none
  uncounted : s.fget (rg .tierCntBase) 0 0 = 0

variable {t : State}

theorem State.ChannelFrame.onlyInStack (hf : s.ChannelFrame t) (h : s.OnlyInStack a) : t.OnlyInStack a := by
  refine ⟨?_, ?_, (congrArg (bits · 0 0) (hf.reg _ (by decide))).trans h.uncounted⟩
  · rw [State.mscFind, State.mscOf_congr hf.msc]
    exact h.cache
  · rw [State.stripeLine, hf.stripes]
    exact h.stripe

theorem State.OnlyInStack.bump (h : s.OnlyInStack a) {k : RegKind} (hk : RegKind.tierCntBase ≠ k) (n hi lo v : Nat) :
    (s.bump (rg k n) hi lo v).OnlyInStack a := ⟨h.cache, h.stripe, (s.fget_bump_ne v (rg_ne hk)).trans h.uncounted⟩

/-- A poisoned line is dropped from the memory-side cache. -/
theorem State.mscFind_poisonLine (hregion : regionOf a.toNat = .t1) : (s.poisonLine a).mscFind a = none := by
  have hmsc : (s.poisonLine a).mscOf (homeOf a.toNat) = (s.mscOf (homeOf a.toNat)).filter (·.line ≠ a) := by
    unfold State.poisonLine
    rw [hregion]
    exact s.mscOf_setMsc ..
  rw [State.mscFind, hmsc]
  simp

/-- A poisoned line is dropped from the stripe buffer. -/
theorem State.stripeLine_poisonLine (hregion : regionOf a.toNat = .t1) : (s.poisonLine a).stripeLine a = none := by
  have hstripes : ((s.poisonLine a).stack (t1Place a.toNat).2.1).stripes =
      (s.stack (t1Place a.toNat).2.1).stripes.map fun e => { e with lines := e.lines.filter (·.1 ≠ a) } := by
    unfold State.poisonLine
    rw [hregion]
    exact congrArg StackSt.stripes (State.stack_setStack ..)
  rw [State.stripeLine, hstripes, List.find?_map, Option.bind_map]
  refine Option.bind_eq_none_iff.2 fun e _ => ?_
  simp [lineIn]

theorem State.OnlyInStack.poisonLine (h : s.OnlyInStack a) (hregion : regionOf a.toNat = .t1) : (s.poisonLine a).OnlyInStack a :=
  ⟨State.mscFind_poisonLine hregion, State.stripeLine_poisonLine hregion,
    (State.fget_congr s (s.poisonLine_regs a)).trans h.uncounted⟩

/-! ## Bursts that fail (R432) -/

theorem State.bump_poison (s : State) (r : Reg) (hi lo v : Nat) : (s.bump r hi lo v).poison = s.poison := rfl

theorem State.poisoned_congr (hpoison : t.poison = s.poison) (hregion : regionOf a.toNat = .t1) :
    t.poisoned a = s.poisoned a := by
  simp only [State.poisoned, hregion, hpoison]

/-- A burst that fails with a second bad burst poisons the line, and leaves it where it was. -/
theorem State.burst_second_poisons (h : s.OnlyInStack a) (hregion : regionOf a.toNat = .t1)
    (hdown : s.chanDown (t1Place a.toNat).2.1 (dataChan a) (t1Place a.toNat).1 = false)
    (hwrong : o.wrong = 3) (hsecond : o.second = true) : (s.burst a o).OnlyInStack a ∧ (s.burst a o).poisoned a = true := by
  rw [State.burst_second hdown hwrong hsecond]
  have hcrc : s.ChannelFrame (s.crcNoted a) := .crcNoted
  have hlost := ((hcrc.onlyInStack h).bump (k := .jsErr) (by decide) (t1Place a.toNat).2.1.val 47 32 1).poisonLine hregion
  have hframe (u : State) : u.ChannelFrame ((u.burstNoted a 0x06).chanLimits (t1Place a.toNat).2.1 (dataChan a)) :=
    .trans (.burstNoted 0x06) (.chanLimits _)
  refine ⟨(hframe _).onlyInStack hlost, (State.poisoned_congr (hframe _).poison hregion).trans ?_⟩
  exact (State.poisoned_iff_of_memory (.inl hregion)).2 (State.mem_poison_poisonLine (.inl hregion))

/-- A burst that fails alone counts one grain reconstructed, and leaves the line where it was. -/
theorem State.burst_alone_counts (h : s.OnlyInStack a)
    (hdown : s.chanDown (t1Place a.toNat).2.1 (dataChan a) (t1Place a.toNat).1 = false)
    (hwrong : o.wrong = 3) (hsecond : o.second = false)
    (hothers : s.downIn (t1Place a.toNat).2.1 (t1Place a.toNat).2.2.1 (t1Place a.toNat).1 = []) :
    (s.burst a o).OnlyInStack a ∧ (s.burst a o).fget (rg .jsErr (t1Place a.toNat).2.1.val) 31 16 =
      min (s.fget (rg .jsErr (t1Place a.toNat).2.1.val) 31 16 + 1) 65535 := by
  rw [State.burst_alone hdown hwrong hsecond hothers]
  have hcrc : s.ChannelFrame (s.crcNoted a) := .crcNoted
  have hframe (u : State) : u.ChannelFrame (((u.reconNoted a).burstNoted a 0x01).chanLimits (t1Place a.toNat).2.1 (dataChan a)) :=
    .trans (.trans .reconNoted (.burstNoted 0x01)) (.chanLimits _)
  refine ⟨(hframe _).onlyInStack ((hcrc.onlyInStack h).bump (by decide) ..), ((hframe _).reconstructed _).trans ?_⟩
  rw [State.bump, State.fget_fset_self _ _ (by decide) (by decide), hcrc.reconstructed]
  exact Nat.mod_eq_of_lt (by omega)

end

section
variable {s t u : State} {a : LAddr} {q : HomeReq}

/-! ## A read that its stack serves (R442, R444) -/

/-- A state that differs at most in memory, the memory-side cache, the stripe buffers and the homes' lines. -/
def State.FillFrame (s t : State) : Prop := t = { s with mem := t.mem, msc := t.msc, jahel := t.jahel, lines := t.lines }

theorem State.FillFrame.trans (h : s.FillFrame t) (h' : t.FillFrame u) : s.FillFrame u := Eq.trans h' (by rw [h])

theorem State.FillFrame.poison (h : s.FillFrame t) : t.poison = s.poison := (congrArg State.poison h :)

theorem State.FillFrame.regs (h : s.FillFrame t) : t.regs = s.regs := (congrArg State.regs h :)

theorem State.StackFrame.fill (h : s.StackFrame t) : s.FillFrame t := Eq.trans h (by rw [h])

theorem State.fillFrame_mscAlloc (a : LAddr) (age : Nat) (keep dirty last : Bool) (d : List W8) :
    s.FillFrame (s.mscAlloc a age keep dirty last d) := by
  have hwrite (u : State) (p : Prop) [Decidable p] (b : LAddr) (d : List W8) :
      u.FillFrame (if p then u.stripeWrite b d else u) := by
    split
    next => exact (u.stackFrame_stripeWrite b d).fill
    next => exact rfl
  unfold State.mscAlloc
  dsimp only
  split
  next => exact hwrite ..
  next =>
    split
    next => exact .trans (t := s.setMsc _ _) rfl (hwrite ..)
    next => exact rfl

theorem State.fillFrame_t1Fill (a : LAddr) (h : Hint) (d : List W8) : s.FillFrame (s.t1Fill a h d) := by
  unfold State.t1Fill
  split
  next => exact State.fillFrame_mscAlloc ..
  next => exact State.fillFrame_mscAlloc ..
  next => exact rfl

/-- A read with `stream` enters nothing into the memory-side cache. -/
theorem State.t1Fill_stream (a : LAddr) (d : List W8) : s.t1Fill a .stream d = s := by
  rw [State.t1Fill, State.mscHint, ite_self]

theorem State.loadLine_of_miss (hregion : regionOf a.toNat = .t1) (h : s.OnlyInStack a) (hint : Hint) (held : Bool) :
    s.loadLine a hint held true = (s.t1Fill a hint (s.peek a.toNat 128), s.peek a.toNat 128) := by
  simp only [State.loadLine, hregion, State.t1Hit, h.cache, h.stripe, if_true]

theorem State.counted_of_miss (hregion : regionOf a.toNat = .t1) (h : s.OnlyInStack a) (hkind : q.kind = .rdOnce) :
    s.counted a q = s.bump (rg .mscCount (homeOf a.toNat).val) 63 32 1 := by
  have hcount : s.countAccess a = s := if_pos (by rw [h.uncounted]; exact Bool.or_true _)
  simp [State.counted, hkind, hcount, State.needsStack, hregion, h.cache, h.stripe]

theorem State.perform_rdOnce (hkind : q.kind = .rdOnce) (held : Bool) : s.perform a q held =
    let u := s.counted a q
    let r := u.loadLine a q.h held true
    (if u.poisoned a then r.1 else r.1.setLine a (r.1.line a), .respond 0 0 r.2 (u.poisoned a)) := by
  obtain ⟨r, v, hint, kind, time⟩ := q
  cases hkind
  rfl

/-- A read that its stack serves answers what the stack holds, and poison where the line is poisoned; it counts a miss, and at
most fills the memory-side cache. -/
theorem State.perform_of_miss (hregion : regionOf a.toNat = .t1) (h : s.OnlyInStack a) (hkind : q.kind = .rdOnce) (held : Bool) :
    ∃ t, s.perform a q held = (t, .respond 0 0 (s.peek a.toNat 128) (s.poisoned a)) ∧
      (s.bump (rg .mscCount (homeOf a.toNat).val) 63 32 1).FillFrame t ∧ (q.h = .stream → t.mem = s.mem) := by
  rw [State.perform_rdOnce hkind, State.counted_of_miss hregion h hkind]
  dsimp only
  rw [State.loadLine_of_miss hregion (h.bump (by decide) ..)]
  refine ⟨_, rfl, ?_, fun hstream => ?_⟩
  · split
    next => exact State.fillFrame_t1Fill ..
    next => exact .trans (State.fillFrame_t1Fill ..) rfl
  · rw [hstream, State.t1Fill_stream]
    split <;> rfl

theorem exec_t1Read {o : BurstOutcome} {x : Txn} (hx : (s.line a).txn = some x) (hphase : x.phase = .stack)
    (hup : s.tripped (t1Place a.toNat).2.1 = false) : ∃ held, exec (.t1Read a o) s =
      let u := s.burst a o
      let r := u.perform a x.req held
      .next (r.1.setLine a { r.1.line a with txn := some ⟨x.req, r.2, u.time (homeDie a.toNat)⟩ }) := by
  refine ⟨!((s.burst a o).line a).sharers.isEmpty || ((s.burst a o).line a).owner.isSome, congrArg Host.Outcome.next ?_⟩
  simp only [hx]
  exact if_neg (by rw [hphase, hup]; decide)

/-- A burst of a line that only its stack holds, and that the burst leaves so, gives the waiting read its bytes, or poison where
the line is then poisoned. -/
theorem leads_t1Read {o : BurstOutcome} {x : Txn} (hx : (s.line a).txn = some x) (hphase : x.phase = .stack)
    (hkind : x.req.kind = .rdOnce) (hregion : regionOf a.toNat = .t1) (hup : s.tripped (t1Place a.toNat).2.1 = false)
    (hu : s.burst a o = u) (h : u.OnlyInStack a) : Leads (.t1Read a o) s fun t =>
      (∃ y, (t.line a).txn = some y ∧ y.req = x.req ∧ y.phase = .respond 0 0 (u.peek a.toNat 128) (u.poisoned a)) ∧
      (u.bump (rg .mscCount (homeOf a.toNat).val) 63 32 1).FillFrame t ∧ (x.req.h = .stream → t.mem = u.mem) := by
  obtain ⟨held, hexec⟩ := exec_t1Read (o := o) hx hphase hup
  obtain ⟨t, hperform, hframe, hmem⟩ := State.perform_of_miss hregion h hkind held
  subst hu
  dsimp only at hexec
  rw [hperform] at hexec
  exact .intro hexec ⟨⟨_, congrArg Line.txn (State.line_setLine ..), rfl, rfl⟩, hframe.trans rfl, hmem⟩

end

/-! ## A rebuild (R436, R437) -/

section
variable {s : State} {j : Stack}

@[simp] theorem State.ledger_jahel (s : State) (e : LedgerEntry) : (s.ledger e).jahel = s.jahel := by
  unfold State.ledger; split <;> rfl

theorem State.ledgerPending_ledger (s : State) (e : LedgerEntry) : (s.ledger e).ledgerPending = s.ledgerPending ++ [e] := by
  unfold State.ledger; split <;> rfl

/-- The channel that a stack rebuilds. -/
def State.rebuildChan (s : State) (j : Stack) : W8 := BitVec.ofNat 8 (s.fget (rg .jsRebuild j.val) 31 24)

/-- The ledger entry of the spare that replaces the channel rebuilt. -/
def State.replacement (s : State) (j : Stack) : LedgerEntry :=
  ⟨0x04, BitVec.ofNat 5 (stackDie j).val, BitVec.ofNat 16 j.val, (s.rebuildChan j).setWidth 16, 2, 3,
    BitVec.ofNat 8 (s.fget (rg .jsRebuild j.val) 35 32), s.flash.coldStarts, s.time (stackDie j),
    match (s.stack j).failed.find? (·.chan = s.rebuildChan j) with | some f => f.seq | none => 0⟩

/-- The state after a rebuild's last position: its channel is no longer failed, its spare stands in the map, no rebuild is in
progress, and the ledger is to take an entry. -/
def State.rebuilt (s : State) (j : Stack) : State :=
  let r := rg .jsRebuild j.val
  let spare := s.fget r 35 32
  let t := (s.setStack j { s.stack j with failed := (s.stack j).failed.filter (·.chan ≠ s.rebuildChan j) }).fset
    (rg .jsSpareMap j.val) (8 * spare + 7) (8 * spare) (s.rebuildChan j).toNat
  ((((t.fset r 20 0 0).fset r 31 24 0xFF).fset r 35 32 0xF).fset (rg .jsStatus j.val) 12 12 0).ledger (s.replacement j)

theorem exec_rebuildStep (hspare : s.fget (rg .jsRebuild j.val) 35 32 < 8) (hup : s.tripped j = false)
    (halone : ∀ x ∈ s.downIn j (chanGroup (s.rebuildChan j)) (s.fget (rg .jsRebuild j.val) 20 0), x = s.rebuildChan j) :
    exec (.rebuildStep j) s = .next (if s.fget (rg .jsRebuild j.val) 20 0 + 1 < positions
      then s.fset (rg .jsRebuild j.val) 20 0 (s.fget (rg .jsRebuild j.val) 20 0 + 1) else (s.rebuilt j).nextRebuild j) := by
  have hothers : (s.downIn j (chanGroup (s.rebuildChan j)) (s.fget (rg .jsRebuild j.val) 20 0)).any
      (fun x => decide (x ≠ s.rebuildChan j)) = false := by simpa using halone
  unfold State.rebuildChan at hothers
  refine congrArg Host.Outcome.next ((if_neg ?_).trans ?_)
  · rw [hup, decide_eq_false (by omega)]
    decide
  · simp only [hothers, Bool.false_eq_true, if_false]
    rfl

theorem State.failed_rebuilt (h : ∀ f ∈ (s.stack j).failed, f.chan = s.rebuildChan j) :
    ((s.rebuilt j).stack j).failed = [] := by
  have hstack : (s.rebuilt j).stack j = { s.stack j with
      failed := (s.stack j).failed.filter (·.chan ≠ s.rebuildChan j) } :=
    (State.stack_congr (State.ledger_jahel ..) j).trans (State.stack_setStack ..)
  rw [hstack]
  simpa using h

theorem State.fget_rebuilt (hspare : s.fget (rg .jsRebuild j.val) 35 32 < 8) :
    (s.rebuilt j).fget (rg .jsSpareMap j.val) (8 * s.fget (rg .jsRebuild j.val) 35 32 + 7)
      (8 * s.fget (rg .jsRebuild j.val) 35 32) = (s.rebuildChan j).toNat ∧
    (s.rebuilt j).fget (rg .jsRebuild j.val) 35 32 = 0xF ∧ (s.rebuilt j).fget (rg .jsStatus j.val) 12 12 = 0 := by
  unfold State.rebuilt
  dsimp only
  simp only [State.fget_congr _ (State.ledger_regs ..)]
  refine ⟨?_, ?_, ?_⟩
  · rw [State.fget_fset_ne _ _ (rg_ne (by decide)), State.fget_fset_ne _ _ (rg_ne (by decide)),
      State.fget_fset_ne _ _ (rg_ne (by decide)), State.fget_fset_ne _ _ (rg_ne (by decide)),
      State.fget_fset_self _ _ (by omega) (by omega), Nat.add_assoc, Nat.add_sub_cancel_left]
    exact Nat.mod_eq_of_lt (s.rebuildChan j).isLt
  · rw [State.fget_fset_ne _ _ (rg_ne (by decide)), State.fget_fset_self _ _ (by decide) (by decide)]
    rfl
  · rw [State.fget_fset_self _ _ (by decide) (by decide)]
    rfl

/-! ## The outcome of a declared failure (R435, R438) -/

theorem State.freeSpare_zero (hfailed : (s.stack j).failed = []) (hspare : s.fget (rg .jsSpareMap j.val) 7 0 = 0xFF) :
    s.freeSpare j = some 0 := by
  rw [State.freeSpare, hfailed]
  exact List.find?_cons_of_pos (l := [1, 2, 3, 4, 5, 6, 7]) (by simpa using hspare)

theorem State.freeSpare_none (hused : ∀ i : Fin 8, s.fget (rg .jsSpareMap j.val) (8 * i.val + 7) (8 * i.val) ≠ 0xFF) :
    s.freeSpare j = none := by
  refine List.find?_eq_none.2 fun i hi => ?_
  rw [decide_eq_false (hused ⟨i, List.mem_range.1 hi⟩)]
  exact Bool.false_ne_true

/-- Before the next rebuild starts, a channel declared failed where none was is the one failed channel of its stack. -/
theorem State.failed_noted (hfailed : (s.stack j).failed = []) (c : W8) (spare : Option Nat) :
    (((s.failNoted j c spare).spareNoted j spare).stack j).failed = [⟨c, spare, (s.die (stackDie j)).errSeq⟩] := by
  have hjahel : ((s.failNoted j c spare).spareNoted j spare).jahel = (s.failNoted j c spare).jahel := by
    unfold State.spareNoted
    split
    next => exact State.fset_jahel ..
    next => exact (State.setDegraded_jahel ..).trans (State.fset_jahel ..)
  rw [State.stack_congr hjahel, State.failNoted, State.stack_congr (State.bump_jahel ..), State.stack_setStack, hfailed,
    List.nil_append]

theorem State.fget_jsRebuild_noted (c : W8) (spare : Option Nat) (hi lo : Nat) :
    ((s.failNoted j c spare).spareNoted j spare).fget (rg .jsRebuild j.val) hi lo = s.fget (rg .jsRebuild j.val) hi lo := by
  have hnoted : (s.failNoted j c spare).fget (rg .jsRebuild j.val) hi lo = s.fget (rg .jsRebuild j.val) hi lo :=
    (State.fget_bump_ne _ _ (rg_ne (by decide))).trans (State.fget_logErr_ne _ _ hi lo (rg_ne (by decide)))
  refine Eq.trans ?_ hnoted
  unfold State.spareNoted
  split
  next => exact State.fget_fset_ne _ _ (rg_ne (by decide))
  next =>
    refine (State.fget_setDegraded_ne _ _ _ hi lo (rg_ne (by decide))).trans ?_
    exact State.fget_fset_ne _ _ (rg_ne (by decide))

theorem State.rebuildStarted_jahel (f : FailedChan) : (s.rebuildStarted j f).jahel = s.jahel := by
  simp only [State.rebuildStarted, State.fset_jahel]

/-- What a rebuild that starts shows: its spare, its channel, its first position, and that it is in progress (R436, R456). -/
theorem State.fget_rebuildStarted (f : FailedChan) :
    (s.rebuildStarted j f).fget (rg .jsRebuild j.val) 35 32 = f.spare.getD 0xF % 16 ∧
    (s.rebuildStarted j f).fget (rg .jsRebuild j.val) 31 24 = f.chan.toNat ∧
    (s.rebuildStarted j f).fget (rg .jsRebuild j.val) 20 0 = 0 ∧
    (s.rebuildStarted j f).fget (rg .jsStatus j.val) 12 12 = 1 := by
  unfold State.rebuildStarted
  refine ⟨?_, ?_, ?_, ?_⟩
  · rw [State.fget_fset_ne _ _ (rg_ne (by decide)), State.fget_fset_self _ _ (by decide) (by decide)]
    rfl
  · rw [State.fget_fset_ne _ _ (rg_ne (by decide)), State.fget_fset_of_disjoint _ _ (by decide) (by decide) (by decide),
      State.fget_fset_self _ _ (by decide) (by decide)]
    exact Nat.mod_eq_of_lt f.chan.isLt
  · rw [State.fget_fset_ne _ _ (rg_ne (by decide)), State.fget_fset_of_disjoint _ _ (by decide) (by decide) (by decide),
      State.fget_fset_of_disjoint _ _ (by decide) (by decide) (by decide), State.fget_fset_self _ _ (by decide) (by decide)]
    rfl
  · rw [State.fget_fset_self _ _ (by decide) (by decide)]
    rfl

variable {c : W8}

/-- Firmware's command and the logic layer's report both declare the channel failed (R434). -/
theorem leads_declareFailed {P : State → Prop} (h : P (s.declareFailed j c)) :
    Leads (.jsFailGo j c) s P ∧ Leads (.channelFaultReport j c) s P := ⟨.intro rfl h, .intro rfl h⟩

/-- The first failed channel takes spare 0, and its rebuild starts (R435). -/
theorem State.declareFailed_first (hc : c.toNat < 0x88) (hfailed : (s.stack j).failed = [])
    (hspare : s.fget (rg .jsSpareMap j.val) 7 0 = 0xFF) (hidle : s.fget (rg .jsRebuild j.val) 35 32 = 0xF) :
    (((s.declareFailed j c).stack j).failed = [⟨c, some 0, (s.die (stackDie j)).errSeq⟩]) ∧
    (s.declareFailed j c).fget (rg .jsRebuild j.val) 35 32 = 0 ∧
    (s.declareFailed j c).fget (rg .jsRebuild j.val) 31 24 = c.toNat ∧
    (s.declareFailed j c).fget (rg .jsRebuild j.val) 20 0 = 0 ∧ (s.declareFailed j c).fget (rg .jsStatus j.val) 12 12 = 1 := by
  have hnoted := State.failed_noted hfailed c (some 0)
  rw [State.declareFailed_new hc (by rw [hfailed]; rfl), State.freeSpare_zero hfailed hspare,
    State.nextRebuild_starts (f := ⟨c, some 0, (s.die (stackDie j)).errSeq⟩) ((State.fget_jsRebuild_noted ..).trans hidle)
      (by rw [hnoted]; rfl), State.stack_congr (State.rebuildStarted_jahel _)]
  exact ⟨hnoted, State.fget_rebuildStarted _⟩

/-- With all spares used a failed channel has none, and the stack is degraded (R438). -/
theorem State.declareFailed_unspared (hc : c.toNat < 0x88) (hfailed : (s.stack j).failed = [])
    (hused : ∀ i : Fin 8, s.fget (rg .jsSpareMap j.val) (8 * i.val + 7) (8 * i.val) ≠ 0xFF) :
    (((s.declareFailed j c).stack j).failed = [⟨c, none, (s.die (stackDie j)).errSeq⟩]) ∧
    (s.declareFailed j c).fget (rg .jsStatus j.val) 11 11 = 1 := by
  have hnoted := State.failed_noted hfailed c none
  rw [State.declareFailed_new hc (by rw [hfailed]; rfl), State.freeSpare_none hused,
    State.nextRebuild_of_none (by rw [hnoted]; rfl)]
  refine ⟨hnoted, (State.fget_setDegraded_ne _ _ _ 11 11 (rg_ne (by decide))).trans ?_⟩
  rw [State.fget_fset_self _ _ (by decide) (by decide)]
  rfl

end

end Sys2Proof.Machine

namespace Sys2Proof.Proofs

open Sys2Proof.Machine

/-- Settles O43: each event of a stack is the case that it meets; a read is served in the state that its burst leaves. -/
theorem stacksAndTheirChannels : Obligations.StacksAndTheirChannels := by
  unfold Obligations.StacksAndTheirChannels
  refine ⟨fun j temp s => ?temperature, fun a o s x hx hphase hkind hregion hcache hstripe hup hdown huncounted => ?read,
    fun j ix s e a d hm he hlines hlen hup hcursor hdue => ?retire, fun j chan s hchan hfailed => ?failure,
    fun j s hspare hup halone => ?rebuild, fun j s hup hscrub => ?scrub⟩
  case temperature =>
    exact .intro (exec_stackTemperatureReport temp) (State.fget_reported temp)
  case read =>
    have hstack : s.OnlyInStack a := ⟨hcache, hstripe, huncounted⟩
    refine ⟨fun hwrong hinverted hclean => ?clean, fun hwrong hsecond => ?second, fun hwrong hsecond hothers => ?alone⟩
    case clean =>
      obtain ⟨t, hexec, htxn, -, hmem⟩ := leads_t1Read hx hphase hkind hregion hup (State.burst_clean hdown hwrong hinverted)
        (hstack.bump (by decide) ..)
      rw [State.poisoned_congr (s.bump_poison ..) hregion, hclean] at htxn
      exact .intro hexec ⟨htxn, hmem⟩
    case second =>
      obtain ⟨honly, hpoisoned⟩ := State.burst_second_poisons hstack hregion hdown hwrong hsecond
      obtain ⟨t, hexec, ⟨y, hy, -, hresponds⟩, hframe, -⟩ := leads_t1Read hx hphase hkind hregion hup rfl honly
      rw [hpoisoned] at hresponds
      refine .intro hexec ⟨?_, y, _, hy, hresponds⟩
      exact (State.poisoned_congr (hframe.poison.trans (State.bump_poison ..)) hregion).trans hpoisoned
    case alone =>
      obtain ⟨honly, hcount⟩ := State.burst_alone_counts hstack hdown hwrong hsecond hothers
      obtain ⟨t, hexec, -, hframe, -⟩ := leads_t1Read hx hphase hkind hregion hup rfl honly
      refine .intro hexec ((State.fget_congr _ hframe.regs).trans ?_)
      exact (State.fget_bump_ne _ _ (rg_ne (by decide))).trans hcount
  case retire =>
    have hmem : (s.retire j e).mem = (s.poke a.toNat d).mem := State.retire_mem_of_single hlines
    refine .intro (exec_stripeRetire he hup hcursor hdue) ⟨?_, State.not_mem_stripes_retire e, fun b hb => ?_⟩
    · rw [State.peek, hmem, ← hlen]
      exact State.peek_poke_self hm a.toNat d
    · rw [hmem]
      exact Memory.read_writeBytes_out hm a.toNat b d (hlen ▸ hb)
  case failure =>
    exact ⟨fun hspare hidle => leads_declareFailed (State.declareFailed_first hchan hfailed hspare hidle),
      fun hused => leads_declareFailed (State.declareFailed_unspared hchan hfailed hused)⟩
  case rebuild =>
    have hexec := exec_rebuildStep hspare hup halone
    refine ⟨fun hmore => hexec.trans (by rw [if_pos hmore]), fun hlast hall => ?_⟩
    have hnone := State.failed_rebuilt hall
    obtain ⟨hmap, hidle, hdone⟩ := State.fget_rebuilt hspare
    rw [if_neg (Nat.not_lt.2 hlast), State.nextRebuild_of_none (by rw [hnone]; rfl)] at hexec
    refine .intro hexec ⟨hnone, hmap, hidle, hdone, ?_⟩
    exact (congrArg List.length (State.ledgerPending_ledger ..)).trans List.length_append
  case scrub =>
    refine congrArg Host.Outcome.next (if_neg ?_)
    rw [hup, decide_eq_false hscrub]
    decide

end Sys2Proof.Proofs
end

section
/-! SUPPORT of the copy engines' rings: what the accesses of engines, the ends of fills and the commands of the security engine
leave of every ring. -/

namespace Sys2Proof.Machine

/-! ## The rings (R480, R484, R499) -/

/-- What a state has of the copy engines: their flights and doorbells, and the words of `CE_CTL` and `CE_STATUS` of each. -/
structure RingView where
  copy : Tbl CopyEng CopySt
  ctl : CopyEng → W64
  status : CopyEng → W64

/-- The rings as a state has them. -/
def State.rings (s : State) : RingView := ⟨s.copy, fun e => s.reg (rg .ceCtl e.val), fun e => s.reg (rg .ceStatus e.val)⟩

theorem rings_of_eq {β : Type} {x : State × β} {t : State} {b : β} {v : RingView} (h : x.1.rings = v) (hx : x = (t, b)) :
    t.rings = v := by
  rw [hx] at h
  exact h

theorem rings_ite {p : Prop} [Decidable p] {s t : State} {v : RingView} (hs : s.rings = v) (ht : t.rings = v) :
    (if p then s else t).rings = v := by
  split
  next => exact hs
  next => exact ht

section
variable {s t : State}

/-- A field set to a number that fits it reads as that number. -/
theorem State.fget_fset_of_lt {r : Reg} {hi lo n : Nat} (hlo : lo ≤ hi) (hhi : hi < 64) (hn : n < 2 ^ (hi + 1 - lo)) :
    (s.fset r hi lo n).fget r hi lo = n := (s.fget_fset_self n hlo hhi).trans (Nat.mod_eq_of_lt hn)

theorem State.rings_congr (hcopy : t.copy = s.copy) (hregs : t.regs = s.regs) : t.rings = s.rings := by
  simp only [State.rings, State.reg, hcopy, hregs]

theorem State.FillFrame.rings (h : s.FillFrame t) : t.rings = s.rings := (congrArg State.rings h :)

theorem State.ce_of_rings (h : t.rings = s.rings) (e : CopyEng) : t.ce e = s.ce e := by
  have hcopy : t.copy = s.copy := congrArg RingView.copy h
  rw [State.ce, State.ce, hcopy]

theorem State.fget_ceCtl_of_rings (h : t.rings = s.rings) (e : CopyEng) (hi lo : Nat) :
    t.fget (rg .ceCtl e.val) hi lo = s.fget (rg .ceCtl e.val) hi lo :=
  congrArg (bits · hi lo) (congrFun (congrArg RingView.ctl h) e)

theorem State.fget_ceStatus_of_rings (h : t.rings = s.rings) (e : CopyEng) (hi lo : Nat) :
    t.fget (rg .ceStatus e.val) hi lo = s.fget (rg .ceStatus e.val) hi lo :=
  congrArg (bits · hi lo) (congrFun (congrArg RingView.status h) e)

end

section
variable (s : State)

theorem State.setReg_rings {r : Reg} (hctl : r.kind ≠ .ceCtl) (hstatus : r.kind ≠ .ceStatus) (w : W64) :
    (s.setReg r w).rings = s.rings := by
  have hne (k : RegKind) (hk : r.kind ≠ k) (n : Nat) : rg k n ≠ r := fun e => hk (congrArg Reg.kind e).symm
  simp only [State.rings, State.reg_setReg_ne _ _ (hne _ hctl _), State.reg_setReg_ne _ _ (hne _ hstatus _)]
  rfl

@[simp] theorem State.updCtx_rings (c : Cx) (g : Context → Context) : (s.updCtx c g).rings = s.rings := rfl
@[simp] theorem State.dropWalks_rings (r : Requester) : (s.dropWalks r).rings = s.rings := rfl
@[simp] theorem State.emit_rings (m : OutMsg) : (s.emit m).rings = s.rings := rfl
@[simp] theorem State.poke_rings (a : Nat) (bs : List W8) : (s.poke a bs).rings = s.rings := rfl

@[simp] theorem State.bump_mscCount_rings (i hi lo n : Nat) : (s.bump (rg .mscCount i) hi lo n).rings = s.rings :=
  s.setReg_rings (r := rg .mscCount i) nofun nofun _

@[simp] theorem State.msi_rings (a : W64) (d : W32) : (s.msi a d).rings = s.rings := by
  unfold State.msi; split <;> rfl

@[simp] theorem State.logErr_rings (d : Die) (e : ErrRec) : (s.logErr d e).rings = s.rings := by
  unfold State.logErr
  dsimp only
  split
  next => rfl
  next =>
    split
    next => exact (s.setDie d _).setReg_rings (r := rg .errStatus) nofun nofun _
    next => rfl

/-! ## Lines at their homes (R324, R442 to R447) -/

@[simp] theorem State.mscAlloc_rings (a : LAddr) (age : Nat) (keep dirty last : Bool) (d : List W8) :
    (s.mscAlloc a age keep dirty last d).rings = s.rings := (State.fillFrame_mscAlloc ..).rings

@[simp] theorem State.t1Fill_rings (a : LAddr) (h : Hint) (d : List W8) : (s.t1Fill a h d).rings = s.rings :=
  (State.fillFrame_t1Fill ..).rings

@[simp] theorem State.t1Store_rings (a : LAddr) (h : Hint) (d : List W8) : (s.t1Store a h d).rings = s.rings := by
  unfold State.t1Store
  dsimp only
  split
  next => exact s.bump_mscCount_rings ..
  next =>
    split
    next => exact s.mscAlloc_rings ..
    next => exact s.mscAlloc_rings ..
    next => exact s.mscAlloc_rings ..
    next => exact (s.stackFrame_stripeWrite a d).fill.rings

@[simp] theorem State.storeLine_rings (a : LAddr) (h : Hint) (d : List W8) : (s.storeLine a h d).rings = s.rings := by
  unfold State.storeLine
  split
  next => exact s.t1Store_rings ..
  next => rfl
  next => rfl

@[simp] theorem State.homeWrite_rings (a : Nat) (bs : List W8) : (s.homeWrite a bs).rings = s.rings := by
  refine foldl_keeps (P := fun t : State => t.rings = s.rings) _ _ s rfl fun t l ht => ?_
  dsimp only
  split
  next => exact ht
  next =>
    split
    next => exact ht
    next =>
      split
      next => exact ht
      next => exact (State.storeLine_rings ..).trans ht

@[simp] theorem State.physWrite_rings (pa : PAddr) (bs : List W8) : (s.physWrite pa bs).rings = s.rings := by
  unfold State.physWrite
  split
  next => exact s.homeWrite_rings ..
  next => exact foldl_keeps (P := fun t : State => t.rings = s.rings) _ _ s rfl fun t l ht => ht

@[simp] theorem State.spdTouch_rings (a n : Nat) : (s.spdTouch a n).rings = s.rings := by
  refine s.spdTouch_keeps (P := fun t => t.rings = s.rings) a n (fun _ _ h => h) (fun t lc hi lo n v _ _ h => ?_) rfl
  have hecc (u : State) (w : W64) : (u.setReg (rg .coreSpdEcc lc) w).rings = u.rings :=
    u.setReg_rings (r := rg .coreSpdEcc lc) nofun nofun w
  rw [State.logErr_rings, State.fset, hecc, State.bump, State.fset, hecc, h]

@[simp] theorem State.countAccess_rings (a : LAddr) : (s.countAccess a).rings = s.rings := by
  unfold State.countAccess
  dsimp only
  split
  next => rfl
  next =>
    split
    next => rfl
    next =>
      split
      next => exact State.setReg_rings _ (r := rg .xltStatus) nofun nofun _
      next =>
        refine (State.msi_rings ..).trans ((State.setReg_rings _ (r := rg .xltEqHead) nofun nofun _).trans ?_)
        exact State.physWrite_rings ..

@[simp] theorem State.loadLine_rings (a : LAddr) (h : Hint) (held fromStack : Bool) :
    (s.loadLine a h held fromStack).1.rings = s.rings := by
  have hhit (x : State × List W8) (hx : s.t1Hit a h held = some x) : x.1.rings = s.rings := by
    unfold State.t1Hit at hx
    dsimp only at hx
    generalize s.mscHint a _ = h' at hx
    split at hx
    next =>
      split at hx
      next => cases hx; exact s.bump_mscCount_rings ..
      next => cases h' <;> (cases hx; exact s.bump_mscCount_rings ..)
    next =>
      split at hx
      next => cases hx; rfl
      next => cases hx
  unfold State.loadLine
  split
  next =>
    split
    next x hx => exact hhit x hx
    next => cases fromStack <;> [rfl; exact s.t1Fill_rings ..]
  next => exact s.spdTouch_rings ..
  next => rfl

/-! ## Engines' accesses (R322, R360, R370) -/

@[simp] theorem State.counted_rings (a : LAddr) (q : HomeReq) : (s.counted a q).rings = s.rings := by
  have hcount (t : State) (ht : t.rings = s.rings) :
      (if t.needsStack a q then t.bump (rg .mscCount (homeOf a.toNat).val) 63 32 1 else t).rings = s.rings :=
    rings_ite ((t.bump_mscCount_rings ..).trans ht) ht
  refine hcount _ ?_
  split
  next => rfl
  next => exact s.countAccess_rings a

@[simp] theorem State.setLine_rings (a : LAddr) (k : Line) : (s.setLine a k).rings = s.rings := rfl

@[simp] theorem State.spdWrite_rings (a : Nat) (bs : List W8) : (s.spdWrite a bs).rings = s.rings := rfl

/-- A partial write of a scratchpad line, word by word, discards those that meet an uncorrectable word (R754). -/
theorem State.spdWrites_rings (a : Nat) (lost : State → Nat → Prop) [∀ t w, Decidable (lost t w)]
    (bs : State → Nat → List W8) (ws : List Nat) :
    (ws.foldl (fun t w => if lost t w then t else t.spdWrite (a + 8 * w) (bs t w)) s).rings = s.rings :=
  foldl_keeps (P := fun t : State => t.rings = s.rings) _ ws s rfl fun t w h => by
    simpa [apply_ite State.rings] using h

@[simp] theorem State.perform_rings (a : LAddr) (q : HomeReq) (held : Bool) : (s.perform a q held).1.rings = s.rings := by
  have hcounted := s.counted_rings a q
  unfold State.counted at hcounted
  unfold State.perform
  dsimp only at hcounted ⊢
  generalize (if State.needsStack _ a q then _ else _ : State) = u at hcounted ⊢
  rw [← hcounted]
  obtain ⟨r, v, h, kind, time⟩ := q
  cases kind with
  | rdOnce => simp [apply_ite State.rings]
  | rdShared => simp [apply_ite State.rings]
  | rdUnique => simp [apply_ite State.rings]
  | wrLine d => exact State.storeLine_rings ..
  | wrPart m d =>
    dsimp only
    split
    next => exact u.spdWrites_rings ..
    next => simp [apply_ite Prod.fst, apply_ite State.rings]
  | atomic op off dbl w => simp [apply_ite Prod.fst, apply_ite State.rings]
  | evict d =>
    cases d with
    | none => rfl
    | some d =>
      dsimp only
      split
      next => exact State.storeLine_rings ..
      next => rfl

theorem State.engRead_rings (r : Requester) (a : LAddr) (h : Hint) : (s.engRead r a h).1.rings = s.rings := by
  unfold State.engRead
  dsimp only
  split
  next => rfl
  next =>
    split
    next => rfl
    next =>
      split
      next => rfl
      next =>
        split
        next hperform => exact rings_of_eq (s.perform_rings ..) hperform
        next hperform => exact rings_of_eq (s.perform_rings ..) hperform

theorem State.engWrite_rings (r : Requester) (a : LAddr) (h : Hint) (m : BitVec 128) (d : List W8) :
    (s.engWrite r a h m d).1.rings = s.rings := by
  unfold State.engWrite
  dsimp only
  generalize (if m = BitVec.allOnes 128 then TxnKind.wrLine d else .wrPart m d) = k
  split
  next => rfl
  next =>
    split
    next => rfl
    next =>
      split
      next => rfl
      next =>
        split
        next hperform => exact rings_of_eq (s.perform_rings ..) hperform
        next hperform => exact rings_of_eq (s.perform_rings ..) hperform

theorem State.readLine_rings (r : Requester) (line : PAddr) (h : Hint) : (s.readLine r line h).1.rings = s.rings := by
  unfold State.readLine
  split
  next => exact s.engRead_rings ..
  next => split <;> rfl

theorem State.writeLine_rings (r : Requester) (line : PAddr) (h : Hint) (m : BitVec 128) (d : List W8) :
    (s.writeLine r line h m d).1.rings = s.rings := by
  unfold State.writeLine
  split
  next => exact s.engWrite_rings ..
  next => split <;> rfl

theorem State.gather_rings (r : Requester) (h : Hint) (ps : List Piece) (s : State) : (s.gather r h ps).1.rings = s.rings := by
  induction ps generalizing s with
  | nil => rfl
  | cons p ps ih =>
    unfold State.gather
    split
    next t d hread =>
      have ht : t.rings = s.rings := rings_of_eq (s.readLine_rings ..) hread
      split
      next hrest => exact (rings_of_eq (ih t) hrest).trans ht
      next => exact (ih t).trans ht
    next hread => exact rings_of_eq (s.readLine_rings ..) hread

theorem State.scatter_rings (r : Requester) (h : Hint) (ps : List Piece) (bs : List W8) (s : State) :
    (s.scatter r h ps bs).1.rings = s.rings := by
  induction ps generalizing s bs with
  | nil => rfl
  | cons p ps ih =>
    unfold State.scatter
    split
    next t d hwrite => exact (ih _ t).trans (rings_of_eq (s.writeLine_rings ..) hwrite)
    next hwrite => exact rings_of_eq (s.writeLine_rings ..) hwrite

/-! ## The security engine (R644 to R659) -/

@[simp] theorem State.secDone_rings (code len : Nat) : (s.secDone code len).rings = s.rings :=
  s.setReg_rings (r := rg .secResult) nofun nofun _

@[simp] theorem State.extend_rings (i : Nat) (d : List W8) : (s.extend i d).rings = s.rings := rfl

@[simp] theorem State.logProgram_rings (d : BitVec 512) (label : W32) : (s.logProgram d label).rings = s.rings := by
  unfold State.logProgram; split <;> rfl

@[simp] theorem State.logWeight_rings (w : BitVec 512) (obj : W64) (slot : BitVec 6) :
    (s.logWeight w obj slot).rings = s.rings := by
  simp only [State.logWeight, apply_ite State.rings]
  exact (congrArg _ (ite_self _)).trans (ite_self _)

theorem State.signReport_rings (nonce : List W8) : (s.signReport nonce).1.rings = s.rings := by
  unfold State.signReport
  exact State.rings_congr rfl rfl

@[simp] theorem State.loadSlot_rings (i : Nat) (blob : List W8) : (s.loadSlot i blob).1.rings = s.rings := by
  obtain h | ⟨k, h⟩ : (s.loadSlot i blob).1 = s ∨ ∃ k, (s.loadSlot i blob).1 = s.setKeySlot i k := by
    grind [State.loadSlot]
  all_goals exact (congrArg State.rings h :)

theorem State.secFail_rings (x : EngRes) {t : State} (ht : t.rings = s.rings) : (s.secFail t x).rings = s.rings := by
  unfold State.secFail
  split
  next => rfl
  next => exact (t.secDone_rings ..).trans ht

theorem State.secPerform_rings (w : W64) : (s.secPerform w).rings = s.rings := by
  have hread {n : Nat} {t : State} {x : Except (PAddr × EngRes) (List W8)} (h : s.secRead n = (t, x)) : t.rings = s.rings :=
    rings_of_eq (State.gather_rings ..) h
  unfold State.secPerform
  dsimp only
  split
  next =>
    split
    next => exact s.secDone_rings ..
    next =>
      split
      next h => rw [State.secDone_rings, State.extend_rings, hread h]
      next h => exact s.secFail_rings _ (hread h)
  next =>
    split
    next => exact s.secDone_rings ..
    next =>
      split
      next h => rw [State.secDone_rings, State.logProgram_rings, hread h]
      next h => exact s.secFail_rings _ (hread h)
  next =>
    have hreport {n : List W8} {ps : List Piece} {bs : List W8} {t : State} {x : Option (PAddr × EngRes)}
        (h : (s.signReport n).1.scatter (.mgmt 0) .normal ps bs = (t, x)) : t.rings = s.rings :=
      (rings_of_eq (State.scatter_rings ..) h).trans (s.signReport_rings n)
    split
    next => exact s.secDone_rings ..
    next =>
      split
      next h => rw [State.secDone_rings, hreport h]
      next h => exact s.secFail_rings _ (hreport h)
  next =>
    split
    next h => rw [State.secDone_rings, State.loadSlot_rings, hread h]
    next h => exact s.secFail_rings _ (hread h)
  next =>
    split
    next =>
      exact (State.rings_congr (s := (s.setKeySlot _ none).fset (rg .secResult) 8 8 1) rfl rfl).trans
        (State.setReg_rings _ (r := rg .secResult) nofun nofun _)
    next => exact State.secDone_rings ..
  next => rfl

theorem State.clearEnds_rings : s.clearEnds.rings = s.rings := by
  unfold State.clearEnds
  split
  next => rfl
  next =>
    split
    next => rfl
    next =>
      refine foldl_keeps (P := fun t : State => t.rings = s.rings) _ _ _ (State.secDone_rings ..) fun t w h => ?_
      unfold State.secCommand
      split
      next => exact h
      next => exact (t.secPerform_rings w).trans h

/-! ## The ends of fills (R211, R213, R758) -/

theorem State.raise_rings (c : Cx) (e : Exc) (pc data det : W64) : (s.raise c e pc data det).rings = s.rings := by
  have hevent : (s.event c e.code pc data det).rings = s.rings := by
    unfold State.event
    split <;> rfl
  unfold State.raise
  dsimp only
  split <;> exact hevent

theorem State.extFillEnd_rings (l : LC) (id : W32) (slot : BitVec 4) (st : W8) :
    (s.extFillEnd l id slot st).rings = s.rings := by
  unfold State.extFillEnd
  split
  next =>
    dsimp only
    split
    next => exact s.raise_rings ..
    next => simp only [State.updCtx_rings, State.jAppend, State.poke64, State.poke_rings]
  next =>
    split
    next => rfl
    next =>
      split
      next => rfl
      next => exact s.physWrite_rings ..

/-! ## The end of a descriptor (R485, R488, R491) -/

/-- A descriptor has left the flight, and the completed count follows it. -/
def State.departed (s : State) (e : CopyEng) (d : CopyDesc) : State :=
  (s.setFlight e ((s.ce e).flight.filter (·.count ≠ d.count))).fset (rg .ceStatus e.val) 31 16 (d.count + 1).toNat

@[simp] theorem State.setCe_rings (e : CopyEng) (k : CopySt) :
    (s.setCe e k).rings = { s.rings with copy := Tbl.set s.rings.copy e k } := rfl

@[simp] theorem State.fset_ceStatus_rings (e : CopyEng) (hi lo v : Nat) : (s.fset (rg .ceStatus e.val) hi lo v).rings =
    { s.rings with status := fun e' => if e' = e then withBits (s.rings.status e) hi lo v else s.rings.status e' } := by
  have hctl (e' : CopyEng) : (s.fset (rg .ceStatus e.val) hi lo v).reg (rg .ceCtl e'.val) = s.reg (rg .ceCtl e'.val) :=
    s.reg_setReg_ne _ (rg_ne (by decide))
  have hstatus (e' : CopyEng) : (s.fset (rg .ceStatus e.val) hi lo v).reg (rg .ceStatus e'.val) =
      if e' = e then withBits (s.reg (rg .ceStatus e.val)) hi lo v else s.reg (rg .ceStatus e'.val) := by
    split
    next he => rw [he, State.fset, State.reg_setReg]
    next he => exact s.reg_setReg_ne _ fun h => he (Fin.ext (congrArg Reg.i h))
  simp only [State.rings, hctl, hstatus]
  rfl

theorem State.departed_rings_congr {t : State} (h : t.rings = s.rings) (e : CopyEng) (d : CopyDesc) :
    (t.departed e d).rings = (s.departed e d).rings := by
  simp only [State.departed, State.setFlight, State.fset_ceStatus_rings, State.setCe_rings, h, State.ce_of_rings h]

@[simp] theorem State.ce_fset (r : Reg) (hi lo v : Nat) (e : CopyEng) : (s.fset r hi lo v).ce e = s.ce e := rfl

@[simp] theorem State.fget_setCe (e : CopyEng) (k : CopySt) (r : Reg) (hi lo : Nat) :
    (s.setCe e k).fget r hi lo = s.fget r hi lo := rfl

@[simp] theorem State.ce_setFlight (e : CopyEng) (l : List CopyDesc) :
    (s.setFlight e l).ce e = { s.ce e with flight := l } := s.ce_setCe e _

theorem State.fget_ceCtl_departed (e : CopyEng) (d : CopyDesc) (hi lo : Nat) :
    (s.departed e d).fget (rg .ceCtl e.val) hi lo = s.fget (rg .ceCtl e.val) hi lo := by
  have hne : rg .ceCtl e.val ≠ rg .ceStatus e.val := rg_ne (by decide)
  simp only [State.departed, State.setFlight, State.fget_fset_ne _ _ hne]
  rfl

theorem State.complete_rings (e : CopyEng) (d : CopyDesc) : (s.complete e d).rings = (s.departed e d).rings := by
  unfold State.complete
  extract_lets +lift st drawn r cq a msi data bus recorded counted told filled logged
  have hdrawn : drawn.rings = s.rings := rings_ite rfl rfl
  have hrecorded : recorded.rings = s.rings :=
    rings_ite ((drawn.emit_rings _).trans hdrawn) ((drawn.physWrite_rings ..).trans hdrawn)
  have hcounted : counted.rings = (s.departed e d).rings := s.departed_rings_congr hrecorded e d
  have htold : told.rings = (s.departed e d).rings :=
    rings_ite hcounted (rings_ite ((counted.emit_rings _).trans hcounted) ((counted.msi_rings ..).trans hcounted))
  have hfilled : filled.rings = (s.departed e d).rings := by
    cases hfill : d.fill with
    | none => simpa only [filled, hfill] using htold
    | some x => simpa only [filled, hfill, State.extFillEnd_rings] using htold
  have hlogged : logged.rings = (s.departed e d).rings := rings_ite ((filled.logWeight_rings ..).trans hfilled) hfilled
  exact logged.clearEnds_rings.trans hlogged

theorem State.flight_complete (e : CopyEng) (d : CopyDesc) :
    ((s.complete e d).ce e).flight = (s.ce e).flight.filter (·.count ≠ d.count) := by
  rw [State.ce_of_rings (s.complete_rings e d), State.departed, State.ce_fset, State.ce_setFlight]

theorem State.fget_completed_complete (e : CopyEng) (d : CopyDesc) :
    (s.complete e d).fget (rg .ceStatus e.val) 31 16 = (d.count + 1).toNat := by
  rw [State.fget_ceStatus_of_rings (s.complete_rings e d), State.departed]
  exact State.fget_fset_of_lt (by decide) (by decide) (d.count + 1).isLt

theorem State.fget_ceCtl_complete (e : CopyEng) (d : CopyDesc) (hi lo : Nat) :
    (s.complete e d).fget (rg .ceCtl e.val) hi lo = s.fget (rg .ceCtl e.val) hi lo :=
  (State.fget_ceCtl_of_rings (s.complete_rings e d) ..).trans (s.fget_ceCtl_departed ..)

/-- A descriptor as an end of its ring ends it: with a status, where it has none (R495, R496). -/
def CopyDesc.endedBy (st : W8) (d : CopyDesc) : CopyDesc := if d.status.isSome then d else { d with status := some st }

@[simp] theorem CopyDesc.count_endedBy (st : W8) (d : CopyDesc) : (d.endedBy st).count = d.count := by
  unfold CopyDesc.endedBy
  split <;> rfl

/-- Descriptors that have all completed leave in flight those with other counts. -/
theorem State.flight_foldl_complete (e : CopyEng) (st : W8) (l : List CopyDesc) (s : State) :
    ((l.foldl (fun t d => t.complete e (d.endedBy st)) s).ce e).flight =
      (s.ce e).flight.filter fun x => decide (∀ d ∈ l, x.count ≠ d.count) := by
  induction l generalizing s with
  | nil => simp
  | cons d l ih => simp [ih, State.flight_complete, List.filter_filter, Bool.and_comm]

theorem State.flight_endAll (e : CopyEng) (st : W8) : ((s.endAll e st).ce e).flight = [] := by
  refine (State.flight_foldl_complete e st (s.ce e).flight s).trans (List.filter_eq_nil_iff.2 fun d hd => ?_)
  rw [decide_eq_true_eq]
  exact fun hother => hother d hd rfl

theorem State.fget_ceCtl_endAll (e : CopyEng) (st : W8) (hi lo : Nat) :
    (s.endAll e st).fget (rg .ceCtl e.val) hi lo = s.fget (rg .ceCtl e.val) hi lo :=
  foldl_keeps (P := fun t : State => t.fget (rg .ceCtl e.val) hi lo = s.fget (rg .ceCtl e.val) hi lo) _ _ s rfl
    fun t _ h => (t.fget_ceCtl_complete ..).trans h

end

end Sys2Proof.Machine
end

section
/-! PROOF of the copy engines' rings: the state that each command of an engine leaves, in the case that its ring is in. -/

namespace Sys2Proof.Machine

section
variable {s u v : State} {e : CopyEng} {d : CopyDesc}

/-! ## Fetching (R482, R484, R485) -/

theorem State.fget_busy_setFlight (l : List CopyDesc) :
    (s.setFlight e l).fget (rg .ceStatus e.val) 34 34 = if l.isEmpty then 0 else 1 := by
  rw [State.setFlight, State.fget_fset_self _ _ (by decide) (by decide)]
  split <;> rfl

/-- A descriptor checked keeps its count, words and refetches, and is valid when its tag is right. -/
theorem State.checkDesc_frame (hd : d.valid = false) : (s.checkDesc e d).count = d.count ∧ (s.checkDesc e d).words = d.words ∧
    (s.checkDesc e d).refetches = d.refetches ∧
    (s.checkDesc e d).valid = decide (bits (d.words.getD 7 0) 15 0 = d.count.toNat) := by
  unfold State.checkDesc
  split
  next htag => exact ⟨rfl, rfl, rfl, hd.trans (decide_eq_false htag).symm⟩
  next htag => exact ⟨rfl, rfl, rfl, (decide_eq_true (not_not.1 htag)).symm⟩

/-- A descriptor as it has just been fetched. -/
def State.fetched (s : State) (e : CopyEng) (n : W16) (ws : List W64) : CopyDesc :=
  s.checkDesc e ⟨n, ws, 0, s.time (ceDie e), false, false, [], [], 0, none, none, none, []⟩

theorem State.fetched_frame (s : State) (e : CopyEng) (n : W16) (ws : List W64) : (s.fetched e n ws).count = n ∧
    (s.fetched e n ws).words = ws ∧ (s.fetched e n ws).valid = decide (bits (ws.getD 7 0) 15 0 = n.toNat) := by
  obtain ⟨hcount, hwords, -, hvalid⟩ := State.checkDesc_frame (s := s) (e := e)
    (d := ⟨n, ws, 0, s.time (ceDie e), false, false, [], [], 0, none, none, none, []⟩) rfl
  exact ⟨hcount, hwords, hvalid⟩

theorem exec_descriptorFetch {n : W16} {ws : List W64} (hn : n = BitVec.ofNat 16 (s.fget (rg .ceStatus e.val) 15 0))
    (hrun : s.ceHalted e = false) (hlimit : n ≠ (s.ce e).limit) (hflight : (s.ce e).flight = [])
    (hfetch : s.fetchWords e n = some (u, ws)) : exec (.descriptorFetch e) s =
      .next ((u.setFlight e ((u.ce e).flight ++ [u.fetched e n ws])).fset (rg .ceStatus e.val) 15 0 (n + 1).toNat) := by
  subst hn
  refine congrArg Host.Outcome.next ((if_neg ?_).trans ?_)
  · simp [hrun, hlimit, hflight]
  · simp only [hfetch]
    rfl

/-- A descriptor as it has been fetched again. -/
def State.refetched (s : State) (e : CopyEng) (d : CopyDesc) (ws : List W64) (now : W64) : CopyDesc :=
  s.checkDesc e { d with words := ws, refetches := d.refetches + 1, at_ := now }

theorem State.refetched_frame (hvalid : d.valid = false) (ws : List W64) (now : W64) :
    (s.refetched e d ws now).count = d.count ∧ (s.refetched e d ws now).words = ws ∧
    (s.refetched e d ws now).refetches = d.refetches + 1 ∧
    (s.refetched e d ws now).valid = decide (bits (ws.getD 7 0) 15 0 = d.count.toNat) :=
  State.checkDesc_frame (d := { d with words := ws, refetches := d.refetches + 1, at_ := now }) hvalid

theorem exec_descriptorRefetch {ws : List W64} (hrun : s.ceHalted e = false) (hflight : (s.ce e).flight = [d])
    (hvalid : d.valid = false) (hstatus : d.status = none) (hdue : 1000 ≤ (s.time (ceDie e) - d.at_).toNat)
    (hfetch : s.fetchWords e d.count = some (u, ws)) : exec (.descriptorRefetch e) s =
      let x := u.refetched e d ws (s.time (ceDie e))
      .next (if !x.valid && decide (16 ≤ x.refetches) then
        (u.setDesc e { x with status := some 0x04 }).fset (rg .ceStatus e.val) 32 32 1 else u.setDesc e x) := by
  have hfind : (s.ce e).flight.find? (fun d => !d.valid && d.status.isNone) = some d := by
    simp [hflight, hvalid, hstatus]
  refine congrArg Host.Outcome.next ?_
  simp only [hfind]
  refine (if_neg ?_).trans ?_
  · rw [hrun, decide_eq_false (Nat.not_lt.2 hdue)]
    decide
  · simp only [hfetch]
    rfl

theorem State.flight_setDesc {x : CopyDesc} (hflight : (s.ce e).flight = [d]) (hcount : x.count = d.count) :
    ((s.setDesc e x).ce e).flight = [x] := by
  simp [State.setDesc, hflight, hcount]

/-! ## Commands on a descriptor (R481, R485, R487) -/

/-- A descriptor without a slot or a fence starts at once, unless it is to be decrypted. -/
theorem State.copyStep_starts {op : Nat} {move : State → CopyDesc → Nat → State} (hop : d.op = op) (hplain : op ≠ 2)
    (hfind : (s.ce e).flight.find? (·.count = d.count) = some d) (hvalid : d.valid = true) (hstatus : d.status = none)
    (hstarted : d.started = false) (hslot : d.slotEn = false) (hfence : (d.w 0).getLsbD 12 = false) :
    s.copyStep e d.count op move = s.setDesc e { d with started := true } := by
  have hstart : s.startDesc e d = s.setDesc e { d with started := true } := if_pos (by simp [hop, hplain, hslot])
  have hstep : s.copyStep e d.count op move = s.startDesc e d := by
    simp only [State.copyStep, hfind, hop, hvalid, hstatus, hstarted, hfence]
    simp
  exact hstep.trans hstart

theorem State.copyStep_moves {op i : Nat} {move : State → CopyDesc → Nat → State} (hop : d.op = op)
    (hfind : (s.ce e).flight.find? (·.count = d.count) = some d) (hvalid : d.valid = true) (hstatus : d.status = none)
    (hnext : d.started = true ∧
      (List.range d.segs).find? (fun i => !d.okSegs.contains i && !d.badSegs.contains i) = some i) :
    s.copyStep e d.count op move = move s d i := by
  obtain ⟨hstarted, hi⟩ := hnext
  simp only [State.copyStep, hfind, hop, hvalid, hstatus, hstarted, hi]
  simp

theorem State.moveSegment_copied {i : Nat} {bs x : List W8} (hop : d.op ≠ 3)
    (hread : s.ceRead e d.srcSpace (d.w 1 + BitVec.ofNat 64 (i * d.seg)) (min d.seg (d.len - i * d.seg))
      (hint2 (bits (d.w 0) 9 8)) = .ok u bs)
    (hwrite : u.ceWrite e d.dstSpace (d.w 2 + BitVec.ofNat 64 (i * d.seg)) bs (hint2 (bits (d.w 0) 11 10)) = .ok v x) :
    s.moveSegment e d i = v.setDesc e (d.okSegsAdd [i]) := by
  simp only [State.moveSegment, if_neg hop, hread, hwrite]

theorem State.moveSegment_filled {i : Nat} {x : List W8} (hop : d.op = 3)
    (hwrite : s.ceWrite e d.dstSpace (d.w 2 + BitVec.ofNat 64 (i * d.seg)) ((List.range (min d.seg (d.len - i * d.seg))).map
      fun j => (leBytes 8 (d.w 4).toNat).getD (j % 8) 0) (hint2 (bits (d.w 0) 11 10)) = .ok v x) :
    s.moveSegment e d i = v.setDesc e (d.okSegsAdd [i]) := by
  simp only [State.moveSegment, if_pos hop, hwrite]

/-! ## Decryption (R493, R494) -/

theorem State.decryptSegment_keyless (hkey : d.key = none) (i : Nat) :
    s.decryptSegment e d i = s.setDesc e (d.failSegs (List.range d.segs) 0x17) := by
  simp only [State.decryptSegment, hkey]

/-- A descriptor of one chunk has segments of 4,096 bytes, 16 at most (R487). -/
theorem CopyDesc.seg_of_chunk (hlen : d.len ≤ 65536) : d.seg = 4096 ∧ d.segs ≤ 16 := by
  have hseg : d.seg = 4096 := by
    rw [CopyDesc.seg, List.range_succ_eq_map, List.map_cons, List.find?_cons_of_pos (by simp; omega)]
    rfl
  exact ⟨hseg, by rw [CopyDesc.segs, hseg]; omega⟩

/-- The bytes that the only chunk of a descriptor opens to, where its tag is right. -/
def CopyDesc.opened (d : CopyDesc) (key : BitVec 256) (bs : List W8) : Option (List W8) :=
  Config.gcmOpen key (BitVec.ofNat 96 ((d.w 5).toNat * 2 ^ 32)) [] (bs.take d.len) (bs.drop d.len)

/-- The descriptor once that chunk has been written. -/
def CopyDesc.decrypted (d : CopyDesc) (key : BitVec 256) (bs : List W8) : CopyDesc :=
  let d' := { d with tags := d.tags ++ bs.drop d.len }
  if (d.opened key bs).isNone then d'.failSegs (d.touched 0 d.len) 0x14 else d'

theorem State.moveChunk_only {key : BitVec 256} {bs x : List W8} (hlen : d.len ≤ 65536)
    (hread : s.ceRead e d.srcSpace (d.w 1) (d.len + 16) (hint2 (bits (d.w 0) 9 8)) = .ok u bs)
    (hwrite : u.ceWrite e d.dstSpace (d.w 2) (fit d.len ((d.opened key bs).getD [])) (hint2 (bits (d.w 0) 11 10)) = .ok v x) :
    s.moveChunk e d key 0 = .ok (v, d.decrypted key bs) := by
  unfold CopyDesc.opened at hwrite
  simp only [State.moveChunk, Nat.mul_zero, Nat.zero_mul, Nat.sub_zero, Nat.min_eq_right hlen, BitVec.ofNat_eq_ofNat,
    BitVec.add_zero, hread, Nat.zero_mod, Nat.add_zero]
  split
  next h => cases h.symm.trans hwrite
  next h => cases h.symm.trans hwrite
  next h =>
    cases h.symm.trans hwrite
    rfl

theorem State.decryptSegment_only {key : BitVec 256} {x : CopyDesc} {i : Nat} (hkey : d.key = some key) (hpos : 0 < d.len)
    (hlen : d.len ≤ 65536) (hi : i < d.segs) (hchunk : s.moveChunk e d key 0 = .ok (v, x)) :
    s.decryptSegment e d i = v.setDesc e (x.okSegsAdd (d.touched 0 d.len)) := by
  obtain ⟨hseg, hsegs⟩ := CopyDesc.seg_of_chunk hlen
  have hfirst : i * 4096 / 65536 = 0 := by omega
  have hone : (d.len + 65535) / 65536 = 1 := by omega
  simp only [State.decryptSegment, hkey, hseg, Nat.reduceLeDiff, max_eq_right, hfirst, Nat.zero_mul, Nat.sub_zero,
    Nat.min_eq_right hlen, hone]
  simp [List.range_one, hchunk]

/-! ## Timeouts, ends and resets (R485, R488, R489, R495) -/

theorem exec_pcieCompletionTimeout {seg : Fin 64} (hfind : (s.ce e).flight.find? (·.count = d.count) = some d)
    (hstatus : d.status = none) (hspace : d.srcSpace = 2) (hop : d.op ≠ 3) (hstarted : d.started = true)
    (hseg : seg.val < d.segs) (hok : seg.val ∉ d.okSegs) (hbad : seg.val ∉ d.badSegs) :
    exec (.pcieCompletionTimeout e d.count seg) s = .next (s.setDesc e (d.failSegs [seg.val] 0x16)) := by
  refine congrArg Host.Outcome.next ?_
  simp only [hfind]
  exact if_neg (by simp [hspace, hop, hstarted, hstatus, hseg, hok, hbad])

theorem exec_descriptorComplete {rest : List CopyDesc} (hflight : (s.ce e).flight = d :: rest) (hsettled : d.settled = true) :
    exec (.descriptorComplete e) s = .next (s.complete e d) := by
  refine congrArg Host.Outcome.next ?_
  simp only [hflight, hsettled, if_true]

/-- A ring whose counts start anew (R495). -/
def State.restarted (s : State) (e : CopyEng) : State :=
  let start := s.fget (rg .ceCtl e.val) 31 16
  let r := rg .ceStatus e.val
  (((s.fset r 15 0 start).fset r 31 16 start).fset r 32 32 0).setCe e
    { s.ce e with limit := BitVec.ofNat 16 start, stopped := false }

theorem exec_ringReset (e : CopyEng) (s : State) :
    exec (.ringReset e) s = .next (((s.endAll e 0x06).dropWalks (.copyEngine e)).restarted e) := rfl

theorem State.ce_restarted : (s.restarted e).ce e =
    { s.ce e with limit := BitVec.ofNat 16 (s.fget (rg .ceCtl e.val) 31 16), stopped := false } := State.ce_setCe ..

theorem State.fget_restarted : (s.restarted e).fget (rg .ceStatus e.val) 15 0 = s.fget (rg .ceCtl e.val) 31 16 ∧
    (s.restarted e).fget (rg .ceStatus e.val) 31 16 = s.fget (rg .ceCtl e.val) 31 16 ∧
    (s.restarted e).fget (rg .ceStatus e.val) 32 32 = 0 := by
  have hstart : s.fget (rg .ceCtl e.val) 31 16 < 2 ^ 16 := Nat.mod_lt _ (by decide)
  rw [State.restarted, State.fget_setCe, State.fget_setCe, State.fget_setCe]
  refine ⟨?_, ?_, State.fget_fset_of_lt (by decide) (by decide) (by decide)⟩
  · rw [State.fget_fset_of_disjoint _ _ (by decide) (by decide) (by decide),
      State.fget_fset_of_disjoint _ _ (by decide) (by decide) (by decide)]
    exact State.fget_fset_of_lt (by decide) (by decide) hstart
  · rw [State.fget_fset_of_disjoint _ _ (by decide) (by decide) (by decide)]
    exact State.fget_fset_of_lt (by decide) (by decide) hstart

end

end Sys2Proof.Machine

namespace Sys2Proof.Proofs

open Sys2Proof.Machine

/-- Settles O45: each command is the case that its ring is in, and what an end of a descriptor does beside it leaves the rings. -/
theorem copyEngineRings : Obligations.CopyEngineRings := by
  unfold Obligations.CopyEngineRings
  refine ⟨fun e n s => ?doorbell, fun e s u ws hrun hlimit hflight hfetch hcopy => ?fetch,
    fun e s u d ws hrun hflight hvalid hstatus hdue hfetch hcopy => ?refetch, fun e s d hfind hvalid hstatus => ?command,
    fun e s d rest hflight hsettled => ?complete, fun e s => ?reset⟩
  case doorbell =>
    refine ⟨fun hen hfault hahead hroom => congrArg Host.Outcome.next (if_neg ?_),
      fun hignored => congrArg Host.Outcome.next (if_pos ?_)⟩
    · simp only [hen, hfault, Nat.ne_of_gt hahead, Nat.not_lt.2 hroom]
      decide
    · simpa only [Bool.or_eq_true, decide_eq_true_eq, or_assoc] using hignored
  case fetch =>
    obtain ⟨hcount, hwords, htag⟩ := u.fetched_frame e _ ws
    have hempty : (u.ce e).flight = [] := by rw [State.ce, hcopy]; exact hflight
    refine .intro (exec_descriptorFetch rfl hrun hlimit hflight hfetch) ⟨?_, ?_, _, ?_, hcount, hwords, htag⟩
    · exact State.fget_fset_of_lt (by decide) (by decide) (BitVec.isLt _)
    · rw [State.fget_fset_of_disjoint _ _ (by decide) (by decide) (by decide), State.fget_busy_setFlight, hempty]
      rfl
    · rw [State.ce_fset, State.ce_setFlight, hempty]
      rfl
  case refetch =>
    have hexec := exec_descriptorRefetch hrun hflight hvalid hstatus hdue hfetch
    obtain ⟨hcount, hwords, hrefetches, htag⟩ := State.refetched_frame (s := u) (e := e) hvalid ws (s.time (ceDie e))
    have hone : (u.ce e).flight = [d] := by rw [State.ce, hcopy]; exact hflight
    generalize u.refetched e d ws (s.time (ceDie e)) = x at hexec hcount hwords hrefetches htag
    refine .intro hexec ?_
    split
    next hlast =>
      refine ⟨{ x with status := some 0x04 }, ?_, hwords, hrefetches, htag, fun _ _ => ⟨rfl, ?_⟩⟩
      · rw [State.ce_fset]
        exact State.flight_setDesc hone hcount
      · exact State.fget_fset_of_lt (by decide) (by decide) (by decide)
    next hearly =>
      refine ⟨x, State.flight_setDesc hone hcount, hwords, hrefetches, htag, fun hwrong hmany => absurd ?_ hearly⟩
      rw [hwrong, hrefetches, decide_eq_true (Nat.succ_le_succ hmany)]
      rfl
  case command =>
    refine ⟨fun hop => ⟨fun hstarted hslot hfence => congrArg Host.Outcome.next ?copyStarts,
        fun i u bs v x hnext hread hwrite => congrArg Host.Outcome.next ?copies⟩,
      fun hop => ⟨fun hstarted hslot hfence => congrArg Host.Outcome.next ?fillStarts,
        fun i v x hnext hwrite => congrArg Host.Outcome.next ?fills⟩,
      fun hop => ⟨fun hkey i hnext => congrArg Host.Outcome.next ?keyless,
        fun i key u bs v x hnext hkey hpos hlen hread hwrite => congrArg Host.Outcome.next ?decrypts⟩,
      fun seg hspace hop hstarted => exec_pcieCompletionTimeout hfind hstatus hspace hop hstarted⟩
    case copyStarts => exact State.copyStep_starts hop (by decide) hfind hvalid hstatus hstarted hslot hfence
    case copies =>
      refine (State.copyStep_moves hop hfind hvalid hstatus hnext).trans ?_
      exact State.moveSegment_copied (by rw [hop]; decide) hread hwrite
    case fillStarts => exact State.copyStep_starts hop (by decide) hfind hvalid hstatus hstarted hslot hfence
    case fills =>
      refine (State.copyStep_moves hop hfind hvalid hstatus hnext).trans ?_
      exact State.moveSegment_filled hop hwrite
    case keyless =>
      refine (State.copyStep_moves hop hfind hvalid hstatus hnext).trans ?_
      exact State.decryptSegment_keyless hkey i
    case decrypts =>
      have hi : i < d.segs := List.mem_range.1 (List.mem_of_find?_eq_some hnext.right)
      refine (State.copyStep_moves hop hfind hvalid hstatus hnext).trans ?_
      exact State.decryptSegment_only hkey hpos hlen hi (State.moveChunk_only hlen hread hwrite)
  case complete =>
    refine .intro (exec_descriptorComplete hflight hsettled) ⟨?_, s.fget_completed_complete e d⟩
    simp [State.flight_complete, hflight]
  case reset =>
    have hrings := State.dropWalks_rings (s.endAll e 0x06) (.copyEngine e)
    have hce := State.ce_of_rings hrings e
    have hstart := (State.fget_ceCtl_of_rings hrings e 31 16).trans (s.fget_ceCtl_endAll e 0x06 31 16)
    obtain ⟨hnext, hcompleted, hfault⟩ :=
      State.fget_restarted (s := (s.endAll e 0x06).dropWalks (.copyEngine e)) (e := e)
    rw [hstart] at hnext hcompleted
    refine .intro (exec_ringReset e s) ⟨?_, ?_, ?_, hnext, hcompleted, hfault⟩ <;> rw [State.ce_restarted]
    · rw [hce, s.flight_endAll]
    · rw [hstart]

end Sys2Proof.Proofs
end

section
/-! SUPPORT of the links and the resets: a field of a register past writes of other fields, and what the records and the
summaries of a change of state leave. -/

namespace Sys2Proof.Machine

/-! ## A field of a register past a write of another (R13, R14) -/

section
variable (s : State) {r : Reg} {k k' : RegKind} {i j i' j' hi lo hi' lo' : Nat} (v : Nat)

theorem State.fget_fset_kind (h : k' ≠ k) :
    (s.fset (rg k i j) hi lo v).fget (rg k' i' j') hi' lo' = s.fget (rg k' i' j') hi' lo' := s.fget_fset_ne v (rg_ne h)

theorem State.fget_bump_kind (h : k' ≠ k) :
    (s.bump (rg k i j) hi lo v).fget (rg k' i' j') hi' lo' = s.fget (rg k' i' j') hi' lo' := s.fget_bump_ne v (rg_ne h)

theorem State.fget_bump_of_disjoint (hlo : lo ≤ hi) (hhi : hi < 64) (h : hi' < lo ∨ hi < lo') :
    (s.bump r hi lo v).fget r hi' lo' = s.fget r hi' lo' := s.fget_fset_of_disjoint _ hlo hhi h

/-- A count stops at all ones. -/
theorem State.fget_bump_self (hlo : lo ≤ hi) (hhi : hi < 64) :
    (s.bump r hi lo v).fget r hi lo = min (s.fget r hi lo + v) (2 ^ (hi + 1 - lo) - 1) := by
  have hpos : 0 < 2 ^ (hi + 1 - lo) := Nat.two_pow_pos _
  exact State.fget_fset_of_lt hlo hhi (by omega)

end

/-! ## What records and summaries leave (R593, R598, R702) -/

section
variable (s : State)

/-- A cause of degraded operation changes the registers, and alerts the management target at most. -/
theorem State.setDegraded_eq (n : Nat) (on : Bool) : s.setDegraded n on = { s with
    regs := (s.setDegraded n on).regs, out := (s.setDegraded n on).out
    pins := { s.pins with mgtAlert := (s.setDegraded n on).pins.mgtAlert } } := by
  obtain h | h := s.setDegraded_cases n on <;> rw [h]
  · rfl
  · unfold State.mgtAlert
    split <;> rfl

@[simp] theorem State.logErr_ledgerPending (d : Die) (e : ErrRec) : (s.logErr d e).ledgerPending = s.ledgerPending :=
  (congrArg State.ledgerPending (s.logErr_eq d e) :)

end

end Sys2Proof.Machine
end

section
/-! PROOF of the Chord connections: the state that each command of a connection leaves, in the case that it meets. -/

namespace Sys2Proof.Machine

section
variable {s : State} {d : Die} {n : Fin 6}

/-! ## What writes of registers and reports leave of the connections (R598) -/

@[simp] theorem State.fset_chd (r : Reg) (hi lo v : Nat) (d : Die) (n : Fin 6) : (s.fset r hi lo v).chd d n = s.chd d n := rfl
@[simp] theorem State.bump_chd (r : Reg) (hi lo v : Nat) (d : Die) (n : Fin 6) : (s.bump r hi lo v).chd d n = s.chd d n := rfl
@[simp] theorem State.emit_chd (m : OutMsg) (d : Die) (n : Fin 6) : (s.emit m).chd d n = s.chd d n := rfl
@[simp] theorem State.setDegraded_chd (k : Nat) (on : Bool) (d : Die) (n : Fin 6) : (s.setDegraded k on).chd d n = s.chd d n :=
  (congrArg (State.chd · d n) (s.setDegraded_eq k on) :)

/-! ## Flits (R501, R544) -/

theorem goBack_in_order (expect : W32) (discard : Option W32) (ok : Bool) : goBack expect discard expect ok =
    if ok then (expect + 1, none, false) else (expect, some expect, true) := if_neg (not_not.2 rfl)

theorem goBack_out_of_order {expect seq : W32} (h : seq ≠ expect) (discard : Option W32) (ok : Bool) :
    goBack expect discard seq ok = (expect, discard, false) := if_pos h

/-- A connection whose lanes are not shifting takes a flit in order: a good one raises the next number, and a corrupt one is
discarded, counted and asked for again. -/
theorem exec_chordFlitReceive_in_order (ok : Bool) (hready : (s.chd d n).remaps = []) :
    exec (.chordFlitReceive d n (s.chd d n).expect ok) s = .next (if ok
      then s.setChd d n { s.chd d n with expect := (s.chd d n).expect + 1, discard := none }
      else ((s.setChd d n { s.chd d n with discard := some (s.chd d n).expect }).bump (rg .chdErr d.val n.val) 23 0 1).emit
        (.chordResend d n (s.chd d n).expect)) := by
  refine congrArg Host.Outcome.next ((if_neg (by rw [hready]; decide)).trans ?_)
  rw [goBack_in_order]
  cases ok <;> rfl

/-! ## Failed wires (R546, R547) -/

/-- The first failed wire of a group shifts it onto its spare, after the failure has been counted, recorded and put down for the
ledger in a state `u`. -/
theorem State.wireFailed_shifts {wire : Nat} (retries : Nat) (hgroup : wire / 33 < chordGroups d n)
    (hactive : wire / 33 ∉ (s.chd d n).disabled) (hspare : wire / 33 ∉ (s.chd d n).spareUsed) :
    ∃ u : State, u.ledgerPending.length = s.ledgerPending.length + 1 ∧ s.wireFailed d n wire retries =
      ((u.setChd d n { s.chd d n with
          charges := (s.chd d n).charges.filter (·.1 ≠ wire)
          spareUsed := (s.chd d n).spareUsed ++ [wire / 33]
          remaps := (s.chd d n).remaps ++ [wire / 33] }).fset (rg .chdStatus d.val n.val) 17 12
        ((s.chd d n).spareUsed.length + 1)).fset (rg .chdStatus d.val n.val) 18 18 1 := by
  have hworks : ¬ (decide (chordGroups d n ≤ wire / 33) || decide (wire / 33 ∈ (s.chd d n).disabled)) = true := by
    simp [hgroup, hactive]
  refine ⟨_, ?_, (if_neg hworks).trans (if_neg (by simpa using hspare))⟩
  rw [State.ledgerPending_ledger, List.length_append, State.logErr_ledgerPending]
  rfl

/-- A failed wire of a group whose spare is in use disables the group. -/
theorem State.wireFailed_disables {wire : Nat} (retries : Nat) (hgroup : wire / 33 < chordGroups d n)
    (hactive : wire / 33 ∉ (s.chd d n).disabled) (hspare : wire / 33 ∈ (s.chd d n).spareUsed) :
    ∃ u : State, s.wireFailed d n wire retries =
      ((((u.setChd d n { s.chd d n with
          charges := (s.chd d n).charges.filter (·.1 ≠ wire)
          disabled := (s.chd d n).disabled ++ [wire / 33] }).bump (rg .chdErr d.val n.val) 39 32 1).fset
        (rg .chdStatus d.val n.val) 11 6 (u.fget (rg .chdStatus d.val n.val) 11 6 - 1)).fset
        (rg .chdStatus d.val n.val) 19 19 1).setDegraded 3 true := by
  have hworks : ¬ (decide (chordGroups d n ≤ wire / 33) || decide (wire / 33 ∈ (s.chd d n).disabled)) = true := by
    simp [hgroup, hactive]
  exact ⟨_, (if_neg hworks).trans (if_pos (by simpa using hspare))⟩

/-! ## Retries charged to a wire (R545) -/

theorem worstWire_lt {diff : List Nat} (h : diff.length ≤ 33) : worstWire diff < 33 := by
  refine List.foldlRecOn (motive := fun b : Nat × Nat => b.1 < 33) _ _ (by decide) fun b hb i hi => ?_
  split
  next => exact Nat.lt_of_lt_of_le (List.mem_range.1 hi) h
  next => exact hb

/-- The wire of a group that a resent flit's differences name. -/
def chargedWire (grp : Fin 48) (diff : List Nat) : Nat := 33 * grp.val + worstWire (diff.take 33)

theorem chargedWire_group (grp : Fin 48) (diff : List Nat) : chargedWire grp diff / 33 = grp.val := by
  have hlt : worstWire (diff.take 33) < 33 := worstWire_lt (List.length_take_le 33 diff)
  unfold chargedWire
  omega

/-- The retries of a connection that count with a new one of a wire: those of the last millisecond, and it. -/
def State.charged (s : State) (d : Die) (n : Fin 6) (wire : Nat) : List (Nat × W64) :=
  ((s.chd d n).charges.filter fun x => decide ((s.time d - x.2).toNat < 1000000)) ++ [(wire, s.time d)]

theorem exec_chordResend {grp : Fin 48} (hgroup : grp.val < chordGroups d n) (diff : List Nat) :
    let wire := chargedWire grp diff
    let cs := s.charged d n wire
    let t := s.setChd d n { s.chd d n with charges := cs }
    exec (.chordResend d n grp diff) s = .next (if 8 ≤ (cs.filter (·.1 = wire)).length
      then t.wireFailed d n wire (cs.filter (·.1 = wire)).length else t) :=
  congrArg Host.Outcome.next (if_neg (Nat.not_le.2 hgroup))

theorem State.charged_first {wire : Nat} (h : (s.chd d n).charges = []) : s.charged d n wire = [(wire, s.time d)] := by
  rw [State.charged, h]
  rfl

theorem State.charged_eighth {wire : Nat} (h : (s.chd d n).charges = List.replicate 7 (wire, s.time d)) :
    s.charged d n wire = List.replicate 8 (wire, s.time d) := by
  rw [State.charged, h, List.filter_replicate_of_pos (by simp)]
  rfl

theorem leads_chordResend_first {grp : Fin 48} (hgroup : grp.val < chordGroups d n) (diff : List Nat)
    (hnone : (s.chd d n).charges = []) : Leads (.chordResend d n grp diff) s fun t =>
      (t.chd d n).charges = [(chargedWire grp diff, s.time d)] ∧ t.regs = s.regs := by
  have hexec := exec_chordResend (s := s) hgroup diff
  dsimp only at hexec
  rw [State.charged_first hnone, if_neg (by simp)] at hexec
  exact .intro hexec ⟨by simp, rfl⟩

/-- The eighth retry of a wire fails it: its group shifts onto the spare. -/
theorem leads_chordResend_eighth {grp : Fin 48} (hgroup : grp.val < chordGroups d n) (diff : List Nat)
    (hseven : (s.chd d n).charges = List.replicate 7 (chargedWire grp diff, s.time d)) (hactive : (s.chd d n).disabled = [])
    (hspare : (s.chd d n).spareUsed = []) : Leads (.chordResend d n grp diff) s fun t =>
      (t.chd d n).spareUsed = [grp.val] ∧ (t.chd d n).charges = [] := by
  have hown := chargedWire_group grp diff
  have hexec := exec_chordResend (s := s) hgroup diff
  dsimp only at hexec
  rw [State.charged_eighth hseven, if_pos (by simp)] at hexec
  generalize chargedWire grp diff = wire at hexec hown
  obtain ⟨u, -, hfailed⟩ := State.wireFailed_shifts
    (s := s.setChd d n { s.chd d n with charges := List.replicate 8 (wire, s.time d) }) (d := d) (n := n) (wire := wire)
    ((List.replicate 8 (wire, s.time d)).filter (·.1 = wire)).length (by rwa [hown]) (by simp [hactive]) (by simp [hspare])
  refine .intro (hexec.trans (congrArg Host.Outcome.next hfailed)) ⟨?_, ?_⟩ <;> simp [hown, hspare]

/-! ## Remaps (R546) -/

/-- The end of a remap is that of the oldest one; the connection is remapping while others wait. -/
theorem exec_chordRemapComplete (d : Die) (n : Fin 6) : exec (.chordRemapComplete d n) s =
    .next ((s.setChd d n { s.chd d n with remaps := (s.chd d n).remaps.tail }).fset (rg .chdStatus d.val n.val) 18 18
      (if (s.chd d n).remaps.tail.isEmpty then 0 else 1)) := rfl

end

end Sys2Proof.Machine

namespace Sys2Proof.Proofs

open Sys2Proof.Machine

/-- Settles O47: each command of a connection is the case that it meets, and a charge names a wire of its own group. -/
theorem chordConnections : Obligations.ChordConnections := by
  unfold Obligations.ChordConnections
  refine ⟨fun d n s seq hready hseq => ?flit, fun d n grp diff s hgroup => ?retry, fun d n wire s hgroup hactive => ?failure,
    fun d n s => ?remap⟩
  case flit =>
    subst hseq
    refine ⟨exec_chordFlitReceive_in_order true hready, .intro (exec_chordFlitReceive_in_order false hready) ?_⟩
    simp only [Bool.false_eq_true, if_false, State.emit_chd, State.bump_chd, State.chd_setChd]
    exact ⟨trivial, trivial, rfl, State.fget_bump_self _ _ (by decide) (by decide)⟩
  case retry =>
    exact ⟨leads_chordResend_first hgroup diff, leads_chordResend_eighth hgroup diff⟩
  case failure =>
    refine ⟨fun hspare => ?shifts, fun hspare => ?disables⟩
    case shifts =>
      obtain ⟨u, hledger, hfailed⟩ := State.wireFailed_shifts (s := s) 0 hgroup hactive hspare
      refine .intro (congrArg Host.Outcome.next hfailed) ⟨by simp, by simp,
        State.fget_fset_of_lt (by decide) (by decide) (by decide), hledger⟩
    case disables =>
      obtain ⟨u, hfailed⟩ := State.wireFailed_disables (s := s) 0 hgroup hactive hspare
      refine .intro (congrArg Host.Outcome.next hfailed) ⟨by simp, ?_, State.fget_setDegraded _ (by decide)⟩
      rw [State.fget_setDegraded_ne _ _ _ _ _ (rg_ne (by decide))]
      exact State.fget_fset_of_lt (by decide) (by decide) (by decide)
  case remap =>
    refine .intro (exec_chordRemapComplete d n) ⟨by simp, ?_⟩
    rw [State.fget_fset_of_lt (by decide) (by decide) (by split <;> decide)]
    simp

end Sys2Proof.Proofs
end

section
/-! SUPPORT of the links: what the records and the routes leave of the state, and the detour of each peer. -/

namespace Sys2Proof.Machine

/-! ## What reports change (R503, R516, R593, R598) -/

/-- A state that differs from another at most in registers of some kinds, and in what a record or an alert changes. -/
structure State.ReportFrame (ks : List RegKind) (s t : State) : Prop where
  rest : t = { s with
    regs := t.regs, dies := t.dies, errHeld := t.errHeld, errKept := t.errKept, draws := t.draws, out := t.out
    pins := { s.pins with mgtAlert := t.pins.mgtAlert } }
  reg : ∀ r, r.kind ∉ ks → t.reg r = s.reg r

/-- The registers that sum up a change of link state (R598). -/
def summaryKinds : List RegKind := [.errStatus, .errSpares]

/-- The registers that a change of routes writes: the detours and the summaries (R513, R516). -/
def routeKinds : List RegKind := [.fctDetour, .errStatus, .errSpares]

section
variable {s t u : State} {ks ks' : List RegKind}

theorem State.ReportFrame.refl (ks : List RegKind) (s : State) : s.ReportFrame ks s := ⟨rfl, fun _ _ => rfl⟩

theorem State.ReportFrame.trans (h : s.ReportFrame ks t) (h' : t.ReportFrame ks u) : s.ReportFrame ks u :=
  ⟨Eq.trans h'.rest (by rw [h.rest]), fun r hr => (h'.reg r hr).trans (h.reg r hr)⟩

theorem State.ReportFrame.mono (h : s.ReportFrame ks t) (hks : ks ⊆ ks') : s.ReportFrame ks' t :=
  ⟨h.rest, fun r hr => h.reg r fun hk => hr (hks hk)⟩

theorem State.ReportFrame.ite {p : Prop} [Decidable p] (h : p → s.ReportFrame ks t) :
    s.ReportFrame ks (if p then t else s) := by
  split
  next hp => exact h hp
  next => exact .refl ..

theorem State.ReportFrame.foldl {α : Type} {f : State → α → State} (l : List α) (hf : ∀ s x, State.ReportFrame ks s (f s x))
    (s : State) : s.ReportFrame ks (l.foldl f s) :=
  foldl_keeps (P := s.ReportFrame ks) f l s (.refl ks s) fun t x h => h.trans (hf t x)

theorem State.ReportFrame.fget (h : s.ReportFrame ks t) {k : RegKind} (hk : k ∉ ks) (i j hi lo : Nat) :
    t.fget (rg k i j) hi lo = s.fget (rg k i j) hi lo := congrArg (bits · hi lo) (h.reg (rg k i j) hk)

theorem State.ReportFrame.link (h : s.ReportFrame ks t) (k : Link) : t.link k = s.link k :=
  (congrArg (State.link · k) h.rest :)

theorem State.ReportFrame.fset {k : RegKind} (hk : k ∈ ks) (i j hi lo v : Nat) :
    s.ReportFrame ks (s.fset (rg k i j) hi lo v) :=
  ⟨rfl, fun _ h => s.reg_setReg_ne _ fun e => h (e ▸ hk)⟩

theorem State.ReportFrame.logErr (hks : .errStatus ∈ ks) (d : Die) (e : ErrRec) : s.ReportFrame ks (s.logErr d e) :=
  ⟨by rw [s.logErr_eq d e], fun _ h => State.reg_logErr_ne d e fun he => h (he ▸ hks)⟩

theorem State.ReportFrame.setDegraded (hks : .errStatus ∈ ks) (n : Nat) (on : Bool) :
    s.ReportFrame ks (s.setDegraded n on) :=
  ⟨by rw [s.setDegraded_eq n on], fun r h =>
    (congrArg (Tbl.get r.kind.resetValue · r) (s.setDegraded_regs n on)).trans (s.reg_setReg_ne _ fun he => h (he ▸ hks))⟩

theorem State.ReportFrame.linkRecord (hks : .errStatus ∈ ks) (k : Link) (lanes : Nat) (act : W8) (cw : Nat) :
    s.ReportFrame ks (s.linkRecord k lanes act cw) :=
  .trans (t := s.logErr _ _) (.logErr hks ..) ⟨rfl, fun _ _ => rfl⟩

end

/-! ## The detour of each peer (R506 to R516) -/

section
variable {s t : State} {d c : Nat}

/-- The detour that a change of link state gives to a peer (R513). -/
def State.detour (s : State) (d c : Nat) : Nat :=
  if s.direct (withCoord s.vertex d c) then c else if s.via d c = c then s.sparePartner d else s.via d c

/-- The detours of a dimension brought up to date. -/
def State.routeDim (s : State) (d : Nat) : State := (s.peersOf d).foldl (fun s c => s.routePeer d c) s

/-- The populated dimensions that have a peer. -/
def State.routedDims (s : State) : List Nat := ([0, 1, 2] : List Nat).filter fun d => decide (2 ≤ s.dimSize d)

theorem State.ReportFrame.dimSize (h : s.ReportFrame routeKinds t) (d : Nat) : t.dimSize d = s.dimSize d :=
  congrArg (2 ^ ·) (h.fget (by decide) ..)

theorem State.ReportFrame.vertex (h : s.ReportFrame routeKinds t) : t.vertex = s.vertex :=
  congrArg (BitVec.ofNat 12) (h.fget (by decide) ..)

theorem State.ReportFrame.peersOf (h : s.ReportFrame routeKinds t) (d : Nat) : t.peersOf d = s.peersOf d := by
  rw [State.peersOf, State.peersOf, h.dimSize, h.vertex]

theorem State.ReportFrame.linkGood (h : s.ReportFrame routeKinds t) (k : Link) : t.linkGood k = s.linkGood k := by
  have hctl (hi lo : Nat) := h.fget (k := .linkCtl) (by decide) k.val 0 hi lo
  have hstatus (hi lo : Nat) := h.fget (k := .linkStatus) (by decide) k.val 0 hi lo
  simp only [State.linkGood, hctl, hstatus]

theorem State.ReportFrame.direct (h : s.ReportFrame routeKinds t) (v : Vertex) : t.direct v = s.direct v := by
  have hstatus (k : Link) := h.fget (k := .linkStatus) (by decide) k.val 0 19 8
  simp only [State.direct, hstatus, h.linkGood]

theorem State.ReportFrame.detour (h : s.ReportFrame routeKinds t) (hvia : t.via d c = s.via d c) :
    t.detour d c = s.detour d c := by
  simp only [State.detour, State.sparePartner, h.vertex, h.dimSize, h.direct, hvia]

theorem State.ReportFrame.routePeer (d c : Nat) : s.ReportFrame routeKinds (s.routePeer d c) := by
  unfold State.routePeer
  dsimp only
  split
  next => exact .fset (by decide) ..
  next =>
    split
    next => exact .refl ..
    next => exact .fset (by decide) ..

theorem State.ReportFrame.routeDim (d : Nat) : s.ReportFrame routeKinds (s.routeDim d) :=
  .foldl _ (fun _ c => .routePeer d c) s

/-- Routing a peer sets its own detour and no other. -/
theorem State.routePeer_eq (s : State) (d c : Nat) : s.routePeer d c = s ∧ s.detour d c = s.via d c ∨
    s.routePeer d c = s.fset (rg .fctDetour 0 d) (4 * c + 3) (4 * c) (s.detour d c) := by
  unfold State.routePeer State.detour
  dsimp only
  split
  next => exact .inr rfl
  next =>
    split
    next => exact .inl ⟨rfl, rfl⟩
    next hvia => exact .inr (by rw [if_pos (not_not.1 hvia)])

theorem State.via_routePeer_self (hc : c < 16) (hdetour : s.detour d c < 16) : (s.routePeer d c).via d c = s.detour d c := by
  obtain ⟨heq, hvia⟩ | heq := s.routePeer_eq d c <;> rw [heq]
  · exact hvia.symm
  · refine State.fget_fset_of_lt (by omega) (by omega) ?_
    rwa [show 4 * c + 3 + 1 - 4 * c = 4 by omega]

theorem State.via_routePeer_ne {d' c' : Nat} (h : d' ≠ d ∨ c' < 16 ∧ c' ≠ c) : (s.routePeer d' c').via d c = s.via d c := by
  obtain ⟨heq, -⟩ | heq := s.routePeer_eq d' c' <;> rw [heq]
  obtain hd | ⟨hlt, hc⟩ := h
  · exact s.fget_fset_ne _ fun e => hd (congrArg Reg.j e).symm
  · by_cases hd : d' = d
    · subst hd
      exact s.fget_fset_of_disjoint _ (by omega) (by omega) (by omega)
    · exact s.fget_fset_ne _ fun e => hd (congrArg Reg.j e).symm

theorem State.via_foldl_routePeer_ne {cs : List Nat} (h : ∀ c' ∈ cs, d' ≠ d ∨ c' < 16 ∧ c' ≠ c) (s : State) :
    (cs.foldl (fun s c => s.routePeer d' c) s).via d c = s.via d c :=
  List.foldlRecOn (motive := fun t : State => t.via d c = s.via d c) cs _ rfl fun _ ht c' hc' =>
    (State.via_routePeer_ne (h c' hc')).trans ht

theorem State.detour_lt (hc : c < 16) (hdim : s.dimSize d ≤ 16) : s.detour d c < 16 := by
  have hvia : s.via d c < 2 ^ (4 * c + 3 + 1 - 4 * c) := Nat.mod_lt _ (Nat.two_pow_pos _)
  rw [show 4 * c + 3 + 1 - 4 * c = 4 by omega] at hvia
  have hspare : s.sparePartner d < 2 ^ 4 := Nat.xor_lt_two_pow (Nat.mod_lt _ (by decide)) (by omega)
  unfold State.detour
  split_ifs
  · exact hc
  · exact hspare
  · exact hvia

/-- The detour of a peer after its dimension has been routed: what the peers before it and after it change are other detours. -/
theorem State.via_routeDim_self (hdim : s.dimSize d ≤ 16) (hc : c ∈ s.peersOf d) : (s.routeDim d).via d c = s.detour d c := by
  have hlt : ∀ c' ∈ s.peersOf d, c' < 16 := fun c' hc' =>
    Nat.lt_of_lt_of_le (List.mem_range.1 (List.mem_filter.1 hc').1) hdim
  have hnodup : (s.peersOf d).Nodup := List.nodup_range.filter _
  unfold State.routeDim
  obtain ⟨before, after, heq⟩ := List.append_of_mem hc
  rw [heq] at hlt hnodup ⊢
  rw [List.nodup_middle, List.nodup_cons, List.mem_append, not_or] at hnodup
  obtain ⟨⟨hbefore, hafter⟩, -⟩ := hnodup
  have hother {cs : List Nat} (hsub : cs ⊆ before ++ c :: after) (hnot : c ∉ cs) (u : State) :
      (cs.foldl (fun s c => s.routePeer d c) u).via d c = u.via d c :=
    State.via_foldl_routePeer_ne (fun c' hc' => .inr ⟨hlt c' (hsub hc'), ne_of_mem_of_not_mem hc' hnot⟩) u
  rw [List.foldl_append, List.foldl_cons, hother (by simp) hafter]
  have hframe : s.ReportFrame routeKinds (before.foldl (fun s c => s.routePeer d c) s) := .foldl _ (fun _ c => .routePeer d c) s
  have hdetour := hframe.detour (hother (by simp) hbefore s)
  have hc16 : c < 16 := hlt c (by simp)
  rw [State.via_routePeer_self hc16 (by rw [hdetour]; exact State.detour_lt hc16 hdim), hdetour]

/-- The state with every detour brought up to date. -/
def State.detoured (s : State) : State := s.routedDims.foldl State.routeDim s

theorem State.reportFrame_detoured (s : State) : s.ReportFrame routeKinds s.detoured := .foldl _ (fun _ d => .routeDim d) s

theorem State.via_detoured (hd : d ∈ s.routedDims) (hdim : s.dimSize d ≤ 16) (hc : c ∈ s.peersOf d) :
    s.detoured.via d c = s.detour d c := by
  have hnodup : s.routedDims.Nodup := List.Nodup.filter _ (by decide)
  have hother {ds : List Nat} (hnot : d ∉ ds) (u : State) : (ds.foldl State.routeDim u).via d c = u.via d c :=
    List.foldlRecOn (motive := fun t : State => t.via d c = u.via d c) ds _ rfl fun _ ht d' hd' =>
      (State.via_foldl_routePeer_ne (fun _ _ => .inl (ne_of_mem_of_not_mem hd' hnot)) _).trans ht
  unfold State.detoured
  obtain ⟨before, after, heq⟩ := List.append_of_mem hd
  rw [heq] at hnodup ⊢
  rw [List.nodup_middle, List.nodup_cons, List.mem_append, not_or] at hnodup
  obtain ⟨⟨hbefore, hafter⟩, -⟩ := hnodup
  have hframe : s.ReportFrame routeKinds (before.foldl State.routeDim s) := .foldl _ (fun _ d => .routeDim d) s
  rw [List.foldl_append, List.foldl_cons, hother hafter,
    State.via_routeDim_self (by rwa [hframe.dimSize]) (by rwa [hframe.peersOf]), hframe.detour (hother hbefore s)]

/-- After the detours, a change of routes writes the summaries alone (R516, R598). -/
theorem State.reportFrame_routes_summary (s : State) : s.detoured.ReportFrame summaryKinds s.routes :=
  .trans (t := s.detoured.setDegraded 4 _) (.setDegraded (by decide) ..) (.foldl _ (fun _ _ => .fset (by decide) ..) _)

theorem State.reportFrame_routes (s : State) : s.ReportFrame routeKinds s.routes :=
  s.reportFrame_detoured.trans (s.reportFrame_routes_summary.mono (by decide))

theorem State.via_routes (hd : d < 3) (hpop : 2 ≤ s.dimSize d) (hdim : s.dimSize d ≤ 16) (hc : c < s.dimSize d)
    (hother : c ≠ coord s.vertex d) : s.routes.via d c = s.detour d c := by
  have hrouted : d ∈ s.routedDims := List.mem_filter.2 ⟨by interval_cases d <;> decide, decide_eq_true hpop⟩
  have hpeer : c ∈ s.peersOf d := List.mem_filter.2 ⟨List.mem_range.2 hc, decide_eq_true hother⟩
  exact (s.reportFrame_routes_summary.fget (by decide) ..).trans (State.via_detoured hrouted hdim hpeer)

end

end Sys2Proof.Machine
end

section
/-! PROOF of the Facet links: the state that each command of a link leaves, in the case that it meets. -/

namespace Sys2Proof.Machine

section
variable {s : State} {k : Link} {l : Lane} {up : Nat}

/-! ## Flits (R501) -/

/-- A good link takes a flit in order: a good one raises the next number, a corrupt one is discarded and asked for again. -/
theorem exec_flitReceive_in_order (hgood : s.linkGood k = true) (ok : Bool) :
    exec (.flitReceive k (s.link k).expect ok) s = .next (if ok
      then s.setLink k { s.link k with expect := (s.link k).expect + 1, discard := none }
      else (s.setLink k { s.link k with discard := some (s.link k).expect }).emit (.linkResend k (s.link k).expect)) := by
  refine congrArg Host.Outcome.next ((if_neg (by rw [hgood]; decide)).trans ?_)
  dsimp only
  rw [goBack_in_order]
  cases ok <;> rfl

theorem exec_flitReceive_out_of_order {seq : W32} (hgood : s.linkGood k = true) (h : seq ≠ (s.link k).expect) (ok : Bool) :
    exec (.flitReceive k seq ok) s = .next (s.setLink k (s.link k)) := by
  refine congrArg Host.Outcome.next ((if_neg (by rw [hgood]; decide)).trans ?_)
  dsimp only
  rw [goBack_out_of_order h]
  rfl

theorem exec_resendRequest (hgood : s.linkGood k = true) (seq : W32) : exec (.resendRequest k seq) s =
    .next ((s.bump (rg .linkErr k.val) 15 0 1).emit (.flitsFrom k seq)) :=
  congrArg Host.Outcome.next (if_neg (by rw [hgood]; decide))

/-! ## A change of lanes (R503) -/

/-- The lanes of a link, two bits, in service. -/
def State.lanes (s : State) (k : Link) : Nat := s.fget (rg .linkStatus k.val) 1 0

theorem State.lanes_lt (s : State) (k : Link) : s.lanes k < 4 := Nat.mod_lt _ (by decide)

/-- The status of a link with its lanes changed: it has failed without a lane or when it is miscabled (R503). -/
def State.relaned (s : State) (k : Link) (up : Nat) : State :=
  (s.fset (rg .linkStatus k.val) 1 0 up).fset (rg .linkStatus k.val) 2 2
    (if up = 0 ∨ s.fget (rg .linkStatus k.val) 4 4 = 1 then 1 else 0)

theorem State.reportFrame_setLanes {up : Nat} (h : s.lanes k ≠ up) (cw : Nat) :
    (s.relaned k up).ReportFrame routeKinds (s.setLanes k up cw) := by
  have heq : s.setLanes k up cw = ((s.relaned k up).linkRecord k (s.lanes k ^^^ up) (if up = 0 then 0x05 else 0x00) cw).routes :=
    if_neg h
  rw [heq]
  exact .trans (.linkRecord (by decide) ..) (State.reportFrame_routes _)

theorem State.setLanes_of_same {up : Nat} (h : s.lanes k = up) (cw : Nat) : s.setLanes k up cw = s := if_pos h

theorem State.lanes_relaned (h : up < 4) : (s.relaned k up).lanes k = up := by
  rw [State.lanes, State.relaned, State.fget_fset_of_disjoint _ _ (by decide) (by decide) (by decide)]
  exact State.fget_fset_of_lt (by decide) (by decide) h

theorem State.fget_relaned_failed : (s.relaned k up).fget (rg .linkStatus k.val) 2 2 =
    if up = 0 ∨ s.fget (rg .linkStatus k.val) 4 4 = 1 then 1 else 0 :=
  State.fget_fset_of_lt (by decide) (by decide) (by split <;> decide)

theorem State.fget_relaned_high {hi lo : Nat} (h : 2 < lo) :
    (s.relaned k up).fget (rg .linkStatus k.val) hi lo = s.fget (rg .linkStatus k.val) hi lo := by
  rw [State.relaned, State.fget_fset_of_disjoint _ _ (by decide) (by decide) (.inr h),
    State.fget_fset_of_disjoint _ _ (by decide) (by decide) (.inr (by omega))]

theorem State.lanes_relaned_ne {k' : Link} (h : k' ≠ k) : (s.relaned k up).lanes k' = s.lanes k' := by
  have hne : rg .linkStatus k'.val ≠ rg .linkStatus k.val := fun e => h (Fin.ext (congrArg Reg.i e))
  rw [State.lanes, State.relaned, State.fget_fset_ne _ _ hne, State.fget_fset_ne _ _ hne, State.lanes]

theorem State.reportFrame_relaned : s.ReportFrame (.linkStatus :: routeKinds) (s.relaned k up) :=
  .trans (t := s.fset _ _ _ _) (.fset (by decide) ..) (.fset (by decide) ..)

/-- A change of lanes leaves every register but the link's status, the detours and the summaries. -/
theorem State.reportFrame_setLanes_all (cw : Nat) : s.ReportFrame (.linkStatus :: routeKinds) (s.setLanes k up cw) := by
  by_cases h : s.lanes k = up
  · rw [State.setLanes_of_same h]
    exact .refl ..
  · exact State.reportFrame_relaned.trans ((State.reportFrame_setLanes h cw).mono (by decide))

theorem State.lanes_setLanes (h : up < 4) (cw : Nat) : (s.setLanes k up cw).lanes k = up := by
  by_cases hsame : s.lanes k = up
  · rwa [State.setLanes_of_same hsame]
  · exact ((State.reportFrame_setLanes hsame cw).fget (by decide) ..).trans (State.lanes_relaned h)

theorem State.lanes_setLanes_ne {k' : Link} (hne : k' ≠ k) (cw : Nat) : (s.setLanes k up cw).lanes k' = s.lanes k' := by
  by_cases hsame : s.lanes k = up
  · rw [State.setLanes_of_same hsame]
  · exact ((State.reportFrame_setLanes hsame cw).fget (by decide) ..).trans (State.lanes_relaned_ne hne)

theorem State.fget_setLanes_high {hi lo : Nat} (h : 2 < lo) (cw : Nat) :
    (s.setLanes k up cw).fget (rg .linkStatus k.val) hi lo = s.fget (rg .linkStatus k.val) hi lo := by
  by_cases hsame : s.lanes k = up
  · rw [State.setLanes_of_same hsame]
  · exact ((State.reportFrame_setLanes hsame cw).fget (by decide) ..).trans (State.fget_relaned_high h)

/-- A link that a change leaves without a lane has failed (R503). -/
theorem State.failed_setLanes_zero (h : s.lanes k ≠ 0) (cw : Nat) :
    (s.setLanes k 0 cw).fget (rg .linkStatus k.val) 2 2 = 1 :=
  ((State.reportFrame_setLanes h cw).fget (by decide) ..).trans (State.fget_relaned_failed.trans (if_pos (.inl rfl)))

/-! ## Lanes that fail (R502) -/

/-- Lane `l` of link `k` has left service from `s` to `t`: the other lane stays, a link without a lane has failed, and the failure is
counted. -/
def State.LaneFails (s t : State) (k : Link) (l : Lane) : Prop :=
  t.lanes k / 2 ^ l.val % 2 = 0 ∧ t.lanes k / 2 ^ (1 - l.val) % 2 = s.lanes k / 2 ^ (1 - l.val) % 2 ∧
  (t.lanes k = 0 → t.fget (rg .linkStatus k.val) 2 2 = 1) ∧
  t.fget (rg .linkErr k.val) 55 48 = min (s.fget (rg .linkErr k.val) 55 48 + 1) 255

/-- The lanes without one of them. -/
def withoutLane (up : Nat) (l : Lane) : Nat := up &&& (3 ^^^ 2 ^ l.val)

theorem toNat_laneMask (l : Lane) : (BitVec.ofNat 2 (2 ^ l.val)).toNat = 2 ^ l.val := by
  revert l
  decide

theorem withoutLane_spec : ∀ (up : Fin 4) (l : Lane), withoutLane up l < 4 ∧ withoutLane up l / 2 ^ l.val % 2 = 0 ∧
    withoutLane up l / 2 ^ (1 - l.val) % 2 = up / 2 ^ (1 - l.val) % 2 := by decide

theorem withLane_spec : ∀ (up : Fin 4) (l : Lane), up.val ||| 2 ^ l.val < 4 ∧ (up.val ||| 2 ^ l.val) / 2 ^ l.val % 2 = 1 := by
  decide

theorem State.laneFails_laneFailed (hup : s.lanes k / 2 ^ l.val % 2 = 1) (cw : Nat) :
    s.LaneFails (s.laneFailed k l cw) k l := by
  set u := (s.setLink k { s.link k with probation := (s.link k).probation.filter (·.1 ≠ l) }).bump (rg .linkErr k.val) 55 48 1
    with hu
  have heq : s.laneFailed k l cw = u.setLanes k (withoutLane (s.lanes k) l) cw := if_neg (by
    unfold State.lanes at hup
    simp [hup])
  have hlanes : u.lanes k = s.lanes k := s.fget_bump_kind _ (by decide)
  obtain ⟨hlt, hout, hother⟩ := withoutLane_spec ⟨_, s.lanes_lt k⟩ l
  rw [heq]
  refine ⟨?_, ?_, fun hnone => ?_, ?_⟩
  · rwa [State.lanes_setLanes hlt]
  · rwa [State.lanes_setLanes hlt]
  · rw [State.lanes_setLanes hlt] at hnone
    rw [hnone]
    refine State.failed_setLanes_zero (fun hzero => ?_) cw
    rw [hlanes] at hzero
    simp [hzero] at hup
  · exact (State.reportFrame_setLanes_all cw |>.fget (by decide) ..).trans (State.fget_bump_self _ _ (by decide) (by decide))

theorem State.failLanes_one (s : State) (k : Link) (l : Lane) : s.failLanes k (2 ^ l.val) = s.laneFailed k l 0 := by
  fin_cases l <;> rfl

/-- The errors of a lane's window are counted before it is judged. -/
theorem exec_laneErrorWindow (u e n : Nat) : exec (.laneErrorWindow k l u e n) s = .next
    (if 64 < u ∨ n < e * 5000 then (s.bump (rg .linkErr k.val) 31 16 u).laneFailed k l u
      else s.bump (rg .linkErr k.val) 31 16 u) := rfl

theorem State.lanes_bump_linkErr (hi lo n : Nat) : (s.bump (rg .linkErr k.val) hi lo n).lanes k = s.lanes k :=
  s.fget_bump_kind _ (by decide)

theorem State.LaneFails.of_bump {t : State} {n : Nat} (h : (s.bump (rg .linkErr k.val) 31 16 n).LaneFails t k l) :
    s.LaneFails t k l := by
  obtain ⟨hout, hother, hfailed, hcount⟩ := h
  rw [State.lanes_bump_linkErr] at hother
  rw [State.fget_bump_of_disjoint _ _ (by decide) (by decide) (by decide)] at hcount
  exact ⟨hout, hother, hfailed, hcount⟩

/-! ## Lanes that train and return (R502) -/

/-- A link that is enabled and in use starts the probation of the failed lane that has trained. -/
theorem State.trainLanes_one (hdown : s.lanes k / 2 ^ l.val % 2 = 0) (hon : s.fget (rg .linkCtl k.val) 0 0 = 1)
    (hused : s.fget (rg .linkStatus k.val) 5 5 = 0) (hnone : (s.link k).probation = []) :
    s.trainLanes k (2 ^ l.val) = s.setLink k { s.link k with probation := [(l, s.time (Link.die k))] } := by
  have hnew : ((List.finRange 2).filter fun l' : Lane => decide (2 ^ l.val / 2 ^ l'.val % 2 = 1) &&
      decide (s.lanes k / 2 ^ l'.val % 2 = 0) && !(s.link k).probation.any (·.1 = l')) = [l] := by
    rw [hnone]
    fin_cases l <;> simp_all [List.finRange_succ]
  refine (if_neg ?_).trans ?_
  · rw [hon, hused]; decide
  · unfold State.lanes at hnew
    rw [hnew, hnone]
    rfl

/-- A lane that has run for 1 s without an error is back in service. -/
theorem exec_laneReturn {t0 : W64} (hone : (s.link k).probation = [(l, t0)])
    (hdue : 1000000000 ≤ (s.time (Link.die k) - t0).toNat) : exec (.laneReturn k l) s = .next
      ((s.setLink k { s.link k with probation := [] }).setLanes k (s.lanes k ||| 2 ^ l.val) 0) := by
  have hlong : ¬ (s.time (Link.die k) - t0).toNat < 1000000000 := Nat.not_lt.2 hdue
  refine congrArg Host.Outcome.next ?_
  simp [hone, hlong, State.lanes, -BitVec.toNat_sub]


/-! ## Laser feeds (R504, R505) -/

/-- A link's transmit direction in a mode: one that changes carries no flits until its switch is complete. -/
def State.switchLink (v : Nat) (s : State) (k : Link) : State :=
  if s.fget (rg .linkCtl k.val) 1 1 = v then s
  else (s.fset (rg .linkCtl k.val) 1 1 v).setLink k { s.link k with switching := true }

theorem State.link_setLink_ne {k' : Link} (x : LinkSt) (h : k' ≠ k) : (s.setLink k x).link k' = s.link k' :=
  Tbl.get_set_ne _ _ _ h

theorem State.fget_switchLink {v : Nat} (hv : v < 2) (k' : Link) :
    (s.switchLink v k).fget (rg .linkCtl k'.val) 1 1 = if k' = k then v else s.fget (rg .linkCtl k'.val) 1 1 := by
  unfold State.switchLink
  split
  next hsame =>
    split
    next heq => rw [heq, hsame]
    next => rfl
  next =>
    split
    next heq => rw [heq]; exact State.fget_fset_of_lt (by decide) (by decide) hv
    next hne => exact s.fget_fset_ne _ fun e => hne (Fin.ext (congrArg Reg.i e))

theorem State.switching_switchLink (v : Nat) (k' : Link) : ((s.switchLink v k).link k').switching =
    ((s.link k').switching || decide (k' = k ∧ s.fget (rg .linkCtl k'.val) 1 1 ≠ v)) := by
  unfold State.switchLink
  by_cases hk : k' = k
  · subst hk
    split
    next hsame => simp [hsame]
    next hother => simp [hother]
  · simp only [hk, false_and, decide_false, Bool.or_false]
    split
    next => rfl
    next => exact congrArg LinkSt.switching (State.link_setLink_ne _ hk)

theorem State.laserA_switchLink (v : Nat) : (s.switchLink v k).laserA = s.laserA := by
  unfold State.switchLink
  split <;> rfl

theorem State.laserA_switchMode (reach : Bool) : (s.switchMode reach).laserA = s.laserA :=
  foldl_keeps (P := fun t : State => t.laserA = s.laserA) (State.switchLink (if reach then 1 else 0)) allLinks s rfl
    fun _ _ ht => (State.laserA_switchLink _).trans ht

/-- Links switched one after the other are each in the mode, and those that were not are switching. -/
theorem State.foldl_switchLink {v : Nat} (hv : v < 2) (ks : List Link) (s : State) (k : Link) :
    let t := ks.foldl (State.switchLink v) s
    t.fget (rg .linkCtl k.val) 1 1 = (if k ∈ ks then v else s.fget (rg .linkCtl k.val) 1 1) ∧
    (t.link k).switching = ((s.link k).switching || decide (k ∈ ks ∧ s.fget (rg .linkCtl k.val) 1 1 ≠ v)) := by
  induction ks generalizing s with
  | nil => simp
  | cons k' ks ih =>
    obtain ⟨hmode, hswitching⟩ := ih (s.switchLink v k')
    rw [State.fget_switchLink hv] at hmode hswitching
    rw [State.switching_switchLink] at hswitching
    dsimp only
    rw [List.foldl_cons, hmode, hswitching]
    by_cases hk : k = k'
    · subst hk
      simp
    · simp [hk]

theorem State.switchMode_links (reach : Bool) (k : Link) :
    (s.switchMode reach).fget (rg .linkCtl k.val) 1 1 = (if reach then 1 else 0) ∧
    ((s.switchMode reach).link k).switching =
      ((s.link k).switching || decide (s.fget (rg .linkCtl k.val) 1 1 ≠ if reach then 1 else 0)) := by
  obtain ⟨hmode, hswitching⟩ := State.foldl_switchLink (v := if reach then 1 else 0) (by split <;> decide) allLinks s k
  have hall : k ∈ allLinks := List.mem_finRange k
  rw [if_pos hall] at hmode
  simp only [hall, true_and] at hswitching
  exact ⟨hmode, hswitching⟩

theorem getLsbD_unitBit (unit : Fin 8) : (BitVec.ofNat 8 (2 ^ unit.val)).getLsbD unit.val = true := by
  revert unit
  decide

theorem getLsbD_feedLow (w : BitVec 8) (unit : Fin 8) :
    (w &&& ~~~BitVec.ofNat 8 (2 ^ unit.val)).getLsbD unit.val = false := by
  rw [BitVec.getLsbD_and, BitVec.getLsbD_not, getLsbD_unitBit]
  simp

theorem State.laserMode_of_low (h : s.laserA ≠ 0xFF) : s.laserMode = s.switchMode true :=
  congrArg s.switchMode (by rw [decide_eq_false h]; rfl)

theorem State.laserMode_of_full (hA : s.laserA = 0xFF) (hB : s.laserB = 0xFF) (hout : s.laserOut = 0) :
    s.laserMode = s.switchMode false :=
  congrArg s.switchMode (by rw [hA, hB, hout]; rfl)

/-- While a feed is below its rating every link is in reach mode. -/
theorem exec_laserFeedLow (unit : Fin 8) : exec (.laserFeedLow unit false) s =
    .next (({ s with laserA := s.laserA &&& ~~~BitVec.ofNat 8 (2 ^ unit.val) } : State).switchMode true) := by
  refine congrArg Host.Outcome.next (State.laserMode_of_low (s := { s with laserA := _ }) fun hfull => ?_)
  have hset : ∀ unit : Fin 8, (0xFF : BitVec 8).getLsbD unit.val = true := by decide
  have hclear : (0xFF : BitVec 8).getLsbD unit.val = false := hfull ▸ getLsbD_feedLow s.laserA unit
  exact Bool.false_ne_true (hclear.symm.trans (hset unit))

/-- With every feed back and no module out every link is in full mode. -/
theorem exec_laserFeedRestored {unit : Fin 8} (hA : s.laserA ||| BitVec.ofNat 8 (2 ^ unit.val) = 0xFF) (hB : s.laserB = 0xFF)
    (hout : s.laserOut = 0) : exec (.laserFeedRestored unit false) s =
      .next (({ s with laserA := 0xFF } : State).switchMode false) := by
  rw [← hA]
  exact congrArg Host.Outcome.next (State.laserMode_of_full (s := { s with laserA := _ }) hA hB hout)

/-! ## Training (R511) -/

/-- The state after a link has trained, before its record and the routes: the far end, the mode received, the lanes, and whether it is
miscabled or failed. -/
def State.trained (s : State) (k : Link) (lanes : BitVec 2) (peer : Vertex) (reach mis : Bool) : State :=
  let r := rg .linkStatus k.val
  ((((s.fset r 3 3 (if reach then 1 else 0)).fset r 4 4 (if mis then 1 else 0)).fset r 19 8 peer.toNat).setLanes k
    lanes.toNat 0).fset r 2 2 (if mis ∨ lanes = 0 then 1 else 0)

theorem State.fget_trained (lanes : BitVec 2) (peer : Vertex) (reach mis : Bool) :
    let r := rg .linkStatus k.val
    let t := s.trained k lanes peer reach mis
    t.fget r 1 0 = lanes.toNat ∧ t.fget r 19 8 = peer.toNat ∧ t.fget r 3 3 = (if reach then 1 else 0) ∧
    t.fget r 4 4 = (if mis then 1 else 0) ∧ t.fget r 2 2 = if mis ∨ lanes = 0 then 1 else 0 := by
  have hlanes (u : State) : (u.setLanes k lanes.toNat 0).fget (rg .linkStatus k.val) 1 0 = lanes.toNat :=
    State.lanes_setLanes lanes.isLt 0
  have hbit {p : Prop} [Decidable p] : (if p then 1 else 0) < 2 := by split <;> decide
  refine ⟨?_, ?_, ?_, ?_, State.fget_fset_of_lt (by decide) (by decide) hbit⟩ <;>
    rw [State.trained, State.fget_fset_of_disjoint _ _ (by decide) (by decide) (by decide)]
  · exact hlanes _
  · rw [State.fget_setLanes_high (by decide)]
    exact State.fget_fset_of_lt (by decide) (by decide) peer.isLt
  · rw [State.fget_setLanes_high (by decide), State.fget_fset_of_disjoint _ _ (by decide) (by decide) (by decide),
      State.fget_fset_of_disjoint _ _ (by decide) (by decide) (by decide)]
    exact State.fget_fset_of_lt (by decide) (by decide) hbit
  · rw [State.fget_setLanes_high (by decide), State.fget_fset_of_disjoint _ _ (by decide) (by decide) (by decide)]
    exact State.fget_fset_of_lt (by decide) (by decide) hbit

/-- A link that is enabled and not dark trains; its record and the routes leave its status. -/
theorem exec_linkTrainingComplete (lanes : BitVec 2) (peer : Vertex) {v : Vertex} (far : Nat) {d : Nat} (reach : Bool)
    (hon : s.fget (rg .linkCtl k.val) 0 0 = 1) (hused : s.fget (rg .linkStatus k.val) 5 5 = 0)
    (hpeer : s.linkPeer k = some (d, v)) : ∃ t, exec (.linkTrainingComplete k lanes peer far reach) s = .next t ∧
      (s.trained k lanes peer reach (v ≠ peer || far ≠ k.val)).ReportFrame routeKinds t := by
  have hrun : ¬ (decide (s.fget (rg .linkCtl k.val) 0 0 = 0) || decide (s.fget (rg .linkStatus k.val) 5 5 = 1)) = true := by
    rw [hon, hused]; decide
  generalize hmis : (decide (v ≠ peer) || decide (far ≠ k.val)) = mis
  have hframe (u : State) : u.ReportFrame routeKinds (if mis then u.linkRecord k lanes.toNat 0x05 0 else u).routes :=
    .trans (.ite fun _ => .linkRecord (by decide) ..) (State.reportFrame_routes _)
  refine ⟨_, congrArg Host.Outcome.next ((if_neg hrun).trans ?_), hframe _⟩
  rw [hpeer, ← hmis]
  rfl

/-! ## Hops (R518, R521) -/

/-- The first message that a good link carries in a class is taken; in TC0 it waits for a token where tokens are policed. -/
theorem exec_packetHop {cls : Fin 4} {m : OutMsg} {rest : List OutMsg} (hgood : s.linkGood k = true)
    (hsteady : (s.link k).switching = false) (hfirst : takeFirst (s.leavesOver k cls.val) s.out = some (m, rest)) :
    exec (.packetHop k cls 0) s = .next (if cls = 0 ∧ s.fget (rg .fctClassCtl) 48 48 = 0 then
      (if 1024 < s.tc0Lack k + 128 then
        (if (s.link k).tc0Waits then s
        else (s.setLink k { s.link k with tc0Waits := true }).bump (rg .linkErr k.val) 47 32 1)
      else { s.setLink k { s.link k with
        tc0Spent := s.tc0Lack k + 128, tc0At := s.time (Link.die k), tc0Waits := false } with out := rest })
    else { s with out := rest }) := by
  refine congrArg Host.Outcome.next ((if_neg ?_).trans ?_)
  · rw [hgood, hsteady]; decide
  · simp only [hfirst, Bool.and_eq_true, decide_eq_true_eq]

end

end Sys2Proof.Machine

namespace Sys2Proof.Proofs

open Sys2Proof.Machine

/-- Settles O46: each command of a link is the case that it meets; a change of lanes is followed by its record and the routes,
which leave the status of every link. -/
theorem facetLinks : Obligations.FacetLinks := by
  unfold Obligations.FacetLinks
  refine ⟨fun k s seq hgood => ?flit, fun k l s => ?lane, fun unit s => ?feed, fun k s => rfl,
    fun k lanes peer v far d reach s hon hused hpeer => ?training, fun d c s hd hc hpop hdim hlt hother => ?route,
    fun k cls s m rest hgood hsteady hfirst => ?hop⟩
  case flit =>
    refine ⟨fun hseq => ?_, fun ok hseq => exec_flitReceive_out_of_order hgood hseq ok, exec_resendRequest hgood seq⟩
    subst hseq
    exact ⟨exec_flitReceive_in_order hgood true, exec_flitReceive_in_order hgood false⟩
  case lane =>
    refine ⟨fun hup => ⟨.intro rfl (State.laneFails_laneFailed hup 0), ?named, fun u e n hbad => ?exceeds⟩, fun u e n hu he => ?within,
      fun hdown hon hused hnone => ?trains, fun t0 hone hdue => ?returns⟩
    case named =>
      have hfailed := State.laneFails_laneFailed hup 0
      rw [← State.failLanes_one, ← toNat_laneMask] at hfailed
      exact .intro rfl hfailed
    case exceeds =>
      refine .intro ((exec_laneErrorWindow u e n).trans (congrArg _ (if_pos hbad))) (State.LaneFails.of_bump (n := u) ?_)
      exact State.laneFails_laneFailed (by rwa [State.lanes_bump_linkErr]) u
    case within =>
      exact (exec_laneErrorWindow u e n).trans (congrArg _ (if_neg (by omega)))
    case trains =>
      have htrain := State.trainLanes_one hdown hon hused hnone
      have hstarted : ((s.trainLanes k (2 ^ l.val)).link k).probation = [(l, s.time (Link.die k))] := by
        rw [htrain, State.link_setLink]
      exact ⟨.intro rfl hstarted, .intro rfl (by rwa [toNat_laneMask])⟩
    case returns =>
      obtain ⟨hlt, hin⟩ := withLane_spec ⟨_, s.lanes_lt k⟩ l
      refine .intro (exec_laneReturn hone hdue) ⟨?_, ?_⟩
      · exact (congrArg (· / 2 ^ l.val % 2) (State.lanes_setLanes hlt 0)).trans hin
      · rw [(State.reportFrame_setLanes_all 0).link, State.link_setLink]
  case feed =>
    refine ⟨.intro (exec_laserFeedLow unit) ⟨?_, fun k => (State.switchMode_links true k).1⟩,
      fun hA hB hout => .intro (exec_laserFeedRestored hA hB hout) ⟨State.laserA_switchMode false, fun k => ?_⟩⟩
    · rw [State.laserA_switchMode]
      exact getLsbD_feedLow s.laserA unit
    · obtain ⟨hmode, hswitching⟩ := State.switchMode_links (s := { s with laserA := 0xFF }) false k
      refine ⟨hmode, hswitching.trans (congrArg _ (decide_eq_decide.2 ?_))⟩
      have hbit : s.fget (rg .linkCtl k.val) 1 1 < 2 := Nat.mod_lt _ (by decide)
      show s.fget (rg .linkCtl k.val) 1 1 ≠ 0 ↔ _
      omega
  case training =>
    obtain ⟨t, hexec, hframe⟩ := exec_linkTrainingComplete lanes peer far reach hon hused hpeer
    have hstatus (hi lo : Nat) := hframe.fget (k := .linkStatus) (by decide) k.val 0 hi lo
    obtain ⟨hlanes, hfar, hreach, hmis, hfailed⟩ := State.fget_trained (s := s) (k := k) lanes peer reach
      (v ≠ peer || far ≠ k.val)
    refine .intro hexec ⟨(hstatus ..).trans hlanes, (hstatus ..).trans hfar, (hstatus ..).trans hreach, (hstatus ..).trans ?_,
      (hstatus ..).trans ?_⟩
    · rw [hmis]
      by_cases hv : v = peer <;> by_cases hk : far = k.val <;> simp [hv, hk]
    · rw [hfailed]
      by_cases hv : v = peer <;> by_cases hk : far = k.val <;> simp [hv, hk]
  case route => exact .intro rfl (State.via_routes hd hpop hdim hlt hother)
  case hop =>
    have hexec := exec_packetHop hgood hsteady hfirst
    refine ⟨fun hcls => hexec.trans (by rw [if_neg fun h => hcls h.1]), fun hcls hpoliced => ?_⟩
    rw [if_pos ⟨hcls, hpoliced⟩] at hexec
    refine ⟨fun hfits => ?_, fun hlacks hfresh => ?_⟩
    · rw [if_neg (by omega)] at hexec
      exact .intro hexec ⟨rfl, congrArg LinkSt.tc0Spent (State.link_setLink ..)⟩
    · rw [if_pos (by omega), hfresh] at hexec
      exact .intro hexec ⟨rfl, State.fget_bump_self _ _ (by decide) (by decide)⟩

end Sys2Proof.Proofs
end

section
/-! SUPPORT of the resets: tables and memory with entries taken out, registers reset one after the other, and what a package reset
leaves. -/

namespace Sys2Proof.Machine

/-! ## Entries taken out by their key -/

theorem Tbl.get_filter_key {κ α : Type} [DecidableEq κ] (d : α) (p : κ → Bool) (t : Tbl κ α) (k : κ) :
    Tbl.get d (t.filter fun x => p x.1) k = if p k then Tbl.get d t k else d := by
  induction t with
  | nil => exact (ite_self d).symm
  | cons e t ih =>
    obtain ⟨j, x⟩ := e
    by_cases hj : j = k
    · subst hj
      cases hp : p j <;> simp [hp, ih, Tbl.get]
    · cases hp : p j <;> simp [hp, ih, Tbl.get, hj]

theorem Memory.read_filter_key (p : Nat → Bool) (m : List Host.Cell) (a : Nat) :
    Memory.read (m.filter fun x => p x.1) a = if p a then Memory.read m a else Memory.unlisted := by
  induction m with
  | nil => exact (ite_self _).symm
  | cons e m ih =>
    obtain ⟨j, x⟩ := e
    by_cases hj : j = a
    · subst hj
      cases hp : p j <;> simp [hp, ih, Memory.read]
    · cases hp : p j <;> simp [hp, ih, Memory.read, hj]

/-- A table read after every value of it is changed by its key; a key that is not listed keeps the default. -/
theorem Tbl.get_map_key {κ α : Type} [DecidableEq κ] {d : α} {f : κ → α → α} {k : κ} (hd : f k d = d) (t : Tbl κ α) :
    Tbl.get d (t.map fun x => (x.1, f x.1 x.2)) k = f k (Tbl.get d t k) := by
  induction t with
  | nil => exact hd.symm
  | cons e t ih =>
    obtain ⟨j, x⟩ := e
    by_cases hj : j = k
    · subst hj; simp [Tbl.get]
    · simp [Tbl.get, hj, ih]

section
variable {s : State}

/-! ## Package cold resets (R662, R677, R683) -/

/-- What a cold reset keeps and what it sets: the flash and `PMU_TRIP` stay, and every register but the straps and the kind of the
reset has its reset value. -/
theorem State.coldReset_spec (s : State) (byPin : Bool) :
    let t := s.coldReset byPin
    t.pins.pkgReset = byPin ∧ t.fget (rg .bootStatus) 7 5 = (if byPin then 1 else 2) ∧ t.mem = [] ∧ t.cores = [] ∧ t.ctxs = [] ∧
    t.flash = s.flash ∧ t.reg (rg .trip) = s.reg (rg .trip) ∧
    ∀ r, r ≠ rg .trip → r ≠ rg .bootStraps → r ≠ rg .bootStatus → t.reg r = r.kind.resetValue := by
  refine ⟨rfl, State.fget_fset_of_lt (by decide) (by decide) (by split <;> decide), rfl, rfl, rfl, rfl, ?_,
    fun r htrip hstraps hstatus => ?_⟩
  · exact State.reg_setReg_ne _ _ (rg_ne (by decide))
  · refine (State.reg_setReg_ne _ _ hstatus).trans ?_
    simp [State.reg, Tbl.get, htrip.symm, hstraps.symm]

theorem exec_pkgResetNAssert_recognised {ns : Nat} (hout : s.pins.pkgReset = false) (hlong : 10000 ≤ ns) :
    exec (.pkgResetNAssert ns) s = .next (s.coldReset true) := by
  refine congrArg Host.Outcome.next ((if_neg (by rw [hout]; decide)).trans ?_)
  simp only [State.recognised, if_pos hlong, if_true]

theorem exec_pkgResetNAssert_short {ns : Nat} (hshort : ns < 1000) : exec (.pkgResetNAssert ns) s = .next s := by
  refine congrArg Host.Outcome.next ((ite_congr rfl (fun _ => rfl) fun _ => ?_).trans (ite_self s))
  simp only [State.recognised, if_neg (show ¬ 10000 ≤ ns by omega), if_pos hshort, Bool.false_eq_true, if_false]

/-! ## Rails and REFCLK (R663, R664, R742) -/

/-- A rail that faults in the rail stage stops start-up, and at any other time resets the package and keeps it off. -/
theorem leads_railFault (rail : Fin 20) (hout : s.pins.pkgReset = false) : Leads (.railFault rail) s fun t =>
    t.fget (rg .bootStatus) 16 16 = 1 ∧ t.pins.vrBase = false ∧ t.pins.vrCd = false ∧
    if s.fget (rg .bootStatus) 4 4 = 0 ∧ s.fget (rg .bootStatus) 3 0 = 3 then t.fget (rg .bootStatus) 15 8 = 3
    else t.mem = [] ∧ t.ctxs = [] := by
  have hrun : ¬ s.pins.pkgReset = true := by rw [hout]; decide
  by_cases hstage : s.fget (rg .bootStatus) 4 4 = 0 ∧ s.fget (rg .bootStatus) 3 0 = 3
  · refine .intro (congrArg Host.Outcome.next ((if_neg hrun).trans (if_pos (by simpa using hstage))))
      ⟨State.fget_fset_of_lt (by decide) (by decide) (by decide), rfl, rfl, ?_⟩
    rw [if_pos hstage]
    exact (State.fget_fset_of_disjoint _ _ (by decide) (by decide) (by decide)).trans
      (State.fget_fset_of_lt (by decide) (by decide) (by decide))
  · refine .intro (congrArg Host.Outcome.next ((if_neg hrun).trans (if_neg (by simpa using hstage))))
      ⟨State.fget_fset_of_lt (by decide) (by decide) (by decide), ?_, ?_, ?_⟩
    · dsimp only; split <;> rfl
    · dsimp only; split <;> rfl
    · rw [if_neg hstage]; dsimp only; split <;> exact ⟨rfl, rfl⟩

/-- Every die's counter goes on from the internal oscillator. -/
def State.unlocked (s : State) : State := (List.range 17).foldl (fun s d => s.fset (rg .cadStatus d) 2 2 1) s

/-- Links taken out of service one after the other. -/
def State.linksDown (s : State) (ks : List Link) : State := ks.foldl (fun s k => s.setLanes k 0 0) s

theorem State.fget_foldl_unlock (ds : List Nat) (s : State) (d : Nat) :
    (ds.foldl (fun s d => s.fset (rg .cadStatus d) 2 2 1) s).fget (rg .cadStatus d) 2 2 =
      if d ∈ ds then 1 else s.fget (rg .cadStatus d) 2 2 := by
  induction ds generalizing s with
  | nil => rfl
  | cons e ds ih =>
    rw [List.foldl_cons, ih]
    by_cases he : d = e
    · subst he
      simp [State.fget_fset_of_lt (s := s) (r := rg .cadStatus d) (hi := 2) (lo := 2) (n := 1) (by decide) (by decide) (by decide)]
    · have hne : rg .cadStatus d ≠ rg .cadStatus e := fun h => he (congrArg Reg.i h)
      simp [he, State.fget_fset_ne _ _ hne]

theorem State.reportFrame_linksDown (s : State) (ks : List Link) :
    s.ReportFrame (.linkStatus :: routeKinds) (s.linksDown ks) := .foldl _ (fun _ _ => State.reportFrame_setLanes_all 0) s

theorem State.lanes_linksDown (ks : List Link) (s : State) (k : Link) :
    (s.linksDown ks).lanes k = if k ∈ ks then 0 else s.lanes k := by
  unfold State.linksDown
  induction ks generalizing s with
  | nil => rfl
  | cons e ks ih =>
    rw [List.foldl_cons, ih]
    by_cases he : k = e
    · subst he
      simp [State.lanes_setLanes]
    · simp [he, State.lanes_setLanes_ne he]

theorem State.ReportFrame.epPort {t : State} {ks : List RegKind} (h : s.ReportFrame ks t) (hks : .bootStraps ∉ ks) :
    t.epPort = s.epPort := by
  simp only [State.epPort, h.fget hks]

/-- The loss of REFCLK before what it does to the expanders and the endpoint link. -/
def State.refclkDown (s : State) : State :=
  ({ s with pins := { s.pins with refclkLost := true } } : State).unlocked.linksDown allLinks

theorem exec_refclkLoss (s : State) : exec .refclkLoss s = .next ({ s.refclkDown with host := { s.refclkDown.host with
    lostPorts := (s.refclkDown.host.hdm.map fun (x : LAddr × Nat × Port) => x.2.2).dedup } } : State).epLost := rfl

theorem State.refclkDown_spec (s : State) : s.refclkDown.epPort = s.epPort ∧ s.refclkDown.pins.refclkLost = true ∧
    (∀ d : Die, s.refclkDown.fget (rg .cadStatus d.val) 2 2 = 1) ∧
    ∀ k : Link, s.refclkDown.fget (rg .linkStatus k.val) 1 0 = 0 := by
  unfold State.refclkDown
  generalize hlost : ({ s with pins := { s.pins with refclkLost := true } } : State) = lost
  have hunlock : lost.ReportFrame [.cadStatus] lost.unlocked := .foldl _ (fun _ _ => .fset (by decide) ..) lost
  have hdown := lost.unlocked.reportFrame_linksDown allLinks
  refine ⟨?_, ?_, fun d => ?_, fun k => ?_⟩
  · rw [hdown.epPort (by decide), hunlock.epPort (by decide), ← hlost]
    rfl
  · rw [hdown.rest, hunlock.rest, ← hlost]
  · rw [hdown.fget (by decide)]
    exact (State.fget_foldl_unlock _ lost d.val).trans (if_pos (List.mem_range.2 d.isLt))
  · exact (State.lanes_linksDown allLinks lost.unlocked k).trans (if_pos (List.mem_finRange k))

/-! ## Package warm resets (R677, R678, R683) -/

theorem State.mgtAlert_eq (s : State) : s.mgtAlert = { s with out := s.mgtAlert.out, pins := s.mgtAlert.pins } := by
  unfold State.mgtAlert; split <;> rfl

/-- A register after a warm reset: the bits that are kept, and the reset value of the others. -/
theorem State.reg_warmRegs (s : State) (r : Reg) : Tbl.get r.kind.resetValue s.warmRegs r =
    (s.reg r &&& r.kind.warmKept) ||| (r.kind.resetValue &&& ~~~r.kind.warmKept) := by
  refine Tbl.get_map_key (f := fun r w => (w &&& r.kind.warmKept) ||| (r.kind.resetValue &&& ~~~r.kind.warmKept)) ?_ s.regs
  refine BitVec.eq_of_getLsbD_eq fun n hn => ?_
  simp only [BitVec.getLsbD_or, BitVec.getLsbD_and, BitVec.getLsbD_not, hn, decide_true, Bool.true_and]
  cases r.kind.warmKept.getLsbD n <;> simp

/-- Whether a warm reset loses the memory at an address. -/
def warmLost (a : Nat) : Bool := regionOf a = .t1 || regionOf a = .window

/-- What a warm reset leaves of a die. -/
def DieSt.warm (k : DieSt) : DieSt := { time := k.time, supplyMv := k.supplyMv, errSeq := k.errSeq }

/-- A ready package that is warm reset is a state `u` without T1, scratchpads, streams and key slots, with new keys, at stage 0x7. -/
theorem State.warmReset_of_ready (byLattice : Bool) (hready : s.fget (rg .bootStatus) 4 4 = 1) (hrun : s.stoppedSeq = false)
    (hout : s.pins.pkgReset = false) : ∃ u : State,
      s.warmReset byLattice = (((u.newKeys true).fset (rg .bootStatus) 7 5 (if byLattice then 4 else 3)).toStage 7).mgtAlert ∧
      u.regs = s.warmRegs ∧ u.mem = s.mem.filter (fun x => !warmLost x.1) ∧ u.cores = [] ∧ u.ctxs = [] ∧
      u.dies = s.dies.map (fun x => (x.1, x.2.warm)) ∧ u.sec.m = s.sec.m.filter (fun x => decide (x.1 < 3)) ∧ u.sec.slots = [] ∧
      u.led = s.led ∧ u.out = s.out ∧ u.latticeSeqSent = s.latticeSeqSent ∧ u.latticeSeen = s.latticeSeen :=
  ⟨_, if_neg (by rw [hready, hrun, hout]; decide), rfl, rfl, rfl, rfl, rfl, rfl, rfl, rfl, rfl, rfl, rfl⟩

theorem State.measure_of_kept {u : State} (h : u.sec.m = s.sec.m.filter fun x => decide (x.1 < 3)) (i : Nat) :
    u.measure i = if i < 3 then s.measure i else 0 := by
  rw [State.measure, h]
  refine (Tbl.get_filter_key 0 (fun i => decide (i < 3)) s.sec.m i).trans ?_
  simp only [decide_eq_true_eq]
  rfl

theorem State.time_of_warm {u : State} (h : u.dies = s.dies.map fun x => (x.1, x.2.warm)) (d : Die) : u.time d = s.time d := by
  rw [State.time, State.die, h]
  exact (congrArg DieSt.time (Tbl.get_map_snd (d := {}) (f := DieSt.warm) rfl s.dies d) :)

theorem State.read_of_warm {u : State} (h : u.mem = s.mem.filter fun x => !warmLost x.1) (a : Nat) :
    Memory.read u.mem a = if regionOf a = .t1 ∨ regionOf a = .window then 0 else Memory.read s.mem a := by
  rw [h]
  refine (Memory.read_filter_key (fun a => !warmLost a) s.mem a).trans ?_
  by_cases hlost : regionOf a = .t1 ∨ regionOf a = .window
  · have hwarm : warmLost a = true := by simpa [warmLost] using hlost
    rw [if_pos hlost, hwarm]
    rfl
  · have hwarm : warmLost a = false := by simpa [warmLost] using hlost
    rw [if_neg hlost, hwarm]
    rfl

theorem State.unready_warmRegs (s : State) {u : State} (h : u.regs = s.warmRegs) : u.fget (rg .bootStatus) 4 4 = 0 := by
  have hkept : RegKind.bootStatus.warmKept = 0xFFFFFFFF00000000 := by decide
  have hreset : RegKind.bootStatus.resetValue = 0 := by decide
  have hreg : u.reg (rg .bootStatus) = s.reg (rg .bootStatus) &&& 0xFFFFFFFF00000000 := by
    rw [State.reg, h]
    refine (s.reg_warmRegs (rg .bootStatus)).trans ?_
    show (_ &&& RegKind.bootStatus.warmKept) ||| (RegKind.bootStatus.resetValue &&& _) = _
    simp [hkept, hreset]
  have hbit : u.fget (rg .bootStatus) 4 4 ≠ 1 := fun hone => by
    rw [State.fget, bits_self_eq_one, hreg, BitVec.getLsbD_and] at hone
    exact Bool.false_ne_true ((Bool.and_false _).symm.trans hone)
  have hlt : u.fget (rg .bootStatus) 4 4 < 2 := Nat.mod_lt _ (by decide)
  omega

/-- What a package warm reset of a ready package keeps and loses. -/
theorem State.warmReset_spec (byLattice : Bool) (hready : s.fget (rg .bootStatus) 4 4 = 1) (hrun : s.stoppedSeq = false)
    (hout : s.pins.pkgReset = false) :
    let t := s.warmReset byLattice
    t.fget (rg .bootStatus) 7 5 = (if byLattice then 4 else 3) ∧
    t.fget (rg .bootStatus) 3 0 = 7 ∧ t.fget (rg .bootStatus) 4 4 = 0 ∧ t.cores = [] ∧ t.ctxs = [] ∧ t.sec.slots = [] ∧
    (∀ i, t.measure i = if i < 3 then s.measure i else 0) ∧ (∀ d, t.time d = s.time d) ∧ t.led = s.led ∧
    ∀ a, Memory.read t.mem a = if regionOf a = .t1 ∨ regionOf a = .window then 0 else Memory.read s.mem a := by
  obtain ⟨u, heq, hregs, hmem, hcores, hctxs, hdies, hm, hslots, hled, -, -, -⟩ :=
    State.warmReset_of_ready byLattice hready hrun hout
  rw [heq, State.mgtAlert_eq]
  refine ⟨?_, State.fget_fset_of_lt (by decide) (by decide) (by decide), ?_, hcores, hctxs, hslots,
    State.measure_of_kept hm, State.time_of_warm hdies, hled, State.read_of_warm hmem⟩
  · exact (State.fget_fset_of_disjoint _ _ (by decide) (by decide) (by decide)).trans
      (State.fget_fset_of_lt (by decide) (by decide) (by split <;> decide))
  · exact (State.fget_fset_of_disjoint _ _ (by decide) (by decide) (by decide)).trans
      ((State.fget_fset_of_disjoint _ _ (by decide) (by decide) (by decide)).trans (s.unready_warmRegs hregs))

end
end Sys2Proof.Machine
end

section
/-! SUPPORT of the smaller resets: what a host core-complex reset, a per-core reset and a per-domain reset leave. -/

namespace Sys2Proof.Machine

section
variable {s t : State}

/-! ## Host core-complex resets (R638, R644, R677) -/

/-- A hart after a host reset: it runs again where it is available. -/
def HartSt.restarted (h : HartSt) : HartSt := if h = .unavailable then h else .running

/-- The host after its stores are dropped, its caches begin their flush, its logs are empty, M3 to M7 are clear and its harts run. -/
def State.hostCleared (s : State) : State :=
  let x := s.dropRequests fun r => match r with | .hart _ => true | _ => false
  let t := (x.1.startFlush fun _ => true).logErr hd
    { cls := 0x05, index := 0xFFFF, action := 0x00, count := BitVec.ofNat 16 (min x.2 65535) }
  { t with
    sec := { t.sec with
      m := t.sec.m.filter fun x => decide (x.1 < 3), programs := [], weights := [], progOver := false, weightOver := false }
    host := { t.host with harts := t.host.harts.map fun h => (h.1, h.2.restarted) } }

/-- The host firmware of the running bank measured into M3, with a new transport key. -/
def State.hostMeasured (s : State) : State :=
  let bank : Bool := s.fget (rg .bootFwStatus) 0 0 = 1
  let y := if bank = s.fw.hostBank then (s, s.fw.hostDigest) else s.freeDigest
  ({ y.1 with fw := { y.1.fw with hostDigest := y.2, hostBank := bank } }.newKeys false).extend 3 (digestBytes y.2)

/-- The units of the host at their reset values. -/
def State.hostUnits (s : State) : State :=
  (List.range 64).foldl (fun s i => (s.setReg (rg .unitCtl (224 + i)) (RegKind.resetValue .unitCtl)).setReg
    (rg .unitStatus (224 + i)) (RegKind.resetValue .unitStatus)) s

theorem State.hostReset_of_ready (hready : s.fget (rg .bootStatus) 4 4 = 1) (hrun : s.stoppedSeq = false) :
    s.hostReset = s.hostCleared.hostMeasured.hostUnits.bump (rg .secStatus) 31 16 1 :=
  if_neg (by rw [hready, hrun]; decide)

theorem State.hostCleared_mem (s : State) : s.hostCleared.mem = s.mem := State.logErr_mem ..

theorem State.hostCleared_fw (s : State) : s.hostCleared.fw = s.fw :=
  (congrArg State.fw (State.logErr_eq ((s.dropRequests _).1.startFlush _) hd _) :)

theorem State.hostCleared_sec (s : State) : s.hostCleared.sec.m = s.sec.m.filter (fun x => decide (x.1 < 3)) ∧
    s.hostCleared.sec.programs = [] ∧ s.hostCleared.sec.weights = [] := by
  refine ⟨?_, rfl, rfl⟩
  exact congrArg (fun k : SecSt => k.m.filter fun x => decide (x.1 < 3))
    (congrArg State.sec (State.logErr_eq ((s.dropRequests _).1.startFlush _) hd _) :)

theorem State.hart_hostCleared (s : State) (h : HartIx) : s.hostCleared.hart h = (s.hart h).restarted := by
  have hharts : s.hostCleared.host.harts = s.host.harts.map fun h => (h.1, h.2.restarted) := by
    simp only [State.hostCleared, State.logErr_host]
    rfl
  rw [State.hart, hharts]
  exact Tbl.get_map_snd (d := .unavailable) (f := HartSt.restarted) rfl s.host.harts h.val

theorem State.fget_hostCleared (s : State) {r : Reg} (hr : r ≠ rg .errStatus) (hi lo : Nat) :
    s.hostCleared.fget r hi lo = s.fget r hi lo :=
  State.fget_logErr_ne (s := (s.dropRequests _).1.startFlush _) hd _ hi lo hr

/-- The measurement leaves the logs, the memory, the registers and the host. -/
theorem State.hostMeasured_frame (s : State) : s.hostMeasured.sec.programs = s.sec.programs ∧
    s.hostMeasured.sec.weights = s.sec.weights ∧ s.hostMeasured.mem = s.mem ∧ s.hostMeasured.regs = s.regs ∧
    s.hostMeasured.host = s.host := by
  unfold State.hostMeasured
  dsimp only
  split <;> exact ⟨rfl, rfl, rfl, rfl, rfl⟩

theorem State.measure_hostMeasured_ne (s : State) {i : Nat} (h : i ≠ 3) : s.hostMeasured.measure i = s.measure i := by
  unfold State.hostMeasured
  dsimp only
  rw [State.measure, State.extend, Tbl.get_set_ne _ _ _ h]
  split <;> rfl

/-- The digest of the bank that the harts already run is known. -/
theorem State.measure_hostMeasured_three (s : State) (h : s.fget (rg .bootFwStatus) 0 0 = 1 ↔ s.fw.hostBank = true) :
    s.hostMeasured.measure 3 = Config.sha3 (digestBytes (s.measure 3) ++ digestBytes s.fw.hostDigest) := by
  have hbank : decide (s.fget (rg .bootFwStatus) 0 0 = 1) = s.fw.hostBank :=
    Bool.eq_iff_iff.2 (decide_eq_true_iff.trans h)
  unfold State.hostMeasured
  dsimp only
  rw [if_pos hbank]
  exact Tbl.get_set_self ..

theorem State.hostUnits_frame (s : State) : s.hostUnits.sec = s.sec ∧ s.hostUnits.mem = s.mem ∧ s.hostUnits.host = s.host :=
  foldl_keeps (P := fun t : State => t.sec = s.sec ∧ t.mem = s.mem ∧ t.host = s.host) _ _ s ⟨rfl, rfl, rfl⟩ fun _ _ ht => ht

theorem State.fget_hostUnits (s : State) {k : RegKind} (hk : k ∉ [RegKind.unitCtl, .unitStatus]) (i j hi lo : Nat) :
    s.hostUnits.fget (rg k i j) hi lo = s.fget (rg k i j) hi lo := by
  rw [List.mem_cons, List.mem_singleton, not_or] at hk
  refine foldl_keeps (P := fun t : State => t.fget (rg k i j) hi lo = s.fget (rg k i j) hi lo) _ _ s rfl fun t n ht => ?_
  rw [State.fget, State.reg_setReg_ne _ _ (rg_ne hk.2), State.reg_setReg_ne _ _ (rg_ne hk.1)]
  exact ht

/-- What a host core-complex reset of a ready package keeps and loses. -/
theorem State.hostReset_spec (hready : s.fget (rg .bootStatus) 4 4 = 1) (hrun : s.stoppedSeq = false) :
    let t := s.hostReset
    t.fget (rg .secStatus) 31 16 = min (s.fget (rg .secStatus) 31 16 + 1) 65535 ∧
    t.sec.programs = [] ∧ t.sec.weights = [] ∧ (∀ i, 3 < i → t.measure i = 0) ∧ t.mem = s.mem ∧
    (∀ h, s.hart h ≠ .unavailable → t.hart h = .running) ∧
    ((s.fget (rg .bootFwStatus) 0 0 = 1 ↔ s.fw.hostBank = true) →
      t.measure 3 = Config.sha3 (digestBytes 0 ++ digestBytes s.fw.hostDigest)) := by
  obtain ⟨hm, hprograms, hweights⟩ := s.hostCleared_sec
  have hkept (i : Nat) : s.hostCleared.measure i = if i < 3 then s.measure i else 0 := State.measure_of_kept hm i
  dsimp only
  rw [State.hostReset_of_ready hready hrun]
  obtain ⟨hprograms', hweights', hmem', hregs', hhost'⟩ := s.hostCleared.hostMeasured_frame
  obtain ⟨hsec, hmem, hhost⟩ := s.hostCleared.hostMeasured.hostUnits_frame
  have hcount := s.hostCleared.hostMeasured.fget_hostUnits (k := .secStatus) (by decide) 0 0 31 16
  generalize s.hostCleared.hostMeasured.hostUnits = w at hsec hmem hhost hcount
  have hmeasure (i : Nat) : (w.bump (rg .secStatus) 31 16 1).measure i = s.hostCleared.hostMeasured.measure i :=
    congrArg (fun k : SecSt => Tbl.get 0 k.m i) hsec
  refine ⟨?_, ?_, ?_, fun i hi => ?_, ?_, fun h hh => ?_, fun hbank => ?_⟩
  · rw [State.fget_bump_self _ _ (by decide) (by decide), hcount, State.fget_congr _ hregs',
      s.fget_hostCleared (rg_ne (by decide))]
    rfl
  · exact (congrArg SecSt.programs hsec).trans (hprograms'.trans hprograms)
  · exact (congrArg SecSt.weights hsec).trans (hweights'.trans hweights)
  · rw [hmeasure, State.measure_hostMeasured_ne _ (Nat.ne_of_gt hi), hkept, if_neg (by omega)]
  · exact hmem.trans (hmem'.trans s.hostCleared_mem)
  · have hhart : (w.bump (rg .secStatus) 31 16 1).hart h = s.hostCleared.hart h :=
      congrArg (fun k : HostSt => Tbl.get HartSt.unavailable k.harts h.val) (hhost.trans hhost')
    rw [hhart, s.hart_hostCleared, HartSt.restarted, if_neg hh]
  · rw [hmeasure, State.measure_hostMeasured_three, hkept, s.hostCleared_fw]
    · rfl
    · rwa [s.fget_hostCleared (rg_ne (by decide)), s.hostCleared_fw]

/-! ## Per-core resets (R680, R683) -/

theorem State.ctx_foldl_cleared (cs : List Cx) (s : State) (c : Cx) :
    (cs.foldl (fun s c => (s.dropWalks (.ctx c)).setCtx c {}) s).ctx c = if c ∈ cs then {} else s.ctx c := by
  induction cs generalizing s with
  | nil => rfl
  | cons e cs ih =>
    rw [List.foldl_cons, ih]
    by_cases hc : c = e
    · subst hc
      simp
    · simp only [List.mem_cons, hc, false_or, State.ctx_setCtx_ne _ _ hc]
      rfl

/-- What a core keeps through its reset: the records and commands that wait, and its place in time. -/
def Core.kept (q : Core) : Core :=
  { events := q.events, sqHeld := q.sqHeld, takeover := q.takeover, detectAt := q.detectAt, stepAt := q.stepAt, steps := q.steps
    nextId := q.nextId }

/-- Whether a requester is a context of a logical core. -/
def Requester.ofCore (l : LC) : Requester → Bool
  | .ctx c => c.lc = l
  | _ => false

/-- The contexts of a logical core cleared, once its chains are unloaded and its requests dropped. -/
def State.ctxsCleared (s : State) (l : LC) : State :=
  (ctxsOf l).foldl (fun s c => (s.dropWalks (.ctx c)).setCtx c {}) ((s.unloadChains l).dropRequests (Requester.ofCore l)).1

/-- The core and its contexts cleared, before its registers and its record. -/
def State.coreCleared (s : State) (l : LC) : State :=
  ({ s.ctxsCleared l with
    resetEnded := ((s.ctxsCleared l).resetEnded ++ (s.core l).streams.map fun (x : Stream) => (l, x.id)).dedup
    cnt := (s.ctxsCleared l).cnt.filter fun x => x.1.1.lc ≠ l } : State).setCore l (s.core l).kept

theorem State.core_coreCleared (s : State) (l : LC) : (s.coreCleared l).core l = (s.core l).kept := State.core_setCore ..

theorem State.ctx_coreCleared (s : State) (l : LC) (c : Cx) : (s.coreCleared l).ctx c = (s.ctxsCleared l).ctx c := by
  unfold State.coreCleared
  generalize s.ctxsCleared l = u
  rfl

/-- The counters and the counts of a core read as after reset. -/
def State.coreCounts (s : State) (l : LC) : State :=
  ([.coreSlice, .coreCksCount, .coreSpdEcc] : List RegKind).foldl
    (fun s k => s.setReg (rg k l.val) (s.reg (rg k l.val) &&& ~~~k.maskOf [.rc]))
    ((List.range 64).foldl (fun s n => s.setReg (rg .lcCnt l.val n) 0) s)

theorem State.coreReset_of_ready (l : LC) (hready : s.fget (rg .bootStatus) 4 4 = 1) (hrun : s.stoppedSeq = false) :
    ∃ e : ErrRec, s.coreReset l = ((s.coreCleared l).coreCounts l).logErr (LC.die l) e :=
  ⟨_, if_neg (by rw [hready, hrun]; decide)⟩

/-- Registers set one after the other leave the cores and the contexts. -/
theorem State.foldl_setReg_cores {α : Type} (r : α → Reg) (w : State → α → W64) (l : List α) (s : State) :
    (l.foldl (fun s x => s.setReg (r x) (w s x)) s).cores = s.cores ∧
    (l.foldl (fun s x => s.setReg (r x) (w s x)) s).ctxs = s.ctxs :=
  foldl_keeps (P := fun t : State => t.cores = s.cores ∧ t.ctxs = s.ctxs) _ l s ⟨rfl, rfl⟩ fun _ _ ht => ht

theorem State.coreCounts_frame (s : State) (l : LC) : (s.coreCounts l).cores = s.cores ∧ (s.coreCounts l).ctxs = s.ctxs := by
  obtain ⟨hcores, hctxs⟩ := State.foldl_setReg_cores (fun n => rg .lcCnt l.val n) (fun _ _ => 0) (List.range 64) s
  obtain ⟨hcores', hctxs'⟩ := State.foldl_setReg_cores (fun k => rg k l.val)
    (fun s k => s.reg (rg k l.val) &&& ~~~k.maskOf [.rc]) [.coreSlice, .coreCksCount, .coreSpdEcc]
    ((List.range 64).foldl (fun s n => s.setReg (rg .lcCnt l.val n) 0) s)
  exact ⟨hcores'.trans hcores, hctxs'.trans hctxs⟩

theorem State.coreReset_spec (l : LC) (hready : s.fget (rg .bootStatus) 4 4 = 1) (hrun : s.stoppedSeq = false) :
    (s.coreReset l).core l = (s.core l).kept ∧ ∀ c ∈ ctxsOf l, (s.coreReset l).ctx c = {} := by
  obtain ⟨e, heq⟩ := State.coreReset_of_ready l hready hrun
  obtain ⟨hcores, hctxs⟩ := (s.coreCleared l).coreCounts_frame l
  have hcleared (c : Cx) (hc : c ∈ ctxsOf l) : (s.coreCleared l).ctx c = {} := by
    rw [State.ctx_coreCleared, State.ctxsCleared, State.ctx_foldl_cleared, if_pos hc]
  have hkept := s.core_coreCleared l
  generalize (s.coreCleared l).coreCounts l = u at heq hcores hctxs
  generalize s.coreCleared l = v at hcores hctxs hcleared hkept
  rw [heq]
  refine ⟨?_, fun c hc => ?_⟩
  · rw [State.core_congr ((congrArg State.cores (u.logErr_eq (LC.die l) e) :).trans hcores), hkept]
  · rw [State.ctx, State.logErr_ctxs, hctxs]
    exact hcleared c hc

/-! ## Per-domain resets (R682, R683) -/

/-- A per-domain reset shows its result. -/
theorem leads_perDomainReset {target : BitVec 9} {P : State → Prop} (hready : s.fget (rg .bootStatus) 4 4 = 1)
    (hrun : s.stoppedSeq = false)
    (hP : P ((s.domainReset target.toNat).1.fset (rg .bootReset) 39 32 (s.domainReset target.toNat).2)) :
    Leads (.perDomainReset target) s P :=
  .intro (congrArg Host.Outcome.next (if_neg (by rw [hready, hrun]; decide))) hP

theorem in_block {n lo hi : Nat} (hlo : lo ≤ n) (hhi : n < hi) : (decide (lo ≤ n) && decide (n < hi)) = true := by
  simp [hlo, hhi]

theorem not_in_block {n lo hi : Nat} (h : n < lo ∨ hi ≤ n) : ¬ (decide (lo ≤ n) && decide (n < hi)) = true := by
  simp only [Bool.and_eq_true, decide_eq_true_eq]
  omega

/-- The result of a per-domain reset, by the block of its target. -/
theorem State.domainReset_result (s : State) (n : Nat) : (s.domainReset n).2 =
    if 192 ≤ n ∧ n < 208 then (if (s.stack (Fin.ofNat 16 (n - 192))).stripes = [] then 0 else 3)
    else if (208 ≤ n ∧ n < 224) ∨ (288 ≤ n ∧ n < 360) then 0 else if n < 312 then 2 else 1 := by
  unfold State.domainReset
  dsimp only
  by_cases hstack : 192 ≤ n ∧ n < 208
  · rw [if_pos (by simpa using hstack), if_pos hstack]
    cases (s.stack (Fin.ofNat 16 (n - 192))).stripes <;> rfl
  · rw [if_neg (by simpa using hstack), if_neg hstack]
    simp only [Bool.and_eq_true, decide_eq_true_eq, apply_ite Prod.snd]
    split_ifs <;> omega

theorem State.domainReset_result_lt (s : State) (n : Nat) : (s.domainReset n).2 < 2 ^ (39 + 1 - 32) := by
  rw [State.domainReset_result]
  split_ifs <;> decide

theorem State.domainRegs_msc (s : State) (rs : List Reg) : (s.domainRegs rs).msc = s.msc :=
  foldl_keeps (P := fun t : State => t.msc = s.msc) _ rs s rfl fun _ _ ht => ht

theorem State.bankOff_msc (s : State) (b : Nat) : (s.bankOff b).msc = s.msc :=
  foldl_keeps (P := fun t : State => t.msc = s.msc) _ _ s rfl fun _ _ ht => ht

theorem State.mscOf_emptied (hs : List Slice) (s : State) (h : Slice) :
    (hs.foldl (fun s h => s.mscEmpty h fun _ => true) s).mscOf h = if h ∈ hs then [] else s.mscOf h :=
  State.mscOf_foldl (g := fun _ => []) (fun _ => rfl) (fun s h => by rw [s.mscOf_mscEmpty]; simp)
    (fun s _ _ hne => s.mscOf_mscEmpty_ne _ hne) hs s h

/-- The slices of a bank are empty after its reset. -/
theorem State.mscOf_domainReset {n : Nat} (hlo : 208 ≤ n) (hhi : n < 224) {i : Nat} (hi : i < 4) :
    (s.domainReset n).1.mscOf (Fin.ofNat 64 (4 * (n - 208) + i)) = [] := by
  unfold State.domainReset
  rw [if_neg (not_in_block (by omega)), if_pos (in_block hlo hhi)]
  dsimp only
  rw [State.mscOf_congr ((State.bankOff_msc ..).trans (State.domainRegs_msc ..)),
    ← List.foldl_map (f := fun i => Fin.ofNat 64 (4 * (n - 208) + i)) (g := fun (s : State) h => s.mscEmpty h fun _ => true),
    State.mscOf_emptied, if_pos (List.mem_map.2 ⟨i, List.mem_range.2 hi, rfl⟩)]

/-- A link has no lane after its reset. -/
theorem State.lanes_domainReset {n : Nat} (hlo : 312 ≤ n) (hhi : n < 360) :
    (s.domainReset n).1.fget (rg .linkStatus (n - 312)) 1 0 = 0 := by
  have hk : n - 312 = (Fin.ofNat 48 (n - 312)).val := (Nat.mod_eq_of_lt (by omega)).symm
  unfold State.domainReset
  rw [if_neg (not_in_block (by omega)), if_neg (not_in_block (by omega)), if_neg (not_in_block (by omega)),
    if_neg (not_in_block (by omega)), if_neg (not_in_block (by omega)), if_pos (in_block hlo hhi)]
  generalize (Fin.ofNat 48 (n - 312) : Link) = k at hk
  dsimp only
  rw [hk]
  rw [State.fget_fset_of_disjoint _ _ (by decide) (by decide) (by decide),
    State.fget_fset_of_disjoint _ _ (by decide) (by decide) (by decide), State.domainRegs, List.foldl_cons, List.foldl_nil,
    State.fget, State.reg_setReg_ne _ _ (rg_ne (by decide))]
  exact State.lanes_setLanes (by decide) 0

end

end Sys2Proof.Machine
end

section
/-! PROOF of the resets and of the firmware switch: what a lattice reset sends, the steps of a switch, and each reset in the case that
it meets. -/

namespace Sys2Proof.Machine

section
variable {s : State}

/-! ## Lattice resets (R535, R679) -/

theorem State.sendReset_eq (dims : List Nat) (seq : W16) (s : State) :
    s.sendReset dims seq = { s with out := s.out ++ dims.map (.latticeReset · seq) } := by
  unfold State.sendReset
  induction dims generalizing s with
  | nil => simp
  | cons d dims ih => rw [List.foldl_cons, ih]; simp [State.emit]

theorem State.mem_out_mgtAlert {m : OutMsg} (h : m ∈ s.out) : m ∈ s.mgtAlert.out := by
  unfold State.mgtAlert
  split
  next => exact List.mem_append_left _ h
  next => exact h

/-- A warm reset keeps the numbers of lattice resets and the messages sent. -/
theorem State.warmReset_lattice (s : State) (byLattice : Bool) : (s.warmReset byLattice).latticeSeqSent = s.latticeSeqSent ∧
    (s.warmReset byLattice).latticeSeen = s.latticeSeen ∧ ∀ m ∈ s.out, m ∈ (s.warmReset byLattice).out := by
  by_cases hbusy : (s.fget (rg .bootStatus) 4 4 = 0 || s.stoppedSeq || s.pins.pkgReset) = true
  · rw [show s.warmReset byLattice = s from if_pos hbusy]
    exact ⟨rfl, rfl, fun _ h => h⟩
  · simp only [Bool.or_eq_true, decide_eq_true_eq, not_or, Bool.not_eq_true] at hbusy
    obtain ⟨⟨hready, hrun⟩, hout⟩ := hbusy
    have hbit : s.fget (rg .bootStatus) 4 4 < 2 := Nat.mod_lt _ (by decide)
    obtain ⟨u, heq, -, -, -, -, -, -, -, -, hsent, hseq, hseen⟩ := State.warmReset_of_ready byLattice (by omega) hrun hout
    rw [heq]
    refine ⟨?_, ?_, fun m hm => State.mem_out_mgtAlert (hsent ▸ hm)⟩
    · rw [State.mgtAlert_eq]
      exact hseq
    · rw [State.mgtAlert_eq]
      exact hseen

/-- The state after a lattice reset from a peer in a dimension is noted and forwarded. -/
def State.relayed (s : State) (dim : Nat) (seq : W16) : State :=
  (({ s with latticeSeen := some seq } : State).sendReset ((s.popDims.filter fun d => decide (dim < d)).take 1) seq).fset
    (rg .bootCtl) 23 8 seq.toNat

theorem State.relayed_frame (s : State) (dim : Nat) (seq : W16) : (s.relayed dim seq).latticeSeen = some seq ∧
    (s.relayed dim seq).stoppedSeq = s.stoppedSeq ∧ (s.relayed dim seq).pins = s.pins ∧
    ∀ d, (s.popDims.filter fun d => decide (dim < d)).head? = some d → .latticeReset d seq ∈ (s.relayed dim seq).out := by
  unfold State.relayed
  rw [State.sendReset_eq]
  refine ⟨rfl, rfl, rfl, fun d hd => List.mem_append_right _ ?_⟩
  rw [List.take_one, hd]
  exact List.mem_singleton_self _

theorem State.fget_relayed (s : State) (dim : Nat) (seq : W16) :
    (s.relayed dim seq).fget (rg .bootCtl) 0 0 = s.fget (rg .bootCtl) 0 0 ∧
    (s.relayed dim seq).fget (rg .bootCtl) 23 8 = seq.toNat ∧
    ∀ hi lo, (s.relayed dim seq).fget (rg .bootStatus) hi lo = s.fget (rg .bootStatus) hi lo := by
  unfold State.relayed
  rw [State.sendReset_eq]
  exact ⟨State.fget_fset_of_disjoint _ _ (by decide) (by decide) (by decide),
    State.fget_fset_of_lt (by decide) (by decide) seq.isLt, fun hi lo => State.fget_fset_kind _ _ (by decide)⟩

theorem exec_latticeResetReceive {dim : Fin 3} {seq : W16} (hnew : s.latticeSeen ≠ some seq) : ∃ e : ErrRec,
    exec (.latticeResetReceive dim seq) s = .next (if s.fget (rg .bootCtl) 0 0 = 0
      then ((s.relayed dim.val seq).logErr hd e).drawn else (s.relayed dim.val seq).warmReset true) := by
  rw [← (s.fget_relayed dim.val seq).1]
  exact ⟨_, congrArg Host.Outcome.next (if_neg hnew)⟩

theorem exec_packageWarmReset (byLattice : Bool) (s : State) :
    exec (.packageWarmReset byLattice) s = .next (s.warmReset byLattice) := rfl

theorem leads_packageWarmReset {byLattice : Bool} {P : State → Prop} (h : P (s.warmReset byLattice)) :
    Leads (.packageWarmReset byLattice) s P := .intro (exec_packageWarmReset byLattice s) h

/-- The state that has taken the next lattice reset number and sent it to the first peer. -/
def State.numbered (s : State) : State :=
  { s with latticeSeqSent := s.latticeSeqSent + 1, latticeSeen := some (s.latticeSeqSent + 1),
           out := s.out ++ (s.popDims.take 1).map (.latticeReset · (s.latticeSeqSent + 1)) }

theorem exec_latticeReset (s : State) : exec .latticeReset s = .next (s.numbered.warmReset true) := by
  refine (?_ : exec .latticeReset s = .next ((State.sendReset { s with
    latticeSeqSent := s.latticeSeqSent + 1, latticeSeen := some (s.latticeSeqSent + 1) } (s.popDims.take 1)
    (s.latticeSeqSent + 1)).warmReset true)).trans (by rw [State.sendReset_eq]; rfl)
  rfl

theorem State.numbered_spec (s : State) : let t := s.numbered.warmReset true
    t.latticeSeqSent = s.latticeSeqSent + 1 ∧ t.latticeSeen = some (s.latticeSeqSent + 1) ∧
    ∀ d ∈ s.popDims.take 1, .latticeReset d (s.latticeSeqSent + 1) ∈ t.out := by
  obtain ⟨hsent, hseen, hkept⟩ := s.numbered.warmReset_lattice true
  exact ⟨hsent, hseen, fun d hd => hkept _ (List.mem_append_right _ (List.mem_map_of_mem hd))⟩

/-- A new lattice reset is noted and forwarded, whatever this package does with it. -/
theorem leads_latticeResetReceive_noted {dim : Fin 3} {seq : W16} (hnew : s.latticeSeen ≠ some seq) :
    Leads (.latticeResetReceive dim seq) s fun t => t.latticeSeen = some seq ∧
      ∀ d, (s.popDims.filter fun d => decide (dim.val < d)).head? = some d → .latticeReset d seq ∈ t.out := by
  obtain ⟨e, hexec⟩ := exec_latticeResetReceive (dim := dim) hnew
  obtain ⟨hseen, -, -, hout⟩ := s.relayed_frame dim.val seq
  refine .intro hexec ?_
  split
  next =>
    rw [State.logErr_eq]
    exact ⟨hseen, hout⟩
  next =>
    obtain ⟨-, hkept, hsent⟩ := (s.relayed dim.val seq).warmReset_lattice true
    exact ⟨hkept.trans hseen, fun d hd => hsent _ (hout d hd)⟩

/-- Without lattice resets enabled, one from a peer leaves its number and no reset. -/
theorem leads_latticeResetReceive_disabled {dim : Fin 3} {seq : W16} (hnew : s.latticeSeen ≠ some seq)
    (hoff : s.fget (rg .bootCtl) 0 0 = 0) : Leads (.latticeResetReceive dim seq) s fun t =>
      t.fget (rg .bootCtl) 23 8 = seq.toNat ∧ t.fget (rg .bootStatus) 4 4 = s.fget (rg .bootStatus) 4 4 := by
  obtain ⟨e, hexec⟩ := exec_latticeResetReceive (dim := dim) hnew
  obtain ⟨-, hseq, hstatus⟩ := s.fget_relayed dim.val seq
  rw [if_pos hoff] at hexec
  exact .intro hexec ⟨(State.fget_logErr_ne hd e 23 8 (rg_ne (by decide))).trans hseq,
    (State.fget_logErr_ne hd e 4 4 (rg_ne (by decide))).trans (hstatus 4 4)⟩

/-- With lattice resets enabled, one from a peer warm resets a ready package. -/
theorem leads_latticeResetReceive_enabled {dim : Fin 3} {seq : W16} (hnew : s.latticeSeen ≠ some seq)
    (hon : s.fget (rg .bootCtl) 0 0 = 1) (hready : s.fget (rg .bootStatus) 4 4 = 1) (hrun : s.stoppedSeq = false)
    (hout : s.pins.pkgReset = false) :
    Leads (.latticeResetReceive dim seq) s fun t => t.fget (rg .bootStatus) 7 5 = 4 := by
  obtain ⟨e, hexec⟩ := exec_latticeResetReceive (dim := dim) hnew
  obtain ⟨-, hstop, hpins, -⟩ := s.relayed_frame dim.val seq
  obtain ⟨-, -, hstatus⟩ := s.fget_relayed dim.val seq
  rw [if_neg (by rw [hon]; decide)] at hexec
  exact .intro hexec
    (State.warmReset_spec true ((hstatus 4 4).trans hready) (hstop.trans hrun) (by rw [hpins]; exact hout)).1

/-! ## The resets of the package, of the host complex and of a core -/

theorem leads_packageColdReset {byPin : Bool} {P : State → Prop} (h : P (s.coldReset byPin)) :
    Leads (.packageColdReset byPin) s P := .intro rfl h

theorem leads_hostCoreComplexReset {P : State → Prop} (h : P s.hostReset) : Leads .hostCoreComplexReset s P := .intro rfl h

theorem leads_perCoreReset {l : LC} {P : State → Prop} (h : P (s.coreReset l)) : Leads (.perCoreReset l) s P := .intro rfl h

/-! ## Per-domain resets (R682) -/

theorem leads_perDomainReset_code {target : BitVec 9} {code : Nat} (hready : s.fget (rg .bootStatus) 4 4 = 1)
    (hrun : s.stoppedSeq = false) (hcode : (s.domainReset target.toNat).2 = code) :
    Leads (.perDomainReset target) s fun t => t.fget (rg .bootReset) 39 32 = code := by
  refine leads_perDomainReset hready hrun ?_
  rw [← hcode]
  exact State.fget_fset_of_lt (by decide) (by decide) (s.domainReset_result_lt _)

/-- A bank is reset with its slices emptied. -/
theorem leads_perDomainReset_bank {target : BitVec 9} (hready : s.fget (rg .bootStatus) 4 4 = 1)
    (hrun : s.stoppedSeq = false) (hlo : 208 ≤ target.toNat) (hhi : target.toNat < 224) :
    Leads (.perDomainReset target) s fun t => t.fget (rg .bootReset) 39 32 = 0 ∧
      ∀ i < 4, t.mscOf (Fin.ofNat 64 (4 * (target.toNat - 208) + i)) = [] := by
  have hcode : (s.domainReset target.toNat).2 = 0 := by
    rw [State.domainReset_result, if_neg (by omega), if_pos (by omega)]
  refine leads_perDomainReset hready hrun ⟨?_, fun i hi => ?_⟩
  · rw [hcode]
    exact State.fget_fset_of_lt (by decide) (by decide) (by decide)
  · exact (State.mscOf_congr rfl _).trans (State.mscOf_domainReset hlo hhi hi)

theorem leads_perDomainReset_link {target : BitVec 9} (hready : s.fget (rg .bootStatus) 4 4 = 1)
    (hrun : s.stoppedSeq = false) (hlo : 312 ≤ target.toNat) (hhi : target.toNat < 360) :
    Leads (.perDomainReset target) s fun t => t.fget (rg .linkStatus (target.toNat - 312)) 1 0 = 0 :=
  leads_perDomainReset hready hrun ((State.fget_fset_kind _ _ (by decide)).trans (State.lanes_domainReset hlo hhi))

/-! ## The loss of REFCLK (R663) -/

theorem State.epLost_of_none (h : s.epPort = none) : s.epLost = s := by
  unfold State.epLost
  rw [h]

/-- The state in which the loss of REFCLK has taken the expander ports, before the endpoint link. -/
def State.portsLost (s : State) : State :=
  { s.refclkDown with host := { s.refclkDown.host with
    lostPorts := (s.refclkDown.host.hdm.map fun (x : LAddr × Nat × Port) => x.2.2).dedup } }

theorem State.portsLost_frame (s : State) : s.portsLost.epPort = s.epPort ∧ s.portsLost.pins = s.refclkDown.pins ∧
    ∀ r hi lo, s.portsLost.fget r hi lo = s.refclkDown.fget r hi lo :=
  ⟨s.refclkDown_spec.1, rfl, fun _ _ _ => rfl⟩

theorem leads_refclkLoss_of_none (hnone : s.epPort = none) : Leads .refclkLoss s fun t => t.pins.refclkLost = true ∧
    (∀ d : Die, t.fget (rg .cadStatus d.val) 2 2 = 1) ∧ ∀ k : Link, t.fget (rg .linkStatus k.val) 1 0 = 0 := by
  obtain ⟨-, hlost, hdies, hlinks⟩ := s.refclkDown_spec
  obtain ⟨hport, hpins, hreg⟩ := s.portsLost_frame
  refine .intro ((exec_refclkLoss s).trans (congrArg Host.Outcome.next (State.epLost_of_none (hport.trans hnone)))) ?_
  exact ⟨(congrArg Pins.refclkLost hpins).trans hlost, fun d => (hreg ..).trans (hdies d), fun k => (hreg ..).trans (hlinks k)⟩

theorem leads_refclkLoss_of_isSome (hsome : s.epPort.isSome = true) : Leads .refclkLoss s fun t => t.host.epUp = false := by
  obtain ⟨p, hp⟩ := Option.isSome_iff_exists.1 hsome
  exact .intro (exec_refclkLoss s)
    (congrArg EndpointView.up (State.epLost_endpoint (s := s.portsLost) (s.portsLost_frame.1.trans hp)))

/-! ## The firmware switch (R684 to R687) -/

theorem exec_fwSwitch_busy {img : FwImage} (hbusy : s.fget (rg .bootFwStatus) 3 3 = 1) :
    exec (.fwSwitch img) s = .next (s.fset (rg .bootFwStatus) 15 8 2) := congrArg Host.Outcome.next (if_pos hbusy)

theorem exec_fwSwitch_idle {img : FwImage} (hidle : s.fget (rg .bootFwStatus) 3 3 = 0) :
    exec (.fwSwitch img) s = .next (if !img.verifies then s.fwResult 1 else if !img.initialises then s.fwResult 3
      else { s.fset (rg .bootFwStatus) 3 3 1 with fw := { s.fw with image := some img } }) :=
  congrArg Host.Outcome.next (if_neg (by rw [hidle]; decide))

theorem State.fget_bit_lt (s : State) (r : Reg) (n : Nat) : s.fget r n n < 2 :=
  Nat.lt_of_lt_of_eq (Nat.mod_lt _ (Nat.two_pow_pos _)) (by rw [Nat.add_sub_cancel_left]; rfl)

/-- The registers and M2 as the second part of a handoff leaves them. -/
def State.handedOver (s : State) (img : FwImage) (pause : W16) : State :=
  let r := rg .bootFwStatus
  let t := ((s.extend 2 (digestBytes img.headerDigest)).fset (rg .secStatus) 2 2 (1 - s.fget r 0 0)).fset (rg .secStatus) 63 32
    img.svn.toNat
  (((t.fset r 0 0 (1 - s.fget r 0 0)).fset r 2 2 (if s.stoppedSeq then 0 else 1)).fset r 31 16 pause.toNat).fset r 63 32
    (s.fget (rg .secStatus) 63 32)

theorem exec_handoff_of_none (pause : W16) (hnone : s.fw.image = none) : exec (.handoff pause) s = .next s := by
  refine congrArg Host.Outcome.next ?_
  rw [hnone]

theorem exec_handoff_begins {img : FwImage} (pause : W16) (himage : s.fw.image = some img) (hfirst : s.fw.handoff = false) :
    exec (.handoff pause) s = .next { s with fw := { s.fw with handoff := true } } := by
  refine congrArg Host.Outcome.next ?_
  rw [himage, hfirst]
  rfl

/-- The firmware's own record after a handoff to an image. -/
def State.fwHandedOver (s : State) (img : FwImage) : FwSt :=
  { s.fw with image := none, handoff := false, oldDigest := s.fw.newDigest, newDigest := img.headerDigest, probAt := s.time hd }

theorem exec_handoff_ends {img : FwImage} (pause : W16) (himage : s.fw.image = some img) (hbegun : s.fw.handoff = true)
    (hfree : s.mb.waits = false) : exec (.handoff pause) s = .next { s.handedOver img pause with fw := s.fwHandedOver img } := by
  have hidle : ¬ s.mb.waits = true := by rw [hfree]; decide
  refine congrArg Host.Outcome.next ?_
  simp only [himage, hbegun]
  exact if_neg hidle

theorem State.handedOver_spec (s : State) (img : FwImage) (pause : W16) (hrun : s.stoppedSeq = false) :
    let r := rg .bootFwStatus
    let t := s.handedOver img pause
    t.fget r 0 0 = 1 - s.fget r 0 0 ∧ t.fget r 2 2 = 1 ∧ t.fget r 31 16 = pause.toNat ∧
    t.fget (rg .secStatus) 63 32 = img.svn.toNat ∧
    t.measure 2 = Config.sha3 (digestBytes (s.measure 2) ++ digestBytes img.headerDigest) := by
  unfold State.handedOver
  simp (disch := decide) only [State.fget_fset_of_disjoint, State.fget_fset_kind, State.fget_fset_self, hrun]
  refine ⟨Nat.mod_eq_of_lt (by omega), rfl, Nat.mod_eq_of_lt pause.isLt, Nat.mod_eq_of_lt img.svn.isLt, ?_⟩
  exact Tbl.get_set_self ..

/-- What the end of a handoff shows: the other bank runs in probation, with the new version and the image measured into M2. -/
def HandedOver (s : State) (img : FwImage) (pause : W16) (t : State) : Prop :=
  let r := rg .bootFwStatus
  t.fget r 0 0 = 1 - s.fget r 0 0 ∧ t.fget r 2 2 = 1 ∧ t.fget r 31 16 = pause.toNat ∧
  t.fget (rg .secStatus) 63 32 = img.svn.toNat ∧ t.fw.image = none ∧ t.fw.handoff = false ∧
  t.measure 2 = Config.sha3 (digestBytes (s.measure 2) ++ digestBytes img.headerDigest)

/-- The registers and the measurements of a state `t` do not depend on its firmware record. Both are variables here: with their
terms in place the kernel would evaluate digests to compare the two states. -/
theorem handedOver_withFw {img : FwImage} {pause : W16} (t : State) (f : FwSt) (hnone : f.image = none) (hended : f.handoff = false)
    (h : let r := rg .bootFwStatus
      t.fget r 0 0 = 1 - s.fget r 0 0 ∧ t.fget r 2 2 = 1 ∧ t.fget r 31 16 = pause.toNat ∧
      t.fget (rg .secStatus) 63 32 = img.svn.toNat ∧
      t.measure 2 = Config.sha3 (digestBytes (s.measure 2) ++ digestBytes img.headerDigest)) :
    HandedOver s img pause { t with fw := f } := by
  obtain ⟨hbank, hprob, hpause, hsvn, hm2⟩ := h
  exact ⟨hbank, hprob, hpause, hsvn, hnone, hended, hm2⟩

theorem leads_handoff_ends {img : FwImage} {pause : W16} (himage : s.fw.image = some img) (hbegun : s.fw.handoff = true)
    (hfree : s.mb.waits = false) (hrun : s.stoppedSeq = false) : Leads (.handoff pause) s (HandedOver s img pause) :=
  .intro (exec_handoff_ends pause himage hbegun hfree)
    (handedOver_withFw _ _ rfl rfl (s.handedOver_spec img pause hrun))

/-- Probation that ends well makes the running bank the boot bank. -/
theorem State.fwCommit_spec (hprobation : s.fget (rg .bootFwStatus) 2 2 = 1) :
    let r := rg .bootFwStatus
    let t := s.fwCommit
    t.fget r 3 2 = 0 ∧ t.fget r 1 1 = s.fget r 0 0 ∧ t.fget r 15 8 = 0 ∧
    t.flash.bootBank = decide (s.fget r 0 0 = 1) := by
  have hregs : s.fwCommit.regs = (((s.fset (rg .bootFwStatus) 1 1 (s.fget (rg .bootFwStatus) 0 0)).fset
      (rg .bootFwStatus) 3 2 0).fset (rg .bootFwStatus) 15 8 0).regs := by
    rw [State.fwCommit, if_neg (by rw [hprobation]; decide)]
    rfl
  dsimp only
  simp (disch := decide) only [State.fget_congr _ hregs, State.fget_fset_of_disjoint, State.fget_fset_self]
  refine ⟨rfl, Nat.mod_eq_of_lt (s.fget_bit_lt _ 0), rfl, ?_⟩
  rw [State.fwCommit, if_neg (by rw [hprobation]; decide)]

theorem exec_probationEnd_due
    (hdue : max 1 (s.fget (rg .bootFwCtl) 31 16) * 1000000000 ≤ (s.time hd - s.fw.probAt).toNat) :
    exec .probationEnd s = .next s.fwCommit := congrArg Host.Outcome.next (if_neg (Nat.not_lt.2 hdue))

theorem exec_probationEnd_early
    (hearly : ¬ max 1 (s.fget (rg .bootFwCtl) 31 16) * 1000000000 ≤ (s.time hd - s.fw.probAt).toNat) :
    exec .probationEnd s = .next s := congrArg Host.Outcome.next (if_pos (Nat.not_le.1 hearly))

theorem leads_fwCommit {P : State → Prop} (h : P s.fwCommit) : Leads .fwCommit s P := .intro rfl h

/-- The state in which the old image runs again: the two versions have changed places. -/
def State.reverted (s : State) : State :=
  let r := rg .bootFwStatus
  let t := ((s.extend 2 (digestBytes s.fw.oldDigest)).fset r 63 32 (s.fget (rg .secStatus) 63 32)).fset (rg .secStatus) 63 32
    (s.fget r 63 32)
  (((t.fset (rg .secStatus) 2 2 (1 - s.fget r 0 0)).fset r 0 0 (1 - s.fget r 0 0)).fset r 3 2 0).fset r 5 5 1

theorem exec_watchdogExpiry (hprobation : s.fget (rg .bootFwStatus) 2 2 = 1) : exec .watchdogExpiry s =
    .next { s.reverted with fw := { s.fw with newDigest := s.fw.oldDigest, oldDigest := s.fw.newDigest } } :=
  congrArg Host.Outcome.next (if_neg (by rw [hprobation]; decide))

/-- What the watchdog shows: the old image runs and its digest extends M2; the flash stays. -/
def Reverted (s t : State) : Prop :=
  let r := rg .bootFwStatus
  t.fget r 0 0 = 1 - s.fget r 0 0 ∧ t.fget r 3 2 = 0 ∧ t.fget r 5 5 = 1 ∧ t.flash = s.flash ∧
  t.measure 2 = Config.sha3 (digestBytes (s.measure 2) ++ digestBytes s.fw.oldDigest)

theorem State.reverted_spec (s : State) : Reverted s s.reverted := by
  unfold Reverted State.reverted
  simp (disch := decide) only [State.fget_fset_of_disjoint, State.fget_fset_self]
  exact ⟨Nat.mod_eq_of_lt (by omega), rfl, rfl, rfl, Tbl.get_set_self ..⟩

theorem reverted_withFw (t : State) (f : FwSt) (h : Reverted s t) : Reverted s { t with fw := f } := h

theorem leads_watchdogExpiry (hprobation : s.fget (rg .bootFwStatus) 2 2 = 1) : Leads .watchdogExpiry s (Reverted s) :=
  .intro (exec_watchdogExpiry hprobation) (reverted_withFw _ _ s.reverted_spec)

end

end Sys2Proof.Machine

namespace Sys2Proof.Proofs

open Sys2Proof.Machine

/-- Settles O56: each reset is read off the state that it starts in, and each step of a switch off its case. -/
theorem resetsAndFirmware : Obligations.ResetsAndFirmware := by
  unfold Obligations.ResetsAndFirmware
  refine ⟨fun ns straps byPin s => ?cold, fun rail s hout => leads_railFault rail hout,
    fun s => ⟨leads_refclkLoss_of_none, leads_refclkLoss_of_isSome⟩, fun byLattice s hready hrun hout => leads_packageWarmReset ?warm,
    fun byLattice lc target s hunready => ?unready, fun lc target s hready hrun => ⟨?host, ?core, ?domain⟩,
    fun dim seq s => ?lattice, fun img pause s => ?firmware⟩
  case cold =>
    refine ⟨leads_packageColdReset (s.coldReset_spec byPin), fun hout hlong => ?_, exec_pkgResetNAssert_short, fun hin => ?_, fun hout => ?_⟩
    · exact .intro (exec_pkgResetNAssert_recognised hout hlong) (s.coldReset_spec true)
    · exact .intro (congrArg Host.Outcome.next (if_neg (by rw [hin]; decide))) ⟨rfl, State.reg_setReg ..⟩
    · exact congrArg Host.Outcome.next (if_pos (by rw [hout]; rfl))
  case warm => exact State.warmReset_spec byLattice hready hrun hout
  case unready =>
    exact ⟨congrArg Host.Outcome.next (if_pos (by rw [hunready]; rfl)), congrArg Host.Outcome.next (if_pos (by rw [hunready]; rfl)),
      congrArg Host.Outcome.next (if_pos (by rw [hunready]; rfl)), congrArg Host.Outcome.next (if_pos (by rw [hunready]; rfl))⟩
  case host => exact leads_hostCoreComplexReset (State.hostReset_spec hready hrun)
  case core =>
    obtain ⟨hcore, hctx⟩ := State.coreReset_spec lc hready hrun
    refine leads_perCoreReset ⟨?_, ?_, ?_, ?_, hctx⟩ <;> rw [hcore] <;> rfl
  case domain =>
    refine ⟨fun hn => ?_, fun hn => ?_, fun hlo hhi => ?_, leads_perDomainReset_bank hready hrun, fun hn => ?_,
      leads_perDomainReset_link hready hrun⟩ <;>
      refine leads_perDomainReset_code hready hrun (s.domainReset_result _ |>.trans ?_)
    · rw [if_neg (by omega), if_neg (by omega), if_pos (by omega)]
    · rw [if_neg (by omega), if_neg (by omega), if_neg (by omega)]
    · exact if_pos ⟨hlo, hhi⟩
    · rw [if_neg (by omega), if_pos (.inr hn)]
  case lattice =>
    exact ⟨.intro (exec_latticeReset s) s.numbered_spec, fun hseen => congrArg Host.Outcome.next (if_pos hseen),
      fun hnew => ⟨leads_latticeResetReceive_noted hnew, leads_latticeResetReceive_disabled hnew,
        leads_latticeResetReceive_enabled hnew⟩⟩
  case firmware =>
    refine ⟨exec_fwSwitch_busy, fun hidle hbad => ?_, fun hidle hgood hdead => ?_, fun hidle hgood hlive => ?_, fun hnone => ?_,
      fun himage => ⟨fun hfirst => ?_, fun hbegun hfree hrun => ?_⟩, fun hprobation => leads_fwCommit (State.fwCommit_spec hprobation),
      fun hprobation hdue => .intro (exec_probationEnd_due hdue) (State.fwCommit_spec hprobation), exec_probationEnd_early,
      fun hnone => ⟨congrArg Host.Outcome.next (if_pos hnone), congrArg Host.Outcome.next (if_pos hnone)⟩,
      leads_watchdogExpiry⟩
    · exact (exec_fwSwitch_idle hidle).trans (congrArg Host.Outcome.next (if_pos (by rw [hbad]; rfl)))
    · refine (exec_fwSwitch_idle hidle).trans (congrArg Host.Outcome.next ?_)
      rw [hgood, hdead]
      rfl
    · refine .intro (exec_fwSwitch_idle hidle) ?_
      rw [hgood, hlive]
      exact ⟨State.fget_fset_of_lt (by decide) (by decide) (by decide), rfl⟩
    · exact exec_handoff_of_none pause hnone
    · exact exec_handoff_begins pause himage hfirst
    · exact leads_handoff_ends himage hbegun hfree hrun
end Sys2Proof.Proofs
end
